-- ==== Sys2Proof/Word.lean ====
section
/-! DEFINITION. The word types of the ZQ4800 (R4, R14, R90). -/

namespace Sys2Proof

/-- A byte of memory. -/
abbrev Byte := BitVec 8
/-- A 64-bit register, address or record word (R14). -/
abbrev Word := BitVec 64
/-- A vector register of 2,048 bits (R14, R173). -/
abbrev VReg := BitVec 2048
/-- A taint set: bit i for tag i, bit 31 the saturation mark S (R90). -/
abbrev Taint := BitVec 32
/-- A cube of the package (R8, R65). -/
abbrev CubeId := Fin 4
/-- A state frame of a cube (R27). -/
abbrev FrameId := Fin 2
/-- A 5-bit register specifier of the X, Y and A files (R116). -/
abbrev Reg := BitVec 5
/-- A 9-bit V specifier; 384 to 511 are illegal (R116). -/
abbrev VSpec := BitVec 9
/-- A predicate specifier (R116). -/
abbrev Pred := BitVec 4

/-- The least multiple of 1/b not below a/b, as a count: the ceiling of a quotient (R224, R225). -/
def ceilDiv (a b : Nat) : Nat := if b = 0 then 0 else (a + b - 1) / b

end Sys2Proof
end

