-- ==== Sys2Proof/Syntax.lean ====
section
/-! DEFINITION. Syntax of the steps of the opcode table: the slot instructions of R130 to R137 with their operands,
and the events of the engines, homes, scheduler, power and management that the table lists as steps of their own. -/

namespace Sys2Proof

/-- The type codes of R39 and R127. -/
inductive Ty where
  | f64 | f32 | f16 | bf16 | e4m3 | e5m2 | e2m3 | e3m2 | e2m1 | s8 | int4 | tern
  | s16 | s32 | s64 | z8 | z16 | z32 | z64
deriving DecidableEq, Repr

/-- Rounding modes (R40). -/
inductive RM where
  | rn | rz | ru | rd
deriving DecidableEq, Repr

/-- Condition codes (R128). -/
inductive Cnd where
  | eq | ne | lt | le | ltz | lez
deriving DecidableEq, Repr

/-- The scalar slots X and Y (R131). -/
inductive XY where
  | x | y
deriving DecidableEq, Repr

/-- A file named by a 2-bit code (LSS, LSA, xmov, lset; R130, R132, R136). -/
inductive File3 where
  | x | y | a
deriving DecidableEq, Repr

/-- A file named by the 3-bit code of LST, LSQ and LSP (R136). -/
inductive File5 where
  | x | y | a | v | p
deriving DecidableEq, Repr

/-- Sign modes of `fsgn` (R170). -/
inductive SgnMode where
  | cpy | neg | xor
deriving DecidableEq, Repr

/-- Patterns of `vshuf` (R187). -/
inductive Shuf where
  | zlo | zhi | uev | uod | rev | swp
deriving DecidableEq, Repr

/-- Operations of `vscan` and `vred` (R188). -/
inductive ScanOp where
  | add | min | max | and | or | xor
deriving DecidableEq, Repr

/-- Operations of `atom` (R205). -/
inductive AtomOp where
  | add | fadd | min | max | and | or | xor | swap | cas
deriving DecidableEq, Repr

/-- Scopes (R80). -/
inductive Scope where
  | cube | pkg | span | sys
deriving DecidableEq, Repr

/-- What a `drain` waits for (R86, R87). -/
inductive DrainKind where
  | scope (s : Scope) | nm
deriving DecidableEq, Repr

/-- Barrier kinds (R219). -/
inductive BarKind where
  | gang | span
deriving DecidableEq, Repr

/-- Scale modes of FMT and of copy records (R47, R222). -/
inductive ScaleMode where
  | none | e8m0 | e4m3
deriving DecidableEq, Repr

/-- What `tget` reads: a register or CTAINT (R210). -/
inductive TgetSrc where
  | reg (f : File5) (r : BitVec 9) | ctaint
deriving DecidableEq, Repr

/-- A bundle as its ten fields (R112). -/
structure Bundle where
  hdr : BitVec 16
  bra : BitVec 24
  brb : BitVec 24
  xs  : BitVec 36
  ys  : BitVec 36
  as  : BitVec 40
  va  : BitVec 56
  vb  : BitVec 56
  ls  : BitVec 48
  cc  : BitVec 48
deriving DecidableEq, Repr

/-- Streams of a cube that walk and send (R83, R358). -/
inductive Stream where
  | fetch | ls | copy | msg | cube | nm
deriving DecidableEq, Repr

/-- A message as its sender names it: partition, launch, gang, rank, MSGID (R257, R363). -/
structure MsgKey where
  part : Nat
  launch : Nat
  gang : Nat
  rank : Nat
  msgid : Nat
deriving DecidableEq, Repr

/-- A 64-byte line of a message that travels between packages: its bytes, whether it was poisoned at its source, and the
global address that the sender's translation gives its destination, where it has one (R76, R258, R259, R357). -/
structure MsgLine where
  data : List Byte
  bad  : Bool
  pa   : Option Nat
deriving DecidableEq, Repr

/-- What a refused request names at the issuing context (R361): the task and level that made it, the operation, its bundle
and slot, and the virtual address. -/
structure ReqTag where
  part   : Nat
  launch : Nat
  gang   : Nat
  rank   : Nat
  taskid : BitVec 64
  lvl    : Bool
  op     : Nat
  pc     : BitVec 64
  bits   : BitVec 56
  slot   : Nat
  va     : BitVec 64
deriving DecidableEq, Repr

/-- A request arriving from another package over UALink (R361, R363). -/
inductive RemoteKind where
  | read (n : Nat)
  | write (data : List Byte)
  | atomic (op : AtomOp) (sz : BitVec 2) (c s : Word)
  | sems (launch : Nat) (srank grank : Nat) (sem : BitVec 5) (n : BitVec 16)
  | spanArrive (launch : Nat) (bid : BitVec 4) (phase : Nat) (srank grank : Nat)
  -- what the launch schedulers of a span tell each other (R33, R34, R352)
  | spanHold (launch try_ : Nat) (words : List Word) (lvl : Nat)
  | spanHeld (launch try_ : Nat)
  | spanAdmit (launch : Nat)
  | spanRelease (launch : Nat) (over_ : Bool)
  | spanPreempt (launch : Nat)
  | spanDone (launch srank : Nat) (err : Option (Nat × Word × Word))
  | spanStopped (launch srank : Nat)
  | spanFailed (launch : Nat) (err : Nat × Word × Word)
  | spanMemberDone (launch srank grank : Nat)
  -- messages: header with prefix, answer, grant, expiry, data, re-request, end, close (R258, R259, R262, R363, R369)
  | msgHeader (key : MsgKey) (cls : BitVec 2) (dkind : Bool) (launch srank grank : Nat) (buf rsig : BitVec 6)
      (dst len sent : Nat) (head : List MsgLine)
  | msgAnswer (key : MsgKey) (accepted : Bool)
  | msgGrant (key : MsgKey) (tok : Nat) (lines : List Nat)
  | msgExpire (key : MsgKey) (tok : Nat) (lines : List Nat)
  | msgData (key : MsgKey) (tok line : Nat) (data : MsgLine)
  | msgReRequest (key : MsgKey) (lines : List Nat)
  | msgEnd (key : MsgKey) (code bytes : Nat)
  | msgClose (key : MsgKey) (sent : Nat)
  -- what answers a request of another package (R363)
  | readData (local_ : BitVec 42) (data : List Byte) (bad : Bool)
  | writeDone (local_ : BitVec 42)
  | refused (local_ : BitVec 42) (reason : Nat)
deriving DecidableEq, Repr

/-- A request between packages, or the answer to one: the package and cube that it leaves and their fabric partition, the
package it goes to, the local address and lane (R18, R361, R363, R365). -/
structure RemoteReq where
  srcPkg  : Nat
  srcCube : CubeId
  fpid    : BitVec 12
  dstPkg  : Nat
  local_  : BitVec 42
  lane    : BitVec 3
  tag     : Option ReqTag
  kind    : RemoteKind
deriving DecidableEq, Repr

/-- Who sends a message header: a task of this package, or another package (R257, R258, R363). -/
inductive MsgSrc where
  | task (c : CubeId) (f : FrameId)
  | remote (srcPkg : Nat) (srcCube : CubeId) (fpid : BitVec 12) (key : MsgKey) (cls : BitVec 2)
      (dkind : Bool) (local_ : BitVec 42) (launch srank grank : Nat) (buf : BitVec 6) (rsig : BitVec 6)
      (dst len sent : Nat) (head : List MsgLine)
deriving DecidableEq, Repr

/-- An error of storage, corrected or `bad`: of a line of HBM or shared memory by its local address, of a face line by its
physical offset, ECC retries of a vertical bus, or a failing wire of one (R389). -/
inductive StorageFault where
  | memLine (local_ : BitVec 42) (bad : Bool)
  | faceLine (c : CubeId) (layer : Fin 8) (face : Fin 3) (off : BitVec 26) (bad : Bool)
  | busRetry (c : CubeId) (layer : Fin 8) (n : Nat)
  | busWire (c : CubeId) (layer : Fin 8)
deriving DecidableEq, Repr

/-- How a station's four lanes are divided: one ×4 port, two ×2 or four ×1 (R364). -/
inductive StationMode where
  | x4 | x2 | x1
deriving DecidableEq, Repr

/-- What the boot sequence meets that is not in module flash (R392): which physical layers pass the self-test on each
cube (R9, R390), which ports link up, 16 of each cube, how Teasel divides its four stations (R364), the lowest passing
step of each of its 512 band rails (R374), and which HBM stacks train, two of each cube (R65). -/
structure BootInput where
  pass      : List (BitVec 9)
  ports     : List Bool
  stations  : List StationMode
  trim      : List (List Nat)
  hbm       : List Bool
deriving DecidableEq, Repr

/-- A launch window as a function of the PCI Express endpoint reaches it (R333, R396). -/
structure WindowName where
  fn : Fin 4
  q  : BitVec 6
deriving DecidableEq, Repr

/-- A launch record: its partition and its identifier, which counts per partition (R341, R370). -/
structure LaunchName where
  part : Nat
  id   : Nat
deriving DecidableEq, Repr

/-- The steps of the opcode table. A slot instruction's constructor holds the operands of its encoding (R130 to
R137); the guard, F and L bits stand in the bundle. An event's constructor holds what picks the item it acts on and
what arrives from outside. -/
inductive Instr where
  -- the bundle and the core's own steps
  | bundleIssue (lit : Bool) (b : Bundle)
  | bubble
  | drainPoint
  | resultLand
  | variableResultLand
  -- control slots
  | nop
  | br (off : BitVec 14)
  | bri (tg : Reg)
  | call (off : BitVec 14)
  | calli (lk tg : Reg)
  | ret (tg : Reg)
  | lsetImm (lv : BitVec 3) (cnt : BitVec 10)
  | lsetReg (lv : BitVec 3) (cl : File3) (c : Reg)
  | lstride (lv : BitVec 3) (ad st : Reg)
  | loop (lv : BitVec 3)
  | lexit (lv : BitVec 3) (off : BitVec 11)
  | wcfg (sz wo : BitVec 5) (st : BitVec 2)
  | setfmt (af bf : BitVec 4) (acm : BitVec 2) (scm : BitVec 2) (orm : RM)
  | setfid (b0 b1 b2 : BitVec 2)
  | yield
  | trap (code : BitVec 8)
  | halt
  -- scalar slots
  | add (u : XY) (t : Ty) (sat : Bool) (d s1 s2 : Reg)
  | addi (u : XY) (d s1 : Reg) (imm : BitVec 13)
  | sub (u : XY) (t : Ty) (sat : Bool) (d s1 s2 : Reg)
  | mul (u : XY) (t : Ty) (d s1 s2 : Reg)
  | mulh (u : XY) (t : Ty) (d s1 s2 : Reg)
  | mulhz (u : XY) (t : Ty) (d s1 s2 : Reg)
  | div (u : XY) (t : Ty) (d s1 s2 : Reg)
  | rem (u : XY) (t : Ty) (d s1 s2 : Reg)
  | and (u : XY) (t : Ty) (d s1 s2 : Reg)
  | andn (u : XY) (t : Ty) (d s1 s2 : Reg)
  | or (u : XY) (t : Ty) (d s1 s2 : Reg)
  | xor (u : XY) (t : Ty) (d s1 s2 : Reg)
  | sll (u : XY) (t : Ty) (d s1 s2 : Reg)
  | srl (u : XY) (t : Ty) (d s1 s2 : Reg)
  | sra (u : XY) (t : Ty) (d s1 s2 : Reg)
  | rol (u : XY) (t : Ty) (d s1 s2 : Reg)
  | min (u : XY) (t : Ty) (d s1 s2 : Reg)
  | max (u : XY) (t : Ty) (d s1 s2 : Reg)
  | minz (u : XY) (t : Ty) (d s1 s2 : Reg)
  | maxz (u : XY) (t : Ty) (d s1 s2 : Reg)
  | cmp (u : XY) (c : Cnd) (t : Ty) (pd : Pred) (s1 s2 : Reg)
  | cmpi (u : XY) (c : Cnd) (pd : Pred) (s1 : Reg) (imm : BitVec 10)
  | sel (u : XY) (ps : Pred) (d s1 s2 : Reg)
  | clz (u : XY) (t : Ty) (d s1 : Reg)
  | ctz (u : XY) (t : Ty) (d s1 : Reg)
  | popc (u : XY) (t : Ty) (d s1 : Reg)
  | sext (u : XY) (t : Ty) (d s1 : Reg)
  | zext (u : XY) (t : Ty) (d s1 : Reg)
  | mov (u : XY) (d s1 : Reg)
  | movi (u : XY) (d : Reg) (imm : BitVec 18)
  | movhi (u : XY) (d : Reg) (imm : BitVec 16) (pos : BitVec 2)
  | pand (u : XY) (pd pa pb : Pred)
  | por (u : XY) (pd pa pb : Pred)
  | pxor (u : XY) (pd pa pb : Pred)
  | pnot (u : XY) (pd pa : Pred)
  | xmov (u : XY) (dc : File3) (d s : Reg)
  | fadd (u : XY) (t : Ty) (rm : RM) (d s1 s2 : Reg)
  | fsub (u : XY) (t : Ty) (rm : RM) (d s1 s2 : Reg)
  | fmul (u : XY) (t : Ty) (rm : RM) (d s1 s2 : Reg)
  | fma (u : XY) (t : Ty) (rm : RM) (d s1 s2 : Reg)
  | fmin (u : XY) (t : Ty) (d s1 s2 : Reg)
  | fmax (u : XY) (t : Ty) (d s1 s2 : Reg)
  | fcmp (u : XY) (c : Cnd) (t : Ty) (pd : Pred) (s1 s2 : Reg)
  | fcvt (u : XY) (td ts : Ty) (rm : RM) (sat : Bool) (d s1 : Reg)
  | fsgn (u : XY) (t : Ty) (m : SgnMode) (d s1 s2 : Reg)
  | frcp (u : XY) (t : Ty) (rm : RM) (d s1 : Reg)
  | frsq (u : XY) (t : Ty) (rm : RM) (d s1 : Reg)
  -- address slot
  | aadd (d s1 s2 : Reg)
  | aaddi (d s1 : Reg) (imm : BitVec 17)
  | asub (d s1 s2 : Reg)
  | aidx (d s1 s2 : Reg) (sh : BitVec 3)
  | amov (d s : Reg)
  | amovi (d : Reg) (imm : BitVec 22)
  | acmp (c : Cnd) (pd : Pred) (s1 s2 : Reg)
  | amod (d s1 s2 s3 : Reg)
  -- vector slots
  | vadd (t : Ty) (rm : RM) (sat : Bool) (d s1 s2 : VSpec)
  | vsub (t : Ty) (rm : RM) (sat : Bool) (d s1 s2 : VSpec)
  | vmul (t : Ty) (rm : RM) (sat : Bool) (d s1 s2 : VSpec)
  | vfma (t : Ty) (rm : RM) (sat : Bool) (d s1 s2 : VSpec)
  | vmin (t : Ty) (d s1 s2 : VSpec)
  | vmax (t : Ty) (d s1 s2 : VSpec)
  | vabs (t : Ty) (sat : Bool) (d s1 : VSpec)
  | vneg (t : Ty) (sat : Bool) (d s1 : VSpec)
  | vand (t : Ty) (d s1 s2 : VSpec)
  | vor (t : Ty) (d s1 s2 : VSpec)
  | vxor (t : Ty) (d s1 s2 : VSpec)
  | vshl (t : Ty) (d s1 s2 : VSpec)
  | vshr (t : Ty) (d s1 s2 : VSpec)
  | vcmp (c : Cnd) (t : Ty) (d s1 s2 : VSpec)
  | vsel (t : Ty) (d s1 s2 s3 : VSpec)
  | vcvt (td ts : Ty) (part : BitVec 2) (rm : RM) (sat : Bool) (d s1 s2 : VSpec)
  | vpack (t : Ty) (part : BitVec 6) (rm : RM) (sat : Bool) (d s1 s2 : VSpec)
  | vunpack (t : Ty) (part : BitVec 6) (d s1 s2 : VSpec)
  | vscale (blk16 : Bool) (sb : BitVec 5) (rm : RM) (sat : Bool) (d s1 s2 : VSpec)
  | vbcast (t : Ty) (k : BitVec 7) (d s1 : VSpec)
  | vperm (t : Ty) (d s1 s2 : VSpec)
  | vshuf (pat : Shuf) (t : Ty) (d s1 s2 : VSpec)
  | vrot (t : Ty) (k : BitVec 7) (d s1 : VSpec)
  | vlane (t : Ty) (k : BitVec 7) (d s1 : VSpec)
  | vins (t : Ty) (k : BitVec 7) (d s1 : VSpec)
  | vext (t : Ty) (k : BitVec 7) (d s1 s2 : VSpec)
  | vscan (op : ScanOp) (exc seg : Bool) (t : Ty) (rm : RM) (sat : Bool) (d s1 s2 : VSpec)
  | vred (op : ScanOp) (t : Ty) (rm : RM) (sat : Bool) (d s1 s2 : VSpec)
  | vpart (t : Ty) (d s1 s2 s3 : VSpec)
  | vexp2 (t : Ty) (d s1 : VSpec)
  | vlog2 (t : Ty) (d s1 : VSpec)
  | vrcp (t : Ty) (rm : RM) (d s1 : VSpec)
  | vrsqrt (t : Ty) (rm : RM) (d s1 : VSpec)
  | vtanh (t : Ty) (d s1 : VSpec)
  | vmov (d s1 : VSpec)
  | vmovi (w : Bool) (imm : BitVec 32) (d : VSpec)
  -- load/store slot
  | ld (f : File3) (t : Ty) (d b : Reg) (imm : BitVec 17)
  | st (f : File3) (t : Ty) (d b : Reg) (imm : BitVec 17)
  | vld (v : VSpec) (b : Reg) (imm : BitVec 20)
  | vst (v : VSpec) (b : Reg) (imm : BitVec 20)
  | vgath (t : Ty) (scl : BitVec 2) (ix : VSpec) (b : Reg) (v : VSpec)
  | vscat (t : Ty) (scl : BitVec 2) (ix : VSpec) (b : Reg) (v : VSpec)
  | gld (f : File3) (t : Ty) (d b : Reg) (imm : BitVec 17)
  | gst (f : File3) (t : Ty) (d b : Reg) (imm : BitVec 17)
  | gvld (v : VSpec) (b : Reg) (imm : BitVec 20)
  | gvst (v : VSpec) (b : Reg) (imm : BitVec 20)
  | gpf (b : Reg) (imm : BitVec 20)
  | atom (op : AtomOp) (sco : Scope) (fe : Bool) (sz : BitVec 2) (f : File3) (d b s c : Reg)
  | drain (k : DrainKind)
  | tclr (f : File5) (first last : BitVec 9)
  | tctl
  | tget (d : Reg) (src : TgetSrc)
  | spt (f : File5) (reg : BitVec 9) (layer : BitVec 3) (gran : BitVec 8)
  | ldt (f : File5) (reg : BitVec 9) (layer : BitVec 3) (gran : BitVec 8)
  -- cube and control slot
  | bdecl (buf : BitVec 6) (base len : Reg) (nl : BitVec 3)
  | bstate (full : Bool) (buf : BitVec 6)
  | bfree (buf : BitVec 6)
  | semi (sem : BitVec 5) (ceil : BitVec 16) (count : BitVec 13)
  | sems (sem : BitVec 5) (n : BitVec 16) (rmt : Bool) (tgt : Reg)
  | semw (sem : BitVec 5) (n : BitVec 16)
  | bar (kind : BarKind) (bid : BitVec 4)
  | cmma (acc : BitVec 4) (aop bop shp : Reg) (mask : BitVec 8) (sig : BitVec 6)
  | cmmz (acc : BitVec 4) (aop bop shp : Reg) (mask : BitVec 8) (sig : BitVec 6)
  | accrd (t : Ty) (acc : BitVec 4) (row : BitVec 7) (cg : BitVec 2) (v : VSpec)
  | accwr (t : Ty) (acc : BitVec 4) (row : BitVec 7) (cg : BitVec 2) (v : VSpec)
  | copy (rec_ : Reg) (sig : BitVec 6)
  | msend (rec_ : Reg) (cls : BitVec 2) (sig : BitVec 6)
  | putfImm (adr : Reg) (imm : BitVec 16) (sig : BitVec 6)
  | putfReg (adr val : Reg) (sig : BitVec 6)
  | nmc (rec_ : Reg) (fe : Bool) (fd : Reg) (sig : BitVec 6)
  | pleave (cls : BitVec 4) (dur : BitVec 16)
  | wlaunch (rec_ : Reg) (sig : BitVec 6)
  | crr (x : Reg) (crn : BitVec 12)
  | crw (x : Reg) (crn : BitVec 12)
  | sys (code : BitVec 16)
  | rfe
  | tlbi (kind : BitVec 3) (adr : Reg)
  | dbg (code : BitVec 16)
  -- homes, translation and the memory streams
  | accessSend (c : CubeId) (f : FrameId) (id line : Nat)
  | pageWalk (c : CubeId) (f : FrameId) (src : Stream) (va : Word)
  | writeAccepted (c : CubeId) (f : FrameId) (id line : Nat)
  | writePerforms (mid : Nat)
  | atomicPerform (c : CubeId) (f : FrameId) (id : Nat)
  | loadPerforms (c : CubeId) (f : FrameId) (id : Nat)
  | remoteRequestArrive (q : RemoteReq)
  | remoteAccessFault (c : CubeId) (f : FrameId) (id : Nat)
  | queuedTranslationFault (c : CubeId) (f : FrameId) (src : Stream)
  | poisonConsumed (c : CubeId) (f : FrameId)
  | semaphoreCeilingTrap (c : CubeId) (f : FrameId)
  -- cube engine
  | cubeOpStart (c : CubeId) (f : FrameId)
  | cubeOpLand (c : CubeId) (f : FrameId) (id : Nat)
  | cubeOperandFault (c : CubeId) (f : FrameId) (id : Nat)
  -- copy engine, messages, Yarrow, flags, near memory, launch
  | copyStart (c : CubeId) (f : FrameId)
  | copyComplete (c : CubeId) (f : FrameId) (id : Nat)
  | msgAccept (src : MsgSrc)
  | headerRetry (c : CubeId) (f : FrameId) (msgid : Nat)
  | grantToken (c : CubeId)
  | msgLineArrive (c : CubeId) (tok line : Nat) (data : MsgLine)
  | tokenExpire (c : CubeId) (tok : Nat)
  | reRequest (c : CubeId) (req : Nat)
  | msgFillComplete (c : CubeId) (req : Nat)
  | msgComplete (c : CubeId) (f : FrameId) (msgid : Nat)
  | orphan (c : CubeId) (req : Nat)
  | putfComplete (c : CubeId) (f : FrameId) (id : Nat)
  | nmcComplete (c : CubeId) (f : FrameId) (id : Nat)
  | wlaunchDecided (c : CubeId) (f : FrameId)
  | barrierPhaseEnd (launch : LaunchName) (gang : Nat) (kind : BarKind) (bid : BitVec 4)
  -- traps, pre-emption and switches
  | trapEntry (c : CubeId) (f : FrameId)
  | preemptionRequest (launch : LaunchName) (gang : Nat)
  | preemption (c : CubeId) (f : FrameId)
  | asyncInterrupt (c : CubeId) (f : FrameId)
  | drainPointOverdue (c : CubeId) (f : FrameId)
  | stallSwitchTimeout (c : CubeId)
  | timeSliceExpiry (c : CubeId)
  | residentSwitch (c : CubeId)
  | forcedSwitch (c : CubeId)
  | layerWithdrawal (c : CubeId) (f : FrameId)
  | taskComplete (c : CubeId) (f : FrameId)
  | gangComplete (launch : LaunchName) (gang : Nat)
  | gangFailureStop (launch : LaunchName) (gang : Nat)
  -- launch scheduling
  | windowSubmit (q : WindowName)
  | windowRegisterWrite (q : WindowName) (off : Nat) (val : Word)
  | schedulingDecision (part : Fin 4)
  | dictionaryLoad (launch : LaunchName) (gang : Nat)
  | headAging (q : BitVec 6)
  | reservationMature (c : CubeId)
  | spanHoldRequest (launch : LaunchName) (pkg : Nat)
  | spanHoldTimeout (launch : LaunchName)
  | recordComplete (launch : LaunchName)
  -- power and reliability
  | campionTick (c : CubeId) (amps temp : Nat)
  | fastComparator (c : CubeId) (amps : Nat)
  | lReport (c : CubeId)
  | thermalTrip (c : CubeId) (temp : Nat)
  | thermalResume (c : CubeId) (temp : Nat)
  | tripTimeout (c : CubeId)
  | leaveGrant (c : CubeId)
  | leaveExpiry (c : CubeId) (f : FrameId)
  | railTrim (c : CubeId) (pass : List Nat)
  | railRiseDone (c : CubeId) (layer : Fin 8)
  | layerGate (c : CubeId) (layer : Fin 8)
  | layerRetention (c : CubeId) (layer : Fin 8)
  | layerWake (c : CubeId) (layer : Fin 8)
  | ivrPhaseFailure (c : CubeId) (layer : Fin 8) (group : Fin 16) (rail : Fin 4)
  | storageRemap (x : StorageFault)
  | portFailure (c : CubeId) (port : BitVec 4) (newPort : BitVec 4)
  | telemetrySample (values : List Word)
  | monitorSample (c : CubeId) (m : Fin 8) (v : Nat)
  | watchdogTimeout
  -- bring-up and management
  | powerOnReset (i : BootInput)
  | functionLevelReset (p : Fin 4)
  | recoverySubmit
  | packageReset (fn : Fin 4) (i : BootInput)
  | writePartitionDescriptors (fn : Fin 4)
  | pinTableChange (fn : Fin 4)
  | commitLimitSet (fn : Fin 4)
  | monitorConfigure (fn : Fin 4)
  | monitorRead (fn : Fin 4)
  | firmwareUpdate (fn : Fin 4)
  | attestationQuote (fn : Fin 4)
  | debugAttach (fn : Fin 4)
  | debugDetach (fn : Fin 4)
  | debugEventsOn (fn : Fin 4)
  | debugEventsOff (fn : Fin 4)
  | debugHalt (fn : Fin 4)
  | debugStep (fn : Fin 4)
  | debugStepDone (c : CubeId) (f : FrameId)
  | debugResume (fn : Fin 4)
  | debugRead (fn : Fin 4)
  | debugWrite (fn : Fin 4)
  | asidRegister (fn : Fin 4)
  | asidDrop (fn : Fin 4)
  | powerLoss (duringCopy : Bool)
  | unknownCommand (fn : Fin 4)
deriving DecidableEq, Repr

end Sys2Proof
end

