-- ==== Sys2Proof/WellFormed.lean ====
section
/-! DEFINITION. Well-formedness of the slot instructions: the operand values that the encoding rules allow
(R39, R127, R128, R129, R130, R136, R137 and each instruction's own rule). What breaks one of these checks is an
illegal encoding (R138). A bundle is raw bits, judged when it issues, and an event has no encoding. -/

namespace Sys2Proof

/-- The code of a type (R39, R127). -/
def Ty.code : Ty → BitVec 5
  | .f64 => 0 | .f32 => 1 | .f16 => 2 | .bf16 => 3 | .e4m3 => 4 | .e5m2 => 5 | .e2m3 => 6 | .e3m2 => 7
  | .e2m1 => 8 | .s8 => 9 | .int4 => 10 | .tern => 11 | .s16 => 16 | .s32 => 17 | .s64 => 18
  | .z8 => 19 | .z16 => 20 | .z32 => 21 | .z64 => 22

/-- Width in bits (R39, R127). -/
def Ty.width : Ty → Nat
  | .f64 => 64 | .f32 => 32 | .f16 => 16 | .bf16 => 16 | .e4m3 => 8 | .e5m2 => 8 | .e2m3 => 6 | .e3m2 => 6
  | .e2m1 => 4 | .s8 => 8 | .int4 => 4 | .tern => 2 | .s16 => 16 | .s32 => 32 | .s64 => 64
  | .z8 => 8 | .z16 => 16 | .z32 => 32 | .z64 => 64

/-- The wide floating types (R165, R175). -/
def Ty.isFp : Ty → Bool
  | .f64 | .f32 | .f16 | .bf16 => true
  | _ => false

/-- Every floating element type (R39). -/
def Ty.isFloat : Ty → Bool
  | .f64 | .f32 | .f16 | .bf16 | .e4m3 | .e5m2 | .e2m3 | .e3m2 | .e2m1 => true
  | _ => false

/-- The integer lane types of R175: codes 9 and 16 to 22. -/
def Ty.isLaneInt : Ty → Bool
  | .s8 | .s16 | .s32 | .s64 | .z8 | .z16 | .z32 | .z64 => true
  | _ => false

/-- Types read as signed (R176). -/
def Ty.signed : Ty → Bool
  | .s8 | .s16 | .s32 | .s64 | .int4 | .tern => true
  | _ => false

/-- The scalar widths of R157. -/
def Ty.isScalar : Ty → Bool
  | .s32 | .s64 | .z32 | .z64 => true
  | _ => false

def vok (v : VSpec) : Bool := v.toNat < 384

/-- R129: 0 to 39 and 63. -/
def sigOk (s : BitVec 6) : Bool := s.toNat < 40 || s.toNat = 63

/-- R130: levels 0 to 5. -/
def lvOk (l : BitVec 3) : Bool := l.toNat < 6

/-- R128 under R167 and R179: the codes 4 and 5 are illegal for floating compares. -/
def Cnd.fpOk : Cnd → Bool
  | .ltz | .lez => false
  | _ => true

/-- A layer mask that is not zero and contiguous (R137). -/
def maskOk (m : BitVec 8) : Bool :=
  let n := m.toNat
  (List.range 8).any fun lo => (List.range 8).any fun k => n = (2 ^ (k + 1) - 1) * 2 ^ lo

/-- The size of a file for LST, LSQ and LSP (R208, R211). -/
def File5.size : File5 → Nat
  | .x | .y | .a => 32
  | .v => 384
  | .p => 16

/-- R196: the types of LSS. -/
def Ty.lssOk : Ty → Bool
  | .f64 | .f32 | .f16 | .bf16 | .s8 | .s16 | .s32 | .s64 | .z8 | .z16 | .z32 | .z64 => true
  | _ => false

/-- R200: the types of LSG. -/
def Ty.lsgOk : Ty → Bool
  | .f64 | .f32 | .s32 | .s64 | .z32 | .z64 => true
  | _ => false

/-- R186: the types of the lane-movement instructions. -/
def Ty.moveOk (t : Ty) : Bool := t.isFp || t.isLaneInt

/-- R182: the types of `vcvt`. -/
def Ty.vcvtOk : Ty → Bool
  | .e2m3 | .e3m2 => false
  | _ => true

/-- The ratio of two widths (R182). -/
def widthRatio (a b : Nat) : Nat := if a ≤ b then b / a else a / b

/-- R183: the number of parts of a packed format, 0 where the type is not accepted. -/
def Ty.parts : Ty → Nat
  | .f16 | .bf16 => 2
  | .e4m3 | .e5m2 | .s8 => 4
  | .e2m3 | .e3m2 => 6
  | .e2m1 | .int4 => 8
  | .tern => 16
  | _ => 0

/-- The number of elements of a vector register; six-bit elements leave its top byte unused (R173). -/
def Ty.lanes : Ty → Nat
  | .e2m3 | .e3m2 => 340
  | t => 2048 / t.width

/-- R188: whether op, type, rounding and saturation go together. -/
def scanOk (op : ScanOp) (t : Ty) (rm : RM) (sat : Bool) : Bool :=
  (t.isLaneInt || t.isFp)
  && (match op with | .and | .or | .xor => t.isLaneInt | _ => true)
  && (!sat || (op == .add && t.isLaneInt))
  && (rm == .rn || (op == .add && t.isFp))

/-- R245: the types of `accrd`. -/
def Ty.accrdOk : Ty → Bool
  | .z64 | .z16 | .f64 | .f32 | .f16 | .bf16 | .e4m3 | .e5m2 | .s8 | .s16 | .s32 | .s64 => true
  | _ => false

/-- R246: the types of `accwr`. -/
def Ty.accwrOk : Ty → Bool
  | .z64 | .z16 | .s64 | .f64 | .f32 => true
  | _ => false

/-- The well-formedness of an instruction. `vsel` takes the types of R180, wider than R173 lists.
DEDUCED, assumption 92. -/
def Instr.wf : Instr → Bool
  | .lsetImm lv _ => lvOk lv
  | .lsetReg lv _ _ => lvOk lv
  | .lstride lv _ _ => lvOk lv
  | .loop lv => lvOk lv
  | .lexit lv _ => lvOk lv
  | .wcfg _ _ k => decide (k.toNat < 3)
  | .setfmt af bf acm scm _ => decide (af.toNat < 12) && decide (bf.toNat < 12) && decide (acm.toNat < 2) && decide (scm.toNat < 3)
  | .add _ t _ _ _ _ | .sub _ t _ _ _ _ => t.isScalar
  | .mul _ t _ _ _ | .div _ t _ _ _ | .rem _ t _ _ _ | .and _ t _ _ _ | .andn _ t _ _ _ | .or _ t _ _ _
  | .xor _ t _ _ _ | .sll _ t _ _ _ | .srl _ t _ _ _ | .sra _ t _ _ _ | .rol _ t _ _ _ => t.isScalar
  | .mulh _ t _ _ _ | .min _ t _ _ _ | .max _ t _ _ _ => t == .s32 || t == .s64
  | .mulhz _ t _ _ _ | .minz _ t _ _ _ | .maxz _ t _ _ _ => t == .z32 || t == .z64
  | .cmp _ _ t _ _ _ => t.isScalar
  | .clz _ t _ _ | .ctz _ t _ _ | .popc _ t _ _ => t.isScalar
  | .sext _ t _ _ => t == .s8 || t == .s16 || t == .s32
  | .zext _ t _ _ => t == .z8 || t == .z16 || t == .z32
  | .xmov u dc _ _ => match u, dc with | .x, .x => false | .y, .y => false | _, _ => true
  | .fadd _ t _ _ _ _ | .fsub _ t _ _ _ _ | .fmul _ t _ _ _ _ | .fma _ t _ _ _ _ => t.isFp
  | .fmin _ t _ _ _ | .fmax _ t _ _ _ => t.isFp
  | .fcmp _ c t _ _ _ => t.isFp && c.fpOk
  | .fcvt _ _ ts _ _ _ _ => ts != .tern
  | .fsgn _ t _ _ _ _ => t.isFp
  | .frcp _ t _ _ _ | .frsq _ t _ _ _ => t.isFp
  | .vadd t rm _ d s1 s2 | .vsub t rm _ d s1 s2 | .vmul t rm _ d s1 s2 | .vfma t rm _ d s1 s2 =>
    (t.isFp || (t.isLaneInt && rm == .rn)) && vok d && vok s1 && vok s2
  | .vmin t d s1 s2 | .vmax t d s1 s2 => (t.isFp || t.isLaneInt) && vok d && vok s1 && vok s2
  | .vabs t sat d s1 | .vneg t sat d s1 => ((t.isFp && !sat) || t.isLaneInt) && vok d && vok s1
  | .vand t d s1 s2 | .vor t d s1 s2 | .vxor t d s1 s2 | .vshl t d s1 s2 | .vshr t d s1 s2 =>
    t.isLaneInt && vok d && vok s1 && vok s2
  | .vcmp c t d s1 s2 => (t.isLaneInt || (t.isFp && c.fpOk)) && vok d && vok s1 && vok s2
  | .vsel t d s1 s2 s3 => t != .e2m3 && t != .e3m2 && vok d && vok s1 && vok s2 && vok s3
  | .vcvt td ts part _ _ d s1 s2 =>
    td.vcvtOk && ts.vcvtOk && decide (widthRatio td.width ts.width ≤ 4)
    && decide (part.toNat < widthRatio td.width ts.width) && vok d && vok s1 && vok s2
  | .vpack t part _ _ d s1 s2 => decide (part.toNat < t.parts) && vok d && vok s1 && vok s2
  | .vunpack t part d s1 s2 => decide (part.toNat < t.parts) && vok d && vok s1 && vok s2
  | .vscale _ _ _ _ d s1 s2 => vok d && vok s1 && vok s2
  | .vbcast t k d s1 | .vrot t k d s1 | .vins t k d s1 => t.moveOk && decide (k.toNat < t.lanes) && vok d && vok s1
  | .vperm t d s1 s2 => t.moveOk && vok d && vok s1 && vok s2
  | .vshuf pat t d s1 s2 =>
    t.moveOk && vok d && vok s1 && vok s2 && (match pat with | .rev | .swp => s2 == 0 | _ => true)
  | .vlane t _ d s1 => t.isLaneInt && vok d && vok s1
  | .vext t k d s1 s2 => t.moveOk && decide (k.toNat < t.lanes) && vok d && vok s1 && vok s2
  | .vscan op _ seg t rm sat d s1 s2 => scanOk op t rm sat && vok d && vok s1 && vok s2 && (seg || s2 == 0)
  | .vred op t rm sat d s1 s2 => scanOk op t rm sat && vok d && vok s1 && vok s2
  | .vpart t d s1 s2 s3 =>
    (t == .s32 || t == .s64 || t == .z32 || t == .z64) && vok d && vok s1 && vok s2 && vok s3
    && d != s1 && d != s2 && s1 != s2
  | .vexp2 t d s1 | .vlog2 t d s1 | .vtanh t d s1 => (t == .f32 || t == .f16 || t == .bf16) && vok d && vok s1
  | .vrcp t _ d s1 | .vrsqrt t _ d s1 => (t == .f32 || t == .f16 || t == .bf16) && vok d && vok s1
  | .vmov d s1 => vok d && vok s1
  | .vmovi _ _ d => vok d
  | .ld _ t _ _ _ | .st _ t _ _ _ | .gld _ t _ _ _ | .gst _ t _ _ _ => t.lssOk
  | .vld v _ _ | .vst v _ _ | .gvld v _ _ | .gvst v _ _ => vok v
  | .vgath t _ ix _ v | .vscat t _ ix _ v => t.lsgOk && vok ix && vok v
  | .atom op _ fe sz _ d _ _ c =>
    (op != .fadd || decide (2 ≤ sz.toNat)) && (op == .cas || c == 0) && (fe || d == 0)
  | .tclr f first last => decide (first.toNat ≤ last.toNat) && decide (last.toNat < f.size)
  | .tget _ (.reg f r) => decide (r.toNat < f.size)
  | .spt f reg _ gran | .ldt f reg _ gran =>
    decide (reg.toNat < f.size) && (match f with | .v => decide (gran.toNat ≤ 224) | _ => true)
  | .sems _ _ rmt tgt => rmt || tgt == 0
  | .cmma _ _ _ _ mask sig | .cmmz _ _ _ _ mask sig => maskOk mask && sigOk sig
  | .accrd t _ row cg v => t.accrdOk && vok v && (t != .z16 || (row == 0 && cg == 0))
  | .accwr t _ row cg v => t.accwrOk && vok v && (t != .z16 || (row == 0 && cg == 0))
  | .copy _ sig | .msend _ _ sig | .putfImm _ _ sig | .putfReg _ _ sig | .wlaunch _ sig => sigOk sig
  | .nmc _ fe fd sig => sigOk sig && (fe || fd == 0)
  | .tlbi kind _ => decide (kind.toNat % 4 ≠ 3)
  | _ => true

end Sys2Proof
end

