-- ==== Sys2Proof/Decode.lean ====
section
/-! DEFINITION. The decoder of bundles and slots, total on any bits and rejecting by name, and after it the encoder
(R107 to R116, R127 to R137). -/

namespace Sys2Proof

/-- Why a slot field is no instruction (R138): each is an illegal encoding. -/
inductive Reject where
  /-- an opcode marked illegal -/
  | opcode
  /-- a nonzero field marked zero -/
  | mustBeZero
  /-- a reserved type or format code -/
  | typeCode
  /-- another reserved code -/
  | reserved
  /-- operands that break a limit the encoding rules state -/
  | operand
deriving DecidableEq, Repr

/-- Bits [lo + len − 1 : lo] of a field. -/
def fld {n : Nat} (w : BitVec n) (lo len : Nat) : BitVec len := w.extractLsb' lo len

/-- A field that must be zero. -/
def mbz {n : Nat} (w : BitVec n) (lo len : Nat) : Except Reject Unit :=
  if fld w lo len = 0 then .ok () else .error .mustBeZero

/-- The type of a code (R127). -/
def tyOf (c : BitVec 5) : Except Reject Ty :=
  match c.toNat with
  | 0 => .ok .f64 | 1 => .ok .f32 | 2 => .ok .f16 | 3 => .ok .bf16 | 4 => .ok .e4m3 | 5 => .ok .e5m2
  | 6 => .ok .e2m3 | 7 => .ok .e3m2 | 8 => .ok .e2m1 | 9 => .ok .s8 | 10 => .ok .int4 | 11 => .ok .tern
  | 16 => .ok .s16 | 17 => .ok .s32 | 18 => .ok .s64 | 19 => .ok .z8 | 20 => .ok .z16 | 21 => .ok .z32
  | 22 => .ok .z64
  | _ => .error .typeCode

def rmOf (c : BitVec 2) : RM :=
  match c.toNat with
  | 0 => .rn | 1 => .rz | 2 => .ru | _ => .rd

def RM.code : RM → BitVec 2
  | .rn => 0 | .rz => 1 | .ru => 2 | .rd => 3

def cndOf (c : BitVec 3) : Except Reject Cnd :=
  match c.toNat with
  | 0 => .ok .eq | 1 => .ok .ne | 2 => .ok .lt | 3 => .ok .le | 4 => .ok .ltz | 5 => .ok .lez
  | _ => .error .reserved

def Cnd.code : Cnd → BitVec 3
  | .eq => 0 | .ne => 1 | .lt => 2 | .le => 3 | .ltz => 4 | .lez => 5

def file3Of (c : BitVec 2) : Except Reject File3 :=
  match c.toNat with
  | 0 => .ok .x | 1 => .ok .y | 2 => .ok .a
  | _ => .error .reserved

def File3.code : File3 → BitVec 2
  | .x => 0 | .y => 1 | .a => 2

def file5Of (c : BitVec 3) : Except Reject File5 :=
  match c.toNat with
  | 0 => .ok .x | 1 => .ok .y | 2 => .ok .a | 3 => .ok .v | 4 => .ok .p
  | _ => .error .reserved

def File5.code : File5 → BitVec 3
  | .x => 0 | .y => 1 | .a => 2 | .v => 3 | .p => 4

def XY.code : XY → BitVec 2
  | .x => 0 | .y => 1

def sgnOf (c : BitVec 2) : Except Reject SgnMode :=
  match c.toNat with
  | 0 => .ok .cpy | 1 => .ok .neg | 2 => .ok .xor
  | _ => .error .reserved

def SgnMode.code : SgnMode → BitVec 2
  | .cpy => 0 | .neg => 1 | .xor => 2

def shufOf (c : BitVec 7) : Except Reject Shuf :=
  match c.toNat with
  | 0 => .ok .zlo | 1 => .ok .zhi | 2 => .ok .uev | 3 => .ok .uod | 4 => .ok .rev | 5 => .ok .swp
  | _ => .error .reserved

def Shuf.code : Shuf → BitVec 7
  | .zlo => 0 | .zhi => 1 | .uev => 2 | .uod => 3 | .rev => 4 | .swp => 5

def scanOf (c : BitVec 3) : Except Reject ScanOp :=
  match c.toNat with
  | 0 => .ok .add | 1 => .ok .min | 2 => .ok .max | 3 => .ok .and | 4 => .ok .or | 5 => .ok .xor
  | _ => .error .reserved

def ScanOp.code : ScanOp → BitVec 3
  | .add => 0 | .min => 1 | .max => 2 | .and => 3 | .or => 4 | .xor => 5

def atomOf (c : BitVec 4) : Except Reject AtomOp :=
  match c.toNat with
  | 0 => .ok .add | 1 => .ok .fadd | 2 => .ok .min | 3 => .ok .max | 4 => .ok .and | 5 => .ok .or
  | 6 => .ok .xor | 7 => .ok .swap | 8 => .ok .cas
  | _ => .error .reserved

def AtomOp.code : AtomOp → BitVec 4
  | .add => 0 | .fadd => 1 | .min => 2 | .max => 3 | .and => 4 | .or => 5 | .xor => 6 | .swap => 7 | .cas => 8

def scopeOf (c : BitVec 2) : Scope :=
  match c.toNat with
  | 0 => .cube | 1 => .pkg | 2 => .span | _ => .sys

def Scope.code : Scope → BitVec 2
  | .cube => 0 | .pkg => 1 | .span => 2 | .sys => 3

def drainOf (c : BitVec 3) : Except Reject DrainKind :=
  match c.toNat with
  | 0 => .ok (.scope .cube) | 1 => .ok (.scope .pkg) | 2 => .ok (.scope .span) | 3 => .ok (.scope .sys)
  | 4 => .ok .nm
  | _ => .error .reserved

def DrainKind.code : DrainKind → BitVec 3
  | .scope s => 0#1 ++ s.code
  | .nm => 4

def barOf (c : BitVec 2) : Except Reject BarKind :=
  match c.toNat with
  | 0 => .ok .gang | 1 => .ok .span
  | _ => .error .reserved

def BarKind.code : BarKind → BitVec 2
  | .gang => 0 | .span => 1

def bit {n : Nat} (w : BitVec n) (i : Nat) : Bool := w.getLsbD i
def ofBool1 (b : Bool) : BitVec 1 := if b then 1 else 0

/-- What passes the well-formedness checks is the instruction (R138). -/
def checked (i : Instr) : Except Reject Instr := if i.wf then .ok i else .error .operand

/-- BRA and BRB (R130): OPC in [9:6]. -/
def decodeCtl (w : BitVec 24) : Except Reject Instr := do
  match (fld w 6 4).toNat with
  | 0 => if w = 0 then .ok .nop else .error .mustBeZero
  | 1 => checked (.br (fld w 10 14))
  | 2 => do mbz w 15 9; checked (.bri (fld w 10 5))
  | 3 => checked (.call (fld w 10 14))
  | 4 => do mbz w 20 4; checked (.calli (fld w 15 5) (fld w 10 5))
  | 5 => do mbz w 15 9; checked (.ret (fld w 10 5))
  | 6 =>
    if bit w 13 then checked (.lsetImm (fld w 10 3) (fld w 14 10))
    else do mbz w 21 3; checked (.lsetReg (fld w 10 3) (← file3Of (fld w 14 2)) (fld w 16 5))
  | 7 => do mbz w 23 1; checked (.lstride (fld w 10 3) (fld w 13 5) (fld w 18 5))
  | 8 => do mbz w 13 11; checked (.loop (fld w 10 3))
  | 9 => checked (.lexit (fld w 10 3) (fld w 13 11))
  | 10 => do mbz w 22 2; checked (.wcfg (fld w 10 5) (fld w 15 5) (fld w 20 2))
  | 11 => checked (.setfmt (fld w 10 4) (fld w 14 4) (fld w 18 2) (fld w 20 2) (rmOf (fld w 22 2)))
  | 12 => do mbz w 16 8; checked (.setfid (fld w 10 2) (fld w 12 2) (fld w 14 2))
  | 13 => do mbz w 10 14; checked .yield
  | 14 => do mbz w 18 6; checked (.trap (fld w 10 8))
  | _ => do mbz w 10 14; checked .halt

/-- The fields of the formats XR and XV (R132). -/
def xD (w : BitVec 36) : Reg := fld w 13 5
def xS1 (w : BitVec 36) : Reg := fld w 18 5
def xS2 (w : BitVec 36) : Reg := fld w 23 5
def xT (w : BitVec 36) : Except Reject Ty := tyOf (fld w 28 5)
def xRM (w : BitVec 36) : RM := rmOf (fld w 33 2)
def xSat (w : BitVec 36) : Bool := bit w 35
/-- XR without RM and SAT. -/
def xPlain (w : BitVec 36) : Except Reject Unit := mbz w 33 3
/-- XR with S2, RM and SAT zero. -/
def xOne (w : BitVec 36) : Except Reject Unit := do mbz w 33 3; mbz w 23 5

/-- X and Y (R131, R132): OPC in [12:6]. -/
def decodeXY (u : XY) (w : BitVec 36) : Except Reject Instr := do
  match (fld w 6 7).toNat with
  | 0x00 => if w = 0 then .ok .nop else .error .mustBeZero
  | 0x01 => do mbz w 33 2; checked (.add u (← xT w) (xSat w) (xD w) (xS1 w) (xS2 w))
  | 0x02 => checked (.addi u (xD w) (xS1 w) (fld w 23 13))
  | 0x03 => do mbz w 33 2; checked (.sub u (← xT w) (xSat w) (xD w) (xS1 w) (xS2 w))
  | 0x04 => do xPlain w; checked (.mul u (← xT w) (xD w) (xS1 w) (xS2 w))
  | 0x05 => do xPlain w; checked (.mulh u (← xT w) (xD w) (xS1 w) (xS2 w))
  | 0x06 => do xPlain w; checked (.mulhz u (← xT w) (xD w) (xS1 w) (xS2 w))
  | 0x07 => do xPlain w; checked (.div u (← xT w) (xD w) (xS1 w) (xS2 w))
  | 0x08 => do xPlain w; checked (.rem u (← xT w) (xD w) (xS1 w) (xS2 w))
  | 0x09 => do xPlain w; checked (.and u (← xT w) (xD w) (xS1 w) (xS2 w))
  | 0x0A => do xPlain w; checked (.andn u (← xT w) (xD w) (xS1 w) (xS2 w))
  | 0x0B => do xPlain w; checked (.or u (← xT w) (xD w) (xS1 w) (xS2 w))
  | 0x0C => do xPlain w; checked (.xor u (← xT w) (xD w) (xS1 w) (xS2 w))
  | 0x0D => do xPlain w; checked (.sll u (← xT w) (xD w) (xS1 w) (xS2 w))
  | 0x0E => do xPlain w; checked (.srl u (← xT w) (xD w) (xS1 w) (xS2 w))
  | 0x0F => do xPlain w; checked (.sra u (← xT w) (xD w) (xS1 w) (xS2 w))
  | 0x10 => do xPlain w; checked (.rol u (← xT w) (xD w) (xS1 w) (xS2 w))
  | 0x11 => do xPlain w; checked (.min u (← xT w) (xD w) (xS1 w) (xS2 w))
  | 0x12 => do xPlain w; checked (.max u (← xT w) (xD w) (xS1 w) (xS2 w))
  | 0x13 => do xPlain w; checked (.minz u (← xT w) (xD w) (xS1 w) (xS2 w))
  | 0x14 => do xPlain w; checked (.maxz u (← xT w) (xD w) (xS1 w) (xS2 w))
  | 0x15 => do mbz w 17 1; checked (.cmp u (← cndOf (fld w 33 3)) (← xT w) (fld w 13 4) (xS1 w) (xS2 w))
  | 0x16 => do mbz w 17 1; checked (.cmpi u (← cndOf (fld w 23 3)) (fld w 13 4) (xS1 w) (fld w 26 10))
  | 0x17 => do mbz w 32 4; checked (.sel u (fld w 28 4) (xD w) (xS1 w) (xS2 w))
  | 0x18 => do xOne w; checked (.clz u (← xT w) (xD w) (xS1 w))
  | 0x19 => do xOne w; checked (.ctz u (← xT w) (xD w) (xS1 w))
  | 0x1A => do xOne w; checked (.popc u (← xT w) (xD w) (xS1 w))
  | 0x1B => do xOne w; checked (.sext u (← xT w) (xD w) (xS1 w))
  | 0x1C => do xOne w; checked (.zext u (← xT w) (xD w) (xS1 w))
  | 0x1D => do xOne w; if (← xT w) = .s64 then checked (.mov u (xD w) (xS1 w)) else .error .typeCode
  | 0x1E => checked (.movi u (xD w) (fld w 18 18))
  | 0x1F => checked (.movhi u (xD w) (fld w 20 16) (fld w 18 2))
  | 0x20 => do mbz w 27 9; mbz w 22 1; mbz w 17 1; checked (.pand u (fld w 13 4) (fld w 18 4) (fld w 23 4))
  | 0x21 => do mbz w 27 9; mbz w 22 1; mbz w 17 1; checked (.por u (fld w 13 4) (fld w 18 4) (fld w 23 4))
  | 0x22 => do mbz w 27 9; mbz w 22 1; mbz w 17 1; checked (.pxor u (fld w 13 4) (fld w 18 4) (fld w 23 4))
  | 0x23 => do mbz w 22 14; mbz w 17 1; checked (.pnot u (fld w 13 4) (fld w 18 4))
  | 0x24 => do
    mbz w 27 9
    if fld w 25 2 = u.code then checked (.xmov u (← file3Of (fld w 23 2)) (xD w) (xS1 w)) else .error .reserved
  | 0x25 => do mbz w 35 1; checked (.fadd u (← xT w) (xRM w) (xD w) (xS1 w) (xS2 w))
  | 0x26 => do mbz w 35 1; checked (.fsub u (← xT w) (xRM w) (xD w) (xS1 w) (xS2 w))
  | 0x27 => do mbz w 35 1; checked (.fmul u (← xT w) (xRM w) (xD w) (xS1 w) (xS2 w))
  | 0x28 => do mbz w 35 1; checked (.fma u (← xT w) (xRM w) (xD w) (xS1 w) (xS2 w))
  | 0x29 => do xPlain w; checked (.fmin u (← xT w) (xD w) (xS1 w) (xS2 w))
  | 0x2A => do xPlain w; checked (.fmax u (← xT w) (xD w) (xS1 w) (xS2 w))
  | 0x2B => do mbz w 17 1; checked (.fcmp u (← cndOf (fld w 33 3)) (← xT w) (fld w 13 4) (xS1 w) (xS2 w))
  | 0x2C => checked (.fcvt u (← tyOf (fld w 23 5)) (← xT w) (xRM w) (xSat w) (xD w) (xS1 w))
  | 0x2D => do mbz w 35 1; checked (.fsgn u (← xT w) (← sgnOf (fld w 33 2)) (xD w) (xS1 w) (xS2 w))
  | 0x2E => do mbz w 35 1; mbz w 23 5; checked (.frcp u (← xT w) (xRM w) (xD w) (xS1 w))
  | 0x2F => do mbz w 35 1; mbz w 23 5; checked (.frsq u (← xT w) (xRM w) (xD w) (xS1 w))
  | _ => .error .opcode

/-- The address slot (R133): OPC in [12:6]. -/
def decodeA (w : BitVec 40) : Except Reject Instr := do
  match (fld w 6 7).toNat with
  | 0 => if w = 0 then .ok .nop else .error .mustBeZero
  | 1 => do mbz w 28 12; checked (.aadd (fld w 13 5) (fld w 18 5) (fld w 23 5))
  | 2 => checked (.aaddi (fld w 13 5) (fld w 18 5) (fld w 23 17))
  | 3 => do mbz w 28 12; checked (.asub (fld w 13 5) (fld w 18 5) (fld w 23 5))
  | 4 => do mbz w 31 9; checked (.aidx (fld w 13 5) (fld w 18 5) (fld w 23 5) (fld w 28 3))
  | 5 => do mbz w 23 17; checked (.amov (fld w 13 5) (fld w 18 5))
  | 6 => checked (.amovi (fld w 13 5) (fld w 18 22))
  | 7 => do mbz w 31 9; mbz w 17 1; checked (.acmp (← cndOf (fld w 28 3)) (fld w 13 4) (fld w 18 5) (fld w 23 5))
  | 8 => do mbz w 33 7; checked (.amod (fld w 13 5) (fld w 18 5) (fld w 23 5) (fld w 28 5))
  | _ => .error .opcode

/-- The fields of the format VR (R135). -/
def vD (w : BitVec 56) : VSpec := fld w 14 9
def vS1 (w : BitVec 56) : VSpec := fld w 23 9
def vS2 (w : BitVec 56) : VSpec := fld w 32 9
def vT (w : BitVec 56) : Except Reject Ty := tyOf (fld w 41 5)
def vRM (w : BitVec 56) : RM := rmOf (fld w 46 2)
def vSat (w : BitVec 56) : Bool := bit w 48
def vFN (w : BitVec 56) : BitVec 7 := fld w 49 7

/-- VA and VB (R134, R135): OPC in [13:6]. -/
def decodeV (w : BitVec 56) : Except Reject Instr := do
  match (fld w 6 8).toNat with
  | 0x00 => if w = 0 then .ok .nop else .error .mustBeZero
  | 0x01 => do mbz w 49 7; checked (.vadd (← vT w) (vRM w) (vSat w) (vD w) (vS1 w) (vS2 w))
  | 0x02 => do mbz w 49 7; checked (.vsub (← vT w) (vRM w) (vSat w) (vD w) (vS1 w) (vS2 w))
  | 0x03 => do mbz w 49 7; checked (.vmul (← vT w) (vRM w) (vSat w) (vD w) (vS1 w) (vS2 w))
  | 0x04 => do mbz w 49 7; checked (.vfma (← vT w) (vRM w) (vSat w) (vD w) (vS1 w) (vS2 w))
  | 0x05 => do mbz w 46 10; checked (.vmin (← vT w) (vD w) (vS1 w) (vS2 w))
  | 0x06 => do mbz w 46 10; checked (.vmax (← vT w) (vD w) (vS1 w) (vS2 w))
  | 0x07 => do mbz w 49 7; mbz w 46 2; mbz w 32 9; checked (.vabs (← vT w) (vSat w) (vD w) (vS1 w))
  | 0x08 => do mbz w 49 7; mbz w 46 2; mbz w 32 9; checked (.vneg (← vT w) (vSat w) (vD w) (vS1 w))
  | 0x09 => do mbz w 46 10; checked (.vand (← vT w) (vD w) (vS1 w) (vS2 w))
  | 0x0A => do mbz w 46 10; checked (.vor (← vT w) (vD w) (vS1 w) (vS2 w))
  | 0x0B => do mbz w 46 10; checked (.vxor (← vT w) (vD w) (vS1 w) (vS2 w))
  | 0x0C => do mbz w 46 10; checked (.vshl (← vT w) (vD w) (vS1 w) (vS2 w))
  | 0x0D => do mbz w 46 10; checked (.vshr (← vT w) (vD w) (vS1 w) (vS2 w))
  | 0x0E => do mbz w 46 3; mbz w 52 4; checked (.vcmp (← cndOf (fld w 49 3)) (← vT w) (vD w) (vS1 w) (vS2 w))
  | 0x0F => do mbz w 55 1; checked (.vsel (← tyOf (fld w 50 5)) (vD w) (vS1 w) (vS2 w) (fld w 41 9))
  | 0x10 => checked (.vcvt (← vT w) (← tyOf (fld w 49 5)) (fld w 54 2) (vRM w) (vSat w) (vD w) (vS1 w) (vS2 w))
  | 0x11 => do mbz w 55 1; checked (.vpack (← vT w) (fld w 49 6) (vRM w) (vSat w) (vD w) (vS1 w) (vS2 w))
  | 0x12 => do mbz w 55 1; mbz w 46 3; checked (.vunpack (← vT w) (fld w 49 6) (vD w) (vS1 w) (vS2 w))
  | 0x13 => do
    if (← vT w) = .f32 then
      match (fld w 49 2).toNat with
      | 1 => checked (.vscale false (fld w 51 5) (vRM w) (vSat w) (vD w) (vS1 w) (vS2 w))
      | 2 => checked (.vscale true (fld w 51 5) (vRM w) (vSat w) (vD w) (vS1 w) (vS2 w))
      | _ => .error .reserved
    else .error .typeCode
  | 0x14 => do mbz w 46 3; mbz w 32 9; checked (.vbcast (← vT w) (vFN w) (vD w) (vS1 w))
  | 0x15 => do mbz w 46 10; checked (.vperm (← vT w) (vD w) (vS1 w) (vS2 w))
  | 0x16 => do mbz w 46 3; checked (.vshuf (← shufOf (vFN w)) (← vT w) (vD w) (vS1 w) (vS2 w))
  | 0x17 => do mbz w 46 3; mbz w 32 9; checked (.vrot (← vT w) (vFN w) (vD w) (vS1 w))
  | 0x18 => do mbz w 46 3; mbz w 32 9; checked (.vlane (← vT w) (vFN w) (vD w) (vS1 w))
  | 0x19 => do mbz w 46 3; mbz w 32 9; checked (.vins (← vT w) (vFN w) (vD w) (vS1 w))
  | 0x1A => do mbz w 46 3; checked (.vext (← vT w) (vFN w) (vD w) (vS1 w) (vS2 w))
  | 0x1B => do
    mbz w 54 2
    checked (.vscan (← scanOf (fld w 49 3)) (bit w 52) (bit w 53) (← vT w) (vRM w) (vSat w) (vD w) (vS1 w) (vS2 w))
  | 0x1C => do mbz w 52 4; checked (.vred (← scanOf (fld w 49 3)) (← vT w) (vRM w) (vSat w) (vD w) (vS1 w) (vS2 w))
  | 0x1D => do mbz w 55 1; checked (.vpart (← tyOf (fld w 50 5)) (vD w) (vS1 w) (vS2 w) (fld w 41 9))
  | 0x1E => do mbz w 46 10; mbz w 32 9; checked (.vexp2 (← vT w) (vD w) (vS1 w))
  | 0x1F => do mbz w 46 10; mbz w 32 9; checked (.vlog2 (← vT w) (vD w) (vS1 w))
  | 0x20 => do mbz w 48 8; mbz w 32 9; checked (.vrcp (← vT w) (vRM w) (vD w) (vS1 w))
  | 0x21 => do mbz w 48 8; mbz w 32 9; checked (.vrsqrt (← vT w) (vRM w) (vD w) (vS1 w))
  | 0x22 => do mbz w 46 10; mbz w 32 9; checked (.vtanh (← vT w) (vD w) (vS1 w))
  | 0x23 => do mbz w 32 24; checked (.vmov (vD w) (vS1 w))
  | 0x24 => checked (.vmovi (bit w 55) (fld w 23 32) (vD w))
  | _ => .error .opcode

/-- The load/store slot (R136): OPC in [13:6]. -/
def decodeLS (w : BitVec 48) : Except Reject Instr := do
  let f3 := file3Of (fld w 14 2)
  let f5 := file5Of (fld w 14 3)
  let ty := tyOf (fld w 26 5)
  match (fld w 6 8).toNat with
  | 0x00 => if w = 0 then .ok .nop else .error .mustBeZero
  | 0x01 => checked (.ld (← f3) (← ty) (fld w 16 5) (fld w 21 5) (fld w 31 17))
  | 0x02 => checked (.st (← f3) (← ty) (fld w 16 5) (fld w 21 5) (fld w 31 17))
  | 0x03 => checked (.vld (fld w 14 9) (fld w 23 5) (fld w 28 20))
  | 0x04 => checked (.vst (fld w 14 9) (fld w 23 5) (fld w 28 20))
  | 0x05 => do
    mbz w 44 4; checked (.vgath (← tyOf (fld w 39 5)) (fld w 37 2) (fld w 28 9) (fld w 23 5) (fld w 14 9))
  | 0x06 => do
    mbz w 44 4; checked (.vscat (← tyOf (fld w 39 5)) (fld w 37 2) (fld w 28 9) (fld w 23 5) (fld w 14 9))
  | 0x07 => checked (.gld (← f3) (← ty) (fld w 16 5) (fld w 21 5) (fld w 31 17))
  | 0x08 => checked (.gst (← f3) (← ty) (fld w 16 5) (fld w 21 5) (fld w 31 17))
  | 0x09 => checked (.gvld (fld w 14 9) (fld w 23 5) (fld w 28 20))
  | 0x0A => checked (.gvst (fld w 14 9) (fld w 23 5) (fld w 28 20))
  | 0x0B => do mbz w 14 9; checked (.gpf (fld w 23 5) (fld w 28 20))
  | 0x0C => do
    mbz w 46 2; mbz w 45 1
    checked (.atom (← atomOf (fld w 36 4)) (scopeOf (fld w 40 2)) (bit w 42) (fld w 43 2) (← f3)
      (fld w 16 5) (fld w 21 5) (fld w 26 5) (fld w 31 5))
  | 0x0D => do mbz w 17 31; checked (.drain (← drainOf (fld w 14 3)))
  | 0x0E => do mbz w 35 13; checked (.tclr (← f5) (fld w 17 9) (fld w 26 9))
  | 0x0F => do mbz w 14 34; checked .tctl
  | 0x10 => do
    mbz w 31 17
    if fld w 14 3 = 5 then do mbz w 17 9; checked (.tget (fld w 26 5) .ctaint)
    else checked (.tget (fld w 26 5) (.reg (← f5) (fld w 17 9)))
  | 0x11 => do mbz w 37 11; checked (.spt (← f5) (fld w 17 9) (fld w 26 3) (fld w 29 8))
  | 0x12 => do mbz w 37 11; checked (.ldt (← f5) (fld w 17 9) (fld w 26 3) (fld w 29 8))
  | _ => .error .opcode

/-- The cube and control slot (R137): OPC in [13:6]. -/
def decodeCC (w : BitVec 48) : Except Reject Instr := do
  let sig : BitVec 6 := fld w 42 6
  match (fld w 6 8).toNat with
  | 0x00 => if w = 0 then .ok .nop else .error .mustBeZero
  | 0x01 => do
    mbz w 41 1; checked (.cmma (fld w 24 4) (fld w 14 5) (fld w 19 5) (fld w 28 5) (fld w 33 8) sig)
  | 0x02 => do
    mbz w 41 1; checked (.cmmz (fld w 24 4) (fld w 14 5) (fld w 19 5) (fld w 28 5) (fld w 33 8) sig)
  | 0x03 => do
    mbz w 41 7; checked (.accrd (← tyOf (fld w 36 5)) (fld w 23 4) (fld w 27 7) (fld w 34 2) (fld w 14 9))
  | 0x04 => do
    mbz w 41 7; checked (.accwr (← tyOf (fld w 36 5)) (fld w 23 4) (fld w 27 7) (fld w 34 2) (fld w 14 9))
  | 0x05 => do mbz w 19 23; checked (.copy (fld w 14 5) sig)
  | 0x06 => do mbz w 21 21; checked (.msend (fld w 14 5) (fld w 19 2) sig)
  | 0x07 => do
    mbz w 41 1
    if bit w 24 then do mbz w 19 5; checked (.putfImm (fld w 14 5) (fld w 25 16) sig)
    else do mbz w 25 16; checked (.putfReg (fld w 14 5) (fld w 19 5) sig)
  | 0x08 => do mbz w 25 17; checked (.nmc (fld w 14 5) (bit w 24) (fld w 19 5) sig)
  | 0x09 => do mbz w 33 15; checked (.bdecl (fld w 14 6) (fld w 20 5) (fld w 25 5) (fld w 30 3))
  | 0x0A => do mbz w 21 27; checked (.bstate (bit w 20) (fld w 14 6))
  | 0x0B => do mbz w 20 28; checked (.bfree (fld w 14 6))
  | 0x0C => checked (.semi (fld w 14 5) (fld w 19 16) (fld w 35 13))
  | 0x0D => do mbz w 41 7; checked (.sems (fld w 14 5) (fld w 19 16) (bit w 35) (fld w 36 5))
  | 0x0E => do mbz w 35 13; checked (.semw (fld w 14 5) (fld w 19 16))
  | 0x0F => do mbz w 20 28; checked (.bar (← barOf (fld w 18 2)) (fld w 14 4))
  | 0x10 => do mbz w 34 14; checked (.pleave (fld w 14 4) (fld w 18 16))
  | 0x11 => do mbz w 19 23; checked (.wlaunch (fld w 14 5) sig)
  | 0x12 => do mbz w 31 17; checked (.crr (fld w 14 5) (fld w 19 12))
  | 0x13 => do mbz w 31 17; checked (.crw (fld w 14 5) (fld w 19 12))
  | 0x14 => do mbz w 30 18; checked (.sys (fld w 14 16))
  | 0x15 => do mbz w 14 34; checked .rfe
  | 0x16 => do mbz w 22 26; checked (.tlbi (fld w 19 3) (fld w 14 5))
  | 0x17 => do mbz w 30 18; checked (.dbg (fld w 14 16))
  | _ => .error .opcode

/-- The slots of a bundle, numbered as TCAUSE.SLOT numbers them (R316). -/
inductive Slot where
  | bra | brb | x | y | a | va | vb | ls | cc
deriving DecidableEq, Repr

def Slot.code : Slot → Nat
  | .bra => 0 | .brb => 1 | .x => 2 | .y => 3 | .a => 4 | .va => 5 | .vb => 6 | .ls => 7 | .cc => 8

/-- A slot field as decoded (R114): its number, the field in 56 bits, the guard, L and F, and the instruction. -/
structure SlotIns where
  slot  : Slot
  raw   : BitVec 56
  guard : Pred
  last  : Bool
  first : Bool
  ins   : Instr
deriving DecidableEq, Repr

def slotOf {n : Nat} (k : Slot) (w : BitVec n) (r : Except Reject Instr) : Except (Slot × BitVec 56) SlotIns :=
  match r with
  | .ok i => .ok ⟨k, w.setWidth 56, fld w 2 4, bit w 1, bit w 0, i⟩
  | .error _ => .error (k, w.setWidth 56)

/-- The nine slots in the order BRA, BRB, X, Y, A, VA, VB, LS, CC; the first that is no instruction is named
(R138). -/
def decodeSlots (b : Bundle) : Except (Slot × BitVec 56) (List SlotIns) := do
  let s0 ← slotOf .bra b.bra (decodeCtl b.bra)
  let s1 ← slotOf .brb b.brb (decodeCtl b.brb)
  let s2 ← slotOf .x b.xs (decodeXY .x b.xs)
  let s3 ← slotOf .y b.ys (decodeXY .y b.ys)
  let s4 ← slotOf .a b.as (decodeA b.as)
  let s5 ← slotOf .va b.va (decodeV b.va)
  let s6 ← slotOf .vb b.vb (decodeV b.vb)
  let s7 ← slotOf .ls b.ls (decodeLS b.ls)
  let s8 ← slotOf .cc b.cc (decodeCC b.cc)
  .ok [s0, s1, s2, s3, s4, s5, s6, s7, s8]

/-- The fields of a 384-bit bundle (R112). -/
def Bundle.ofBits (w : BitVec 384) : Bundle where
  hdr := fld w 0 16
  bra := fld w 16 24
  brb := fld w 40 24
  xs := fld w 64 36
  ys := fld w 100 36
  as := fld w 136 40
  va := fld w 176 56
  vb := fld w 232 56
  ls := fld w 288 48
  cc := fld w 336 48

def Bundle.toBits (b : Bundle) : BitVec 384 :=
  (b.cc ++ b.ls ++ b.vb ++ b.va ++ b.as ++ b.ys ++ b.xs ++ b.brb ++ b.bra ++ b.hdr).setWidth 384

/-- The header's fields (R113). -/
def Bundle.dp (b : Bundle) : Bool := bit b.hdr 0
def Bundle.waitMask (b : Bundle) : BitVec 8 := fld b.hdr 1 8
def Bundle.lvl (b : Bundle) : BitVec 3 := fld b.hdr 9 3

/-- What a code word at a bundle start is (R108). -/
inductive CodeWord where
  | index (i : Nat) | escape | reserved | padding
deriving DecidableEq, Repr

def codeWord (w : BitVec 16) : CodeWord :=
  if w.toNat < 0x4000 then .index w.toNat
  else if w = 0xFFFE then .escape
  else if w = 0xFFFF then .padding
  else .reserved

/-- The instruction read from a bundle's bits: a bundle is what the core fetches and issues (R107, R112). -/
def decodeTableWord (nbits w : Nat) : Option Instr :=
  let b := Bundle.ofBits (BitVec.ofNat 384 w)
  if nbits ≤ 384 then
    match decodeSlots b with
    | .ok _ => some (.bundleIssue true b)
    | .error _ => none
  else none

/-- The functional units that slots feed: a control slot, a scalar slot, the address slot, a vector slot, the load and store slot,
the cube and control slot (R112). -/
inductive SlotUnit where
  | ctl | xy | a | v | ls | cc
deriving DecidableEq, Repr

/-- The unit whose slots hold an instruction, none where it is the bundle, a step of the core or an event (R130 to R137). -/
def Instr.unit : Instr → Option SlotUnit
  | .nop .. | .br .. | .bri .. | .call .. | .calli .. | .ret .. | .lsetImm .. | .lsetReg .. | .lstride .. | .loop ..
  | .lexit .. | .wcfg .. | .setfmt .. | .setfid .. | .yield .. | .trap .. | .halt .. => some .ctl
  | .add .. | .addi .. | .sub .. | .mul .. | .mulh .. | .mulhz .. | .div .. | .rem .. | .and .. | .andn .. | .or ..
  | .xor .. | .sll .. | .srl .. | .sra .. | .rol .. | .min .. | .max .. | .minz .. | .maxz .. | .cmp .. | .cmpi ..
  | .sel .. | .clz .. | .ctz .. | .popc .. | .sext .. | .zext .. | .mov .. | .movi .. | .movhi .. | .pand ..
  | .por .. | .pxor .. | .pnot .. | .xmov .. | .fadd .. | .fsub .. | .fmul .. | .fma .. | .fmin .. | .fmax ..
  | .fcmp .. | .fcvt .. | .fsgn .. | .frcp .. | .frsq .. => some .xy
  | .aadd .. | .aaddi .. | .asub .. | .aidx .. | .amov .. | .amovi .. | .acmp .. | .amod .. => some .a
  | .vadd .. | .vsub .. | .vmul .. | .vfma .. | .vmin .. | .vmax .. | .vabs .. | .vneg .. | .vand .. | .vor ..
  | .vxor .. | .vshl .. | .vshr .. | .vcmp .. | .vsel .. | .vcvt .. | .vpack .. | .vunpack .. | .vscale ..
  | .vbcast .. | .vperm .. | .vshuf .. | .vrot .. | .vlane .. | .vins .. | .vext .. | .vscan .. | .vred ..
  | .vpart .. | .vexp2 .. | .vlog2 .. | .vrcp .. | .vrsqrt .. | .vtanh .. | .vmov .. | .vmovi .. => some .v
  | .ld .. | .st .. | .vld .. | .vst .. | .vgath .. | .vscat .. | .gld .. | .gst .. | .gvld .. | .gvst .. | .gpf ..
  | .atom .. | .drain .. | .tclr .. | .tctl .. | .tget .. | .spt .. | .ldt .. => some .ls
  | .bdecl .. | .bstate .. | .bfree .. | .semi .. | .sems .. | .semw .. | .bar .. | .cmma .. | .cmmz .. | .accrd ..
  | .accwr .. | .copy .. | .msend .. | .putfImm .. | .putfReg .. | .nmc .. | .pleave .. | .wlaunch .. | .crr ..
  | .crw .. | .sys .. | .rfe .. | .tlbi .. | .dbg .. => some .cc
  | _ => none

/-! The encoder: the slot field of a well-formed instruction, head bits zero (R114, R130 to R137). -/

def encCtl (opc : Nat) (ops : BitVec 14) : BitVec 24 := ops ++ (BitVec.ofNat 4 opc ++ 0#6)

def encodeCtl : Instr → Option (BitVec 24)
  | .nop => some 0
  | .br off => some (encCtl 1 off)
  | .bri tg => some (encCtl 2 (0#9 ++ tg))
  | .call off => some (encCtl 3 off)
  | .calli lk tg => some (encCtl 4 (0#4 ++ lk ++ tg))
  | .ret tg => some (encCtl 5 (0#9 ++ tg))
  | .lsetImm lv cnt => some (encCtl 6 (cnt ++ 1#1 ++ lv))
  | .lsetReg lv cl c => some (encCtl 6 (0#3 ++ c ++ cl.code ++ 0#1 ++ lv))
  | .lstride lv ad st => some (encCtl 7 (0#1 ++ st ++ ad ++ lv))
  | .loop lv => some (encCtl 8 (0#11 ++ lv))
  | .lexit lv off => some (encCtl 9 (off ++ lv))
  | .wcfg sz wo st => some (encCtl 10 (0#2 ++ st ++ wo ++ sz))
  | .setfmt af bf acm scm orm => some (encCtl 11 (orm.code ++ scm ++ acm ++ bf ++ af))
  | .setfid b0 b1 b2 => some (encCtl 12 (0#8 ++ b2 ++ b1 ++ b0))
  | .yield => some (encCtl 13 0)
  | .trap code => some (encCtl 14 (0#6 ++ code))
  | .halt => some (encCtl 15 0)
  | _ => none

def encXY (opc : Nat) (ops : BitVec 23) : BitVec 36 := ops ++ (BitVec.ofNat 7 opc ++ 0#6)
def encXR (opc : Nat) (sat : Bool) (rm : BitVec 2) (t : Ty) (s2 s1 d : Reg) : BitVec 36 :=
  encXY opc (ofBool1 sat ++ rm ++ t.code ++ s2 ++ s1 ++ d)
def encXC (opc : Nat) (c : Cnd) (t : Ty) (s2 s1 : Reg) (pd : Pred) : BitVec 36 :=
  encXY opc (c.code ++ t.code ++ s2 ++ s1 ++ 0#1 ++ pd)
def encXP (opc : Nat) (pb pa pd : Pred) : BitVec 36 :=
  encXY opc (0#9 ++ pb ++ 0#1 ++ pa ++ 0#1 ++ pd)

def encodeXY : Instr → Option (XY × BitVec 36)
  | .add u t sat d s1 s2 => some (u, encXR 0x01 sat 0 t s2 s1 d)
  | .addi u d s1 imm => some (u, encXY 0x02 (imm ++ s1 ++ d))
  | .sub u t sat d s1 s2 => some (u, encXR 0x03 sat 0 t s2 s1 d)
  | .mul u t d s1 s2 => some (u, encXR 0x04 false 0 t s2 s1 d)
  | .mulh u t d s1 s2 => some (u, encXR 0x05 false 0 t s2 s1 d)
  | .mulhz u t d s1 s2 => some (u, encXR 0x06 false 0 t s2 s1 d)
  | .div u t d s1 s2 => some (u, encXR 0x07 false 0 t s2 s1 d)
  | .rem u t d s1 s2 => some (u, encXR 0x08 false 0 t s2 s1 d)
  | .and u t d s1 s2 => some (u, encXR 0x09 false 0 t s2 s1 d)
  | .andn u t d s1 s2 => some (u, encXR 0x0A false 0 t s2 s1 d)
  | .or u t d s1 s2 => some (u, encXR 0x0B false 0 t s2 s1 d)
  | .xor u t d s1 s2 => some (u, encXR 0x0C false 0 t s2 s1 d)
  | .sll u t d s1 s2 => some (u, encXR 0x0D false 0 t s2 s1 d)
  | .srl u t d s1 s2 => some (u, encXR 0x0E false 0 t s2 s1 d)
  | .sra u t d s1 s2 => some (u, encXR 0x0F false 0 t s2 s1 d)
  | .rol u t d s1 s2 => some (u, encXR 0x10 false 0 t s2 s1 d)
  | .min u t d s1 s2 => some (u, encXR 0x11 false 0 t s2 s1 d)
  | .max u t d s1 s2 => some (u, encXR 0x12 false 0 t s2 s1 d)
  | .minz u t d s1 s2 => some (u, encXR 0x13 false 0 t s2 s1 d)
  | .maxz u t d s1 s2 => some (u, encXR 0x14 false 0 t s2 s1 d)
  | .cmp u c t pd s1 s2 => some (u, encXC 0x15 c t s2 s1 pd)
  | .cmpi u c pd s1 imm => some (u, encXY 0x16 (imm ++ c.code ++ s1 ++ 0#1 ++ pd))
  | .sel u ps d s1 s2 => some (u, encXY 0x17 (0#4 ++ ps ++ s2 ++ s1 ++ d))
  | .clz u t d s1 => some (u, encXR 0x18 false 0 t 0 s1 d)
  | .ctz u t d s1 => some (u, encXR 0x19 false 0 t 0 s1 d)
  | .popc u t d s1 => some (u, encXR 0x1A false 0 t 0 s1 d)
  | .sext u t d s1 => some (u, encXR 0x1B false 0 t 0 s1 d)
  | .zext u t d s1 => some (u, encXR 0x1C false 0 t 0 s1 d)
  | .mov u d s1 => some (u, encXR 0x1D false 0 .s64 0 s1 d)
  | .movi u d imm => some (u, encXY 0x1E (imm ++ d))
  | .movhi u d imm pos => some (u, encXY 0x1F (imm ++ pos ++ d))
  | .pand u pd pa pb => some (u, encXP 0x20 pb pa pd)
  | .por u pd pa pb => some (u, encXP 0x21 pb pa pd)
  | .pxor u pd pa pb => some (u, encXP 0x22 pb pa pd)
  | .pnot u pd pa => some (u, encXP 0x23 0 pa pd)
  | .xmov u dc d s => some (u, encXY 0x24 (0#9 ++ u.code ++ dc.code ++ s ++ d))
  | .fadd u t rm d s1 s2 => some (u, encXR 0x25 false rm.code t s2 s1 d)
  | .fsub u t rm d s1 s2 => some (u, encXR 0x26 false rm.code t s2 s1 d)
  | .fmul u t rm d s1 s2 => some (u, encXR 0x27 false rm.code t s2 s1 d)
  | .fma u t rm d s1 s2 => some (u, encXR 0x28 false rm.code t s2 s1 d)
  | .fmin u t d s1 s2 => some (u, encXR 0x29 false 0 t s2 s1 d)
  | .fmax u t d s1 s2 => some (u, encXR 0x2A false 0 t s2 s1 d)
  | .fcmp u c t pd s1 s2 => some (u, encXC 0x2B c t s2 s1 pd)
  | .fcvt u td ts rm sat d s1 => some (u, encXY 0x2C (ofBool1 sat ++ rm.code ++ ts.code ++ td.code ++ s1 ++ d))
  | .fsgn u t m d s1 s2 => some (u, encXR 0x2D false m.code t s2 s1 d)
  | .frcp u t rm d s1 => some (u, encXR 0x2E false rm.code t 0 s1 d)
  | .frsq u t rm d s1 => some (u, encXR 0x2F false rm.code t 0 s1 d)
  | _ => none

def encA (opc : Nat) (ops : BitVec 27) : BitVec 40 := ops ++ (BitVec.ofNat 7 opc ++ 0#6)

def encodeA : Instr → Option (BitVec 40)
  | .aadd d s1 s2 => some (encA 1 (0#12 ++ s2 ++ s1 ++ d))
  | .aaddi d s1 imm => some (encA 2 (imm ++ s1 ++ d))
  | .asub d s1 s2 => some (encA 3 (0#12 ++ s2 ++ s1 ++ d))
  | .aidx d s1 s2 sh => some (encA 4 (0#9 ++ sh ++ s2 ++ s1 ++ d))
  | .amov d s => some (encA 5 (0#17 ++ s ++ d))
  | .amovi d imm => some (encA 6 (imm ++ d))
  | .acmp c pd s1 s2 => some (encA 7 (0#9 ++ c.code ++ s2 ++ s1 ++ 0#1 ++ pd))
  | .amod d s1 s2 s3 => some (encA 8 (0#7 ++ s3 ++ s2 ++ s1 ++ d))
  | _ => none

def encV (opc : Nat) (ops : BitVec 42) : BitVec 56 := ops ++ (BitVec.ofNat 8 opc ++ 0#6)
def encVR (opc : Nat) (fn : BitVec 7) (sat : Bool) (rm : BitVec 2) (t : BitVec 5) (s2 s1 d : VSpec) : BitVec 56 :=
  encV opc (fn ++ ofBool1 sat ++ rm ++ t ++ s2 ++ s1 ++ d)
def encVQ (opc : Nat) (t : Ty) (s3 s2 s1 d : VSpec) : BitVec 56 :=
  encV opc (0#1 ++ t.code ++ s3 ++ s2 ++ s1 ++ d)

def encodeV : Instr → Option (BitVec 56)
  | .vadd t rm sat d s1 s2 => some (encVR 0x01 0 sat rm.code t.code s2 s1 d)
  | .vsub t rm sat d s1 s2 => some (encVR 0x02 0 sat rm.code t.code s2 s1 d)
  | .vmul t rm sat d s1 s2 => some (encVR 0x03 0 sat rm.code t.code s2 s1 d)
  | .vfma t rm sat d s1 s2 => some (encVR 0x04 0 sat rm.code t.code s2 s1 d)
  | .vmin t d s1 s2 => some (encVR 0x05 0 false 0 t.code s2 s1 d)
  | .vmax t d s1 s2 => some (encVR 0x06 0 false 0 t.code s2 s1 d)
  | .vabs t sat d s1 => some (encVR 0x07 0 sat 0 t.code 0 s1 d)
  | .vneg t sat d s1 => some (encVR 0x08 0 sat 0 t.code 0 s1 d)
  | .vand t d s1 s2 => some (encVR 0x09 0 false 0 t.code s2 s1 d)
  | .vor t d s1 s2 => some (encVR 0x0A 0 false 0 t.code s2 s1 d)
  | .vxor t d s1 s2 => some (encVR 0x0B 0 false 0 t.code s2 s1 d)
  | .vshl t d s1 s2 => some (encVR 0x0C 0 false 0 t.code s2 s1 d)
  | .vshr t d s1 s2 => some (encVR 0x0D 0 false 0 t.code s2 s1 d)
  | .vcmp c t d s1 s2 => some (encVR 0x0E (0#4 ++ c.code) false 0 t.code s2 s1 d)
  | .vsel t d s1 s2 s3 => some (encVQ 0x0F t s3 s2 s1 d)
  | .vcvt td ts part rm sat d s1 s2 => some (encVR 0x10 (part ++ ts.code) sat rm.code td.code s2 s1 d)
  | .vpack t part rm sat d s1 s2 => some (encVR 0x11 (0#1 ++ part) sat rm.code t.code s2 s1 d)
  | .vunpack t part d s1 s2 => some (encVR 0x12 (0#1 ++ part) false 0 t.code s2 s1 d)
  | .vscale b sb rm sat d s1 s2 => some (encVR 0x13 (sb ++ (if b then 2#2 else 1#2)) sat rm.code Ty.f32.code s2 s1 d)
  | .vbcast t k d s1 => some (encVR 0x14 k false 0 t.code 0 s1 d)
  | .vperm t d s1 s2 => some (encVR 0x15 0 false 0 t.code s2 s1 d)
  | .vshuf pat t d s1 s2 => some (encVR 0x16 pat.code false 0 t.code s2 s1 d)
  | .vrot t k d s1 => some (encVR 0x17 k false 0 t.code 0 s1 d)
  | .vlane t k d s1 => some (encVR 0x18 k false 0 t.code 0 s1 d)
  | .vins t k d s1 => some (encVR 0x19 k false 0 t.code 0 s1 d)
  | .vext t k d s1 s2 => some (encVR 0x1A k false 0 t.code s2 s1 d)
  | .vscan op exc seg t rm sat d s1 s2 =>
    some (encVR 0x1B (0#2 ++ ofBool1 seg ++ ofBool1 exc ++ op.code) sat rm.code t.code s2 s1 d)
  | .vred op t rm sat d s1 s2 => some (encVR 0x1C (0#4 ++ op.code) sat rm.code t.code s2 s1 d)
  | .vpart t d s1 s2 s3 => some (encVQ 0x1D t s3 s2 s1 d)
  | .vexp2 t d s1 => some (encVR 0x1E 0 false 0 t.code 0 s1 d)
  | .vlog2 t d s1 => some (encVR 0x1F 0 false 0 t.code 0 s1 d)
  | .vrcp t rm d s1 => some (encVR 0x20 0 false rm.code t.code 0 s1 d)
  | .vrsqrt t rm d s1 => some (encVR 0x21 0 false rm.code t.code 0 s1 d)
  | .vtanh t d s1 => some (encVR 0x22 0 false 0 t.code 0 s1 d)
  | .vmov d s1 => some (encVR 0x23 0 false 0 0 0 s1 d)
  | .vmovi w imm d => some (encV 0x24 (ofBool1 w ++ imm ++ d))
  | _ => none

def encLS (opc : Nat) (ops : BitVec 34) : BitVec 48 := ops ++ (BitVec.ofNat 8 opc ++ 0#6)
def encLSS (opc : Nat) (imm : BitVec 17) (t : Ty) (b d : Reg) (f : File3) : BitVec 48 :=
  encLS opc (imm ++ t.code ++ b ++ d ++ f.code)
def encLSV (opc : Nat) (imm : BitVec 20) (b : Reg) (v : VSpec) : BitVec 48 := encLS opc (imm ++ b ++ v)
def encLSG (opc : Nat) (t : Ty) (scl : BitVec 2) (ix : VSpec) (b : Reg) (v : VSpec) : BitVec 48 :=
  encLS opc (0#4 ++ t.code ++ scl ++ ix ++ b ++ v)
def encLSP (opc : Nat) (gran : BitVec 8) (layer : BitVec 3) (reg : BitVec 9) (f : File5) : BitVec 48 :=
  encLS opc (0#11 ++ gran ++ layer ++ reg ++ f.code)

def encodeLS : Instr → Option (BitVec 48)
  | .ld f t d b imm => some (encLSS 0x01 imm t b d f)
  | .st f t d b imm => some (encLSS 0x02 imm t b d f)
  | .vld v b imm => some (encLSV 0x03 imm b v)
  | .vst v b imm => some (encLSV 0x04 imm b v)
  | .vgath t scl ix b v => some (encLSG 0x05 t scl ix b v)
  | .vscat t scl ix b v => some (encLSG 0x06 t scl ix b v)
  | .gld f t d b imm => some (encLSS 0x07 imm t b d f)
  | .gst f t d b imm => some (encLSS 0x08 imm t b d f)
  | .gvld v b imm => some (encLSV 0x09 imm b v)
  | .gvst v b imm => some (encLSV 0x0A imm b v)
  | .gpf b imm => some (encLSV 0x0B imm b 0)
  | .atom op sco fe sz f d b s c =>
    some (encLS 0x0C (0#3 ++ sz ++ ofBool1 fe ++ sco.code ++ op.code ++ c ++ s ++ b ++ d ++ f.code))
  | .drain k => some (encLS 0x0D (0#31 ++ k.code))
  | .tclr f first last => some (encLS 0x0E (0#13 ++ last ++ first ++ f.code))
  | .tctl => some (encLS 0x0F 0)
  | .tget d (.reg f r) => some (encLS 0x10 (0#17 ++ d ++ r ++ f.code))
  | .tget d .ctaint => some (encLS 0x10 (0#17 ++ d ++ 0#9 ++ 5#3))
  | .spt f reg layer gran => some (encLSP 0x11 gran layer reg f)
  | .ldt f reg layer gran => some (encLSP 0x12 gran layer reg f)
  | _ => none

def encCC (opc : Nat) (ops : BitVec 34) : BitVec 48 := ops ++ (BitVec.ofNat 8 opc ++ 0#6)

def encodeCC : Instr → Option (BitVec 48)
  | .cmma acc aop bop shp mask sig => some (encCC 0x01 (sig ++ 0#1 ++ mask ++ shp ++ acc ++ bop ++ aop))
  | .cmmz acc aop bop shp mask sig => some (encCC 0x02 (sig ++ 0#1 ++ mask ++ shp ++ acc ++ bop ++ aop))
  | .accrd t acc row cg v => some (encCC 0x03 (0#7 ++ t.code ++ cg ++ row ++ acc ++ v))
  | .accwr t acc row cg v => some (encCC 0x04 (0#7 ++ t.code ++ cg ++ row ++ acc ++ v))
  | .copy r sig => some (encCC 0x05 (sig ++ 0#23 ++ r))
  | .msend r cls sig => some (encCC 0x06 (sig ++ 0#21 ++ cls ++ r))
  | .putfImm adr imm sig => some (encCC 0x07 (sig ++ 0#1 ++ imm ++ 1#1 ++ 0#5 ++ adr))
  | .putfReg adr val sig => some (encCC 0x07 (sig ++ 0#1 ++ 0#16 ++ 0#1 ++ val ++ adr))
  | .nmc r fe fd sig => some (encCC 0x08 (sig ++ 0#17 ++ ofBool1 fe ++ fd ++ r))
  | .bdecl buf base len nl => some (encCC 0x09 (0#15 ++ nl ++ len ++ base ++ buf))
  | .bstate full buf => some (encCC 0x0A (0#27 ++ ofBool1 full ++ buf))
  | .bfree buf => some (encCC 0x0B (0#28 ++ buf))
  | .semi sem ceil count => some (encCC 0x0C (count ++ ceil ++ sem))
  | .sems sem n rmt tgt => some (encCC 0x0D (0#7 ++ tgt ++ ofBool1 rmt ++ n ++ sem))
  | .semw sem n => some (encCC 0x0E (0#13 ++ n ++ sem))
  | .bar kind bid => some (encCC 0x0F (0#28 ++ kind.code ++ bid))
  | .pleave cls dur => some (encCC 0x10 (0#14 ++ dur ++ cls))
  | .wlaunch r sig => some (encCC 0x11 (sig ++ 0#23 ++ r))
  | .crr x crn => some (encCC 0x12 (0#17 ++ crn ++ x))
  | .crw x crn => some (encCC 0x13 (0#17 ++ crn ++ x))
  | .sys code => some (encCC 0x14 (0#18 ++ code))
  | .rfe => some (encCC 0x15 0)
  | .tlbi kind adr => some (encCC 0x16 (0#26 ++ kind ++ adr))
  | .dbg code => some (encCC 0x17 (0#18 ++ code))
  | _ => none

/-- The words of a well-formed slot instruction: the bundle that holds it, unguarded, in the first slot that takes
it, and no-operations in every other (R112, R114, R115). -/
def encode (i : Instr) : Option Bundle :=
  let z : Bundle := ⟨0, 0, 0, 0, 0, 0, 0, 0, 0, 0⟩
  match i with
  | .bundleIssue _ b => some b
  | _ =>
    match encodeCtl i with
    | some w => some { z with bra := w }
    | none =>
      match encodeXY i with
      | some (.x, w) => some { z with xs := w }
      | some (.y, w) => some { z with ys := w }
      | none =>
        match encodeA i with
        | some w => some { z with as := w }
        | none =>
          match encodeV i with
          | some w => some { z with va := w }
          | none =>
            match encodeLS i with
            | some w => some { z with ls := w }
            | none =>
              match encodeCC i with
              | some w => some { z with cc := w }
              | none => none

end Sys2Proof
end

