-- ==== Sys2Proof/Machine/FMap.lean ====
section
/-! DEFINITION. Sparse data by key: a list of keys and values in one canonical form, keys strictly rising and no entry
equal to what an unlisted key reads as. -/

namespace Sys2Proof.Machine

/-- Key and value pairs; the value of an unlisted key is a parameter of each operation. -/
abbrev FMap (α : Type) := List (Nat × α)

/-- The value at a key. -/
def fget {α : Type} (d : α) : FMap α → Nat → α
  | [], _ => d
  | (a, v) :: l, k => if a = k then v else fget d l k

/-- The map without a key. -/
def fdel {α : Type} (k : Nat) : FMap α → FMap α
  | [] => []
  | (a, v) :: l => if a = k then fdel k l else (a, v) :: fdel k l

/-- An entry put before the first greater key. -/
def fput {α : Type} (k : Nat) (v : α) : FMap α → FMap α
  | [] => [(k, v)]
  | (a, w) :: l => if k < a then (k, v) :: (a, w) :: l else (a, w) :: fput k v l

/-- The map with a key's value replaced; writing the unlisted value removes the entry. -/
def fset {α : Type} [DecidableEq α] (d : α) (m : FMap α) (k : Nat) (v : α) : FMap α :=
  if v = d then fdel k m else fput k v (fdel k m)

/-- Keys strictly above a bound and strictly rising, no entry at the unlisted value. -/
def fwfFrom {α : Type} [DecidableEq α] (d : α) : Option Nat → FMap α → Bool
  | _, [] => true
  | lo, (a, v) :: l => (match lo with | none => true | some b => decide (b < a)) && decide (v ≠ d) && fwfFrom d (some a) l

/-- The canonical form. -/
def fwf {α : Type} [DecidableEq α] (d : α) (m : FMap α) : Bool := fwfFrom d none m

end Sys2Proof.Machine
end

