-- ==== Sys2Proof/Machine/FrameState.lean ====
section
/-! DEFINITION. The state of one state frame of a cube: registers, taint, control registers, results in flight, queues
and operations of the task that holds it. -/

namespace Sys2Proof.Machine

/-- The register files (R14, R116); `v` is keyed by physical register and reads 0 where unlisted. -/
structure Regs where
  x : Vector Word 32
  y : Vector Word 32
  a : Vector Word 32
  /-- bit i is `pi`; bit 0 is not read: `p0` reads true (R163) -/
  p : BitVec 16
  v : FMap VReg
deriving DecidableEq, Repr

/-- Taint sets of the registers and `CTAINT` (R90, R93). -/
structure Taints where
  x : Vector Taint 32
  y : Vector Taint 32
  a : Vector Taint 32
  p : Vector Taint 16
  v : FMap Taint
  ct : Taint
  /-- outstanding tracked loads: operation number and tag, 31 for S (R89) -/
  out : List (Nat × Nat)
deriving DecidableEq, Repr

/-- A level of the sequencer (R145). -/
structure SeqLevel where
  active : Bool
  start  : Word
  remain : Nat
  first  : Bool
  pairs  : List (Reg × Word)
deriving DecidableEq, Repr

/-- User-level control registers of a frame (R10, R23, R24, R60, R144, R222, R232, R248, R314). -/
structure Ctl where
  fmt    : BitVec 16
  fid    : BitVec 6
  fstat  : BitVec 5
  cstat  : BitVec 2
  wsize  : Nat
  woff   : Nat
  wstep  : BitVec 2
  form   : BitVec 32
  taskid : Word
  tile   : Word
  layers : BitVec 8
deriving DecidableEq, Repr

/-- Privileged control registers of a frame (R312, R313, R316, R317). -/
structure Priv where
  lvl     : Bool
  disp    : BitVec 2
  tcause  : Word
  tinfo   : Vector Word 4
  landrec : Word
  ctxptr  : Word
  ctxva   : Word
deriving DecidableEq, Repr

/-- Buffer states in the order of R74. -/
inductive BufSt where
  | empty | filling | full | draining | lost
deriving DecidableEq, Repr

/-- A declared buffer (R73); `gen` tells one declaration of an index from another (R213). -/
structure Buf where
  base : BitVec 32
  len  : Nat
  nl   : Nat
  st   : BufSt
  fill : Nat
  rd   : Nat
  gen  : Nat
deriving DecidableEq, Repr

/-- Synchronisation objects of a task (R102 to R104, R220). -/
structure Sync where
  df      : BitVec 8
  semc    : Vector (BitVec 16) 32
  semx    : Vector (BitVec 16) 32
  /-- the refusal area: the `TINFO(2)` and `TINFO(3)` words of cause 8 (R104, R330) -/
  refusal : Option (Word × Word)
  /-- next phase of gang barriers 0 to 15 and span barriers 16 to 31 -/
  phase   : Vector Nat 32
  /-- the phase taken by a `bar` that stalls its bundle (R220) -/
  stalled : Vector (Option Nat) 32
deriving DecidableEq, Repr

/-- Which bundle and slot issued an operation (R317, R326). -/
structure OpInfo where
  pc    : Word
  bits  : BitVec 56
  slot  : Nat
  guard : BitVec 4
deriving DecidableEq, Repr

/-- Files of landing entries (R322): 0 X, 1 Y, 2 A, 3 V, 4 predicate, 5 FMT, 6 FID. -/
abbrev FileNo := Nat

/-- A fixed-latency result in flight (R121, R321, R322). -/
structure Landing where
  file  : FileNo
  reg   : Nat
  val   : VReg
  taint : Taint
  flags : BitVec 5
  idz   : Bool
  inc   : Nat
  arm   : Bool
  /-- the bundle number at whose boundary it lands -/
  due   : Nat
  /-- poisoned line of a scratchpad load, to be taken at its landing bundle (R78) -/
  poison : Option (Nat × OpInfo)
deriving DecidableEq, Repr

/-- A variable-latency result that is pending for a register (R122). -/
structure VarRes where
  id    : Nat
  info  : OpInfo
  file  : FileNo
  reg   : Nat
  /-- value, flags, and the poisoned line it came from -/
  val   : Option (VReg × BitVec 5 × Option Nat)
  /-- set once a branch armed it or the operation carries a tag -/
  tag   : Option Nat
deriving DecidableEq, Repr

/-- A trap's cause and information (R316, R317). -/
structure TrapInfo where
  cause : Nat
  slot  : Nat
  fatal : Bool
  after : Bool
  pc0   : Word
  bits  : BitVec 56
  t2    : Word
  t3    : Word
deriving DecidableEq, Repr

/-- A consumption of poison or a layer withdrawal that is taken later (R78, R388). -/
structure DueTrap where
  info : TrapInfo
  /-- a register whose first read takes it -/
  reg  : Option (FileNo × Nat)
  /-- a signal whose wait takes it; 63 none -/
  sig  : Nat
deriving DecidableEq, Repr

/-- Stages of a global access (R79). -/
inductive Stage where
  | queued | sent | accepted | performed
deriving DecidableEq, Repr

/-- One line or word of an access. -/
structure Line where
  va   : Word
  n    : Nat
  pa   : Option Nat
  st   : Stage
  val  : Nat
  deps : List Nat
  bad  : Bool
deriving DecidableEq, Repr

/-- Operations of the load/store queue (R125). -/
inductive LsOp where
  | gld (f : FileNo) (t : Ty) (d : Nat)
  | gst
  | gvld (d : Nat)
  | gvst
  | gpf
  | atom (op : AtomOp) (sco : Scope) (fe : Bool) (sz : Nat) (f : FileNo) (d : Nat) (c s : Word)
  | drain (k : DrainKind)
deriving DecidableEq, Repr

/-- An entry of the load/store queue, or an access in flight. -/
structure LsEnt where
  id    : Nat
  info  : OpInfo
  op    : LsOp
  wait  : Taint
  tag   : Option Nat
  ea    : Word
  data  : VReg
  lines : List Line
deriving DecidableEq, Repr

/-- A counted buffer: index and declaration (R74, R213). -/
abbrev BufRef := Nat × Nat

/-- Operations of the cube queue (R125). -/
inductive CubeOp where
  | mma (zero : Bool) (acc : Nat) (aop bop shp : Word) (mask : BitVec 8) (sig : BitVec 6)
  | rd (t : Ty) (acc row cg d : Nat)
  | wr (t : Ty) (acc row cg : Nat) (data : VReg)
deriving DecidableEq, Repr

/-- An entry of the cube queue, or a started operation with the words that stores overwrote under it (R99). -/
structure CubeEnt where
  id   : Nat
  info : OpInfo
  op   : CubeOp
  fmt  : BitVec 16
  fid  : BitVec 6
  /-- accumulation format of the operation's slot at its issue: 1 A40I, 2 A40F, 3 A80F (R248) -/
  form : Nat
  wait : Taint
  bufs : List BufRef
  /-- first step to perform (R244) -/
  c0   : Nat
  started : Option Nat
  /-- words of faces that later stores replaced: address, old value -/
  olds : List (Nat × BitVec 32)
  /-- the operation must not land: a parked group (R388), or poison (R78) -/
  barred : Option Nat
  /-- the failing address of an operand, kept for the resume record (R244, R327) -/
  failVa : Word
  /-- the lines of global operands, as far as a started operation has read them (R243) -/
  glob : List Line
deriving DecidableEq, Repr

/-- How far a started copy has come: source words it has read, by virtual word address, with their poison;
destination words it has written; destination lines that it poisons or cannot reach (R85, R255). -/
structure CopyProg where
  got  : List (Nat × Nat × Bool)
  done : List Nat
  bad  : List Nat
deriving DecidableEq, Repr

/-- How far a near-memory command has come: its 4-byte words read, with their X and Y values; the flags met; lines found bad
with their addresses, 2i for line i of X and 2i + 1 for Y; whether its range leaves the package; words computed and not yet
written, with address and bytes; writes that it read from a merge buffer (R84, R85, R100, R266 to R268). -/
structure NmProg where
  done : List (Nat × Nat × Nat)
  fl   : BitVec 5
  bad  : List (Nat × Nat)
  away : Bool
  out  : List (Nat × Nat × List (BitVec 8))
  deps : List Nat
deriving DecidableEq, Repr

def CopyProg.zero : CopyProg := ⟨[], [], []⟩
def NmProg.zero : NmProg := ⟨[], 0, [], false, [], []⟩

/-- Operations of the copy queue (R125). -/
inductive CopyOp where
  | copy (rc : List Word)
  | msend (rc : List Word) (cls : BitVec 2) (msgid : Nat)
  | putf (adr val : Word)
  | nmc (rc : List Word) (fe : Bool)
  | wlaunch (rc : List Word)
deriving DecidableEq, Repr

/-- An entry of the copy queue, or a started operation. -/
structure CopyEnt where
  id   : Nat
  info : OpInfo
  op   : CopyOp
  sig  : BitVec 6
  /-- the A operand value as read at issue (R326) -/
  recA : Word
  wait : Taint
  tag  : Option Nat
  srcB : List BufRef
  dstB : List BufRef
  /-- barrier phase taken at issue: index 0 to 31 and phase (R220) -/
  bar  : Option (Nat × Nat)
  started : Bool
  line : Option Line
  olds : List (Nat × BitVec 32)
  prog : CopyProg
  nm   : NmProg
  /-- the longest unscheduled prefix of a message, as `UNSCHEDMAX` stood at its issue (R367) -/
  pre  : Nat
deriving DecidableEq, Repr

/-- Operations of the sync queue (R125). -/
inductive SyncOp where
  | semi (sem : BitVec 5) (ceil count : Nat)
  | sems (sem : BitVec 5) (n : Nat) (tgt : Option Word)
  | pleave (cls : Nat) (dur : Nat)
deriving DecidableEq, Repr

structure SyncEnt where
  id   : Nat
  info : OpInfo
  op   : SyncOp
deriving DecidableEq, Repr

/-- How a message to another package stands there: whether its header has been answered, the prefix it carried, and the
tokens granted with their lines not yet sent (R259, R363). -/
structure FarMsg where
  accepted : Bool
  head   : List MsgLine
  grants : List (Nat × List Nat)
  /-- lines not yet sent -/
  left   : List Nat
  /-- lines sent, kept until the message ends, since one that is lost is sent again (R369) -/
  kept   : List (Nat × MsgLine)
deriving DecidableEq, Repr

/-- An active message at its sender (R257 to R263, R328). -/
structure MsgAct where
  msgid : Nat
  id    : Nat
  info  : OpInfo
  rc    : List Word
  recA  : BitVec 32
  sig   : BitVec 6
  cls   : BitVec 2
  wait  : Taint
  srcB  : List BufRef
  /-- destination global address of a DKIND 0 message once translated -/
  pa    : Option Nat
  /-- header accepted: receiving cube and request number -/
  acc   : Option (Nat × Nat)
  /-- bytes sent, and bytes performed at the destination -/
  sent  : Nat
  perf  : Nat
  /-- 0 complete, 1 refused, 2 orphaned, once ended -/
  ended : Option Nat
  closed : Bool
  /-- words of faces that later stores replaced (R99) -/
  olds  : List (Nat × BitVec 32)
  pre   : Nat
  far   : Option FarMsg
deriving DecidableEq, Repr

/-- The task that holds a frame, with its reservations (R25, R38, R69, R335). -/
structure Task where
  part   : Nat
  launch : Nat
  gang   : Nat
  rank   : Nat
  asid   : BitVec 16
  half   : Nat
  accB   : Nat
  accN   : Nat
  /-- bytes per layer reserved in W, N, E -/
  size   : Vector Nat 3
  /-- physical face offset of the reservation, keyed 4 × layer + face -/
  base   : FMap Nat
  ctxIdx : Nat
deriving DecidableEq, Repr

/-- What the debugger does with a frame (R401). -/
inductive DbgRun where
  | run | halted | step (n : Nat)
deriving DecidableEq, Repr

/-- The debugger keeps the frame from issuing (R401). -/
def DbgRun.held : DbgRun → Bool
  | .halted => true
  | .step n => decide (n = 0)
  | .run => false

/-- Issue state of a frame. -/
structure Issue where
  pc     : Word
  /-- number of the bundle at the PC, counted in issued bundles (R5) -/
  nb     : Nat
  /-- the task's issue order: an operation's number is 16 times this plus its slot -/
  nid    : Nat
  /-- `halt` has issued (R156) -/
  halted : Bool
  /-- stopped by a handler fault or a failed gang: no member runs again (R34, R310) -/
  stopped : Bool
  /-- the bundle whose `yield` has been honoured and has not yet issued (R154) -/
  yielded : Option Word
  /-- bundles issued since a pre-emption request, and ignored DP bits (R31, R325) -/
  preempt : Option (Nat × Nat)
  /-- bundles issued since a time-slice switch fell due with the other resident ready (R28) -/
  slice  : Option Nat
  /-- the frame's state stands in its context block: a forced switch or a pre-emption (R28, R324) -/
  swapped : Bool
  dbg    : DbgRun
  /-- the branching bundle that reached the PC, 0 in sequence (R317 cause 3) -/
  from_  : Word
  /-- a `bar` of this bundle has passed its checks and arrived (R138) -/
  barred : Bool
  /-- an asynchronous interrupt waits for a drain point (R30) -/
  irq    : Bool
  /-- the PC was reached in sequence (R109) -/
  seq    : Bool
  /-- `halt` had issued when a trap of a later condition was taken (R156, R204) -/
  haltedU : Bool
  /-- flags landed at the boundary of the bundle at the PC: `FSTAT` bits, then `IDZ` (R61, R144) -/
  lflags : BitVec 6
  /-- the code of a `dbg` at which the task stands, reported to the debugger (R276) -/
  dbgCode : Option (BitVec 16)
deriving DecidableEq, Repr

/-- Operations in flight and conditions due. -/
structure Flight where
  land  : List Landing
  var   : List VarRes
  due   : List DueTrap
  /-- traps found after issue (R204, R244, R255, R361) -/
  traps : List TrapInfo
  ls    : List LsEnt
  fly   : List LsEnt
  cubeQ : List CubeEnt
  cubeA : List CubeEnt
  copyQ : List CopyEnt
  copyA : List CopyEnt
  syncQ : List SyncEnt
  msgs  : List MsgAct
  resume : Option CubeEnt
  /-- withdrawn LS entries, saved in issue order (R204) -/
  wdLs  : List LsEnt
  /-- conditions of the interrupted level-U context, in force again after `rfe` (R320) -/
  heldDue : List DueTrap
  heldTraps : List TrapInfo
  /-- poisoned scratchpad loads of that context, in flight at its save, `due` counted from the saved bundle (R78) -/
  heldLand : List Landing
deriving DecidableEq, Repr

/-- One state frame (R27). -/
structure Frame where
  task  : Option Task
  regs  : Regs
  taint : Taints
  seq   : Vector SeqLevel 6
  ctl   : Ctl
  priv  : Priv
  sync  : Sync
  bufs  : Vector (Option Buf) 64
  issue : Issue
  fl    : Flight
  /-- granted leave: class and time of expiry (R269, R384) -/
  leave : Option (Nat × Nat)
  /-- face banks retired for this frame, keyed layer × 256 + face × 64 + bank (R36) -/
  banks : List Nat
deriving DecidableEq, Repr

end Sys2Proof.Machine
end

