-- ==== Sys2Proof/Machine/CubeState.lean ====
section
/-! DEFINITION. The state of one cube: faces, spill area, accumulators, dictionary store, per-cube control registers,
translation caches, Yarrow, Campion, layer power and failures. -/

namespace Sys2Proof.Machine

/-- A dictionary half (R111). -/
structure DictHalf where
  /-- partition and launch identifier of the record that uses it -/
  owner : Option (Nat × Nat)
  dsize : Nat
  loaded : Bool
  words : FMap (BitVec 384)
deriving DecidableEq, Repr

/-- A TLB entry (R358): its tags, page and permissions. -/
structure TlbEnt where
  part : Nat
  asid : BitVec 16
  /-- page number and log2 of the page size -/
  page : Nat
  lg   : Nat
  /-- global physical address of the page, and its permissions R, W, X -/
  pa   : Nat
  r : Bool
  w : Bool
  x : Bool
deriving DecidableEq, Repr

/-- The TLBs of a base die: a first level for each source, and the last level (R358). -/
structure Tlb where
  fetch : List TlbEnt
  ls    : List TlbEnt
  copy  : List TlbEnt
  msg   : List TlbEnt
  cube  : List TlbEnt
  nm    : List TlbEnt
  last  : List TlbEnt
deriving DecidableEq, Repr

/-- A request at Yarrow (R258, R259, R368, R369). One closed at its sender's save waits for the resume request (R262). -/
structure YReq where
  num    : Nat
  srcPkg : Nat
  srcCube : Nat
  /-- the message: its task and number -/
  key    : MsgKey
  cls    : BitVec 2
  /-- receiving frame and buffer with its declaration, none for a global destination -/
  recv   : Option (Nat × BufRef)
  /-- the receiving task: partition, launch, gang, rank -/
  rtask  : Option (Nat × Nat × Nat × Nat)
  rsig   : BitVec 6
  dst    : Nat
  len    : Nat
  /-- lines (64-byte units of the message) not yet written -/
  owed   : List Nat
  /-- lines neither granted nor sent as prefix -/
  ungranted : List Nat
  /-- lines of the prefix of a message of this package, yet to be written -/
  pref   : List Nat
  /-- 4-byte words that have moved ahead of the rest of their line, with their poison (R85) -/
  moved  : List (Nat × Bool)
  /-- lines returned by an expired token, awaiting a re-request -/
  returned  : List Nat
  accepted : Nat
  lastGrant : Nat
  /-- the orphan timer: cycles counted, and since when it runs (R369) -/
  idle   : Nat
  since  : Option Nat
  /-- `ORPHTO` as it stood at acceptance (R367) -/
  orphto : Nat
  closed : Bool
deriving DecidableEq, Repr

/-- A pull token (R259, R369). -/
structure Tok where
  num   : Nat
  req   : Nat
  lines : List Nat
  granted : Nat
  /-- its lifetime, as `TOKEXP` stood at its grant (R367) -/
  life    : Nat
  expired : Bool
deriving DecidableEq, Repr

/-- Power states of a layer (R376). -/
inductive LPower where
  | active | gated | retention | parked | withdrawn
deriving DecidableEq, Repr

structure LayerPow where
  st    : LPower
  since : Nat
  /-- fidelity modes the rails carry (R375) -/
  modes : BitVec 6
  /-- the band rails reach their target at this time -/
  ready : Nat
  /-- a cube operation has asked a layer in RETENTION to wake (R376) -/
  waking : Bool
deriving DecidableEq, Repr

/-- Campion's limits (R377). -/
structure Limits where
  icmax : Nat
  tthr  : Nat
  ttrip : Nat
  lcap  : Nat
deriving DecidableEq, Repr

/-- A pending leave request (R269, R384). -/
structure LeaveReq where
  frame : Nat
  cls   : Nat
  dur   : Nat
  at_   : Nat
deriving DecidableEq, Repr

/-- Campion (R377 to R385). -/
structure Campion where
  lim   : Limits
  s     : Nat
  calm  : Nat
  changes : Nat
  cause : Nat
  lrep  : Nat
  /-- hottest sensor, in units of 0.25 °C (R387) -/
  temp  : Nat
  amps  : Nat
  /-- time of a thermal trip (R383) -/
  trip  : Option Nat
  /-- envelope of R385, in hundredths of a watt -/
  env   : Nat
  /-- layers on which ballast runs (R385) -/
  ballast : BitVec 8
  reqs  : List LeaveReq
deriving DecidableEq, Repr

/-- Per-cube control registers (R63, R237, R313, R315, R367, R385). -/
structure CubeCtl where
  fmterr : BitVec 32
  bec    : Vector (BitVec 32) 32
  tvec   : Word
  dplimit : BitVec 32
  unsched : Nat
  grantq  : Nat
  grantmax : Nat
  tokexp  : Nat
  orphto  : Nat
  floor   : Nat
  ramp    : Nat
deriving DecidableEq, Repr

/-- A monitor (R387). -/
structure Monitor where
  src  : Nat
  sel  : Nat
  base : Nat
  shift : Nat
  min  : Nat
  max  : Nat
  count : Nat
  bins : Vector Nat 16
deriving DecidableEq, Repr

/-- Errors of a line or a bank since boot: uncorrectable ones, and the times of corrected ones (R389). -/
structure ErrCount where
  bad   : Nat
  times : List Nat
deriving DecidableEq, Repr

/-- What storage has worn since boot (R389). -/
structure Wear where
  /-- of lines of global memory, by local line number, and of face banks, keyed as `banks` -/
  lines : FMap ErrCount
  banks : FMap ErrCount
  /-- spare lines used, per bank of shared memory -/
  spares : FMap Nat
  /-- of vertical buses, by layer: spare wires used, and ECC retries with their times -/
  wires : FMap Nat
  retries : FMap (List (Nat × Nat))
deriving DecidableEq, Repr

/-- Layer map, failures and ports of a cube (R9, R36, R364, R366, R388, R389). -/
structure Fabric where
  /-- physical layer of each logical layer brought into service -/
  phys  : Vector (Option Nat) 8
  spare : Option Nat
  insvc : BitVec 8
  /-- layers whose withdrawal has not yet taken effect everywhere -/
  failing : BitVec 8
  /-- of those, the layers whose vertical bus fails -/
  busBad : BitVec 8
  /-- banks retired, keyed layer × 256 + face × 64 + bank -/
  banks : List Nat
  /-- failed phases per column group, keyed 16 × layer + group -/
  phases : FMap Nat
  /-- the band rails' trimmed voltages in units of 5 mV, keyed 64 × layer + 4 × group + band -/
  trim  : FMap Nat
  /-- time of the last trim (R374) -/
  trimAt : Nat
  /-- how each station is divided into ports (R364) -/
  stations : Vector StationMode 4
  pmap  : Vector (BitVec 4) 8
  deadPorts : List Nat
  coreOff : Bool
  /-- physical layers withdrawn at run time: they pass no later self-test (R390) -/
  lost : BitVec 9
  /-- HBM stacks in service (R392) -/
  hbm : BitVec 2
  wear : Wear
deriving DecidableEq, Repr

/-- What stays with the cube for a task whose frame was released (R35, R248, R320): the task, the forms of its
accumulator slots, and conditions not yet taken. -/
structure Parked where
  task  : Task
  form  : BitVec 32
  due   : List DueTrap
  traps : List TrapInfo
  land  : List Landing
  halted : Bool
  /-- the spill half and its shadow, which stay the task's own (R35, R212) -/
  spill : FMap Word
  shadow : FMap Taint
  /-- the bundle whose `yield` has been honoured (R154) -/
  yielded : Option Word
  /-- the privileged registers, which the task may read (R35, R312) -/
  priv  : Priv
  /-- the marks of its buffers' declarations, and its issue order (R213, R261) -/
  bufs  : Vector (Option Buf) 64
  nid   : Nat
  /-- the full phase numbers of its barriers, of which the block holds the low bits (R220, R330) -/
  phase : Vector Nat 32
deriving DecidableEq, Repr

structure Cube where
  frames : Vector Frame 2
  /-- the frame whose bundles the core issues -/
  running : Fin 2
  /-- time since which the running frame runs, and since which it stalls at a drain-point bundle (R28) -/
  runSince : Nat
  stallSince : Option Nat
  face   : FMap Byte
  poison : FMap Bool
  spill  : FMap Word
  shadow : FMap Taint
  acc    : FMap (BitVec 40)
  status : Vector (BitVec 16) 16
  dict   : Vector DictHalf 2
  ctl    : CubeCtl
  tlb    : Tlb
  reqs   : List YReq
  toks   : List Tok
  nextReq : Nat
  camp   : Campion
  pow    : Vector LayerPow 8
  fab    : Fabric
  mons   : Vector Monitor 8
  dbgAttached : Bool
  dbgEvents : Bool
  parked : List Parked
deriving DecidableEq, Repr

end Sys2Proof.Machine
end

