-- ==== Sys2Proof/Machine/HubState.lean ====
section
/-! DEFINITION. The state of the hub die and of Teasel: launch queues, windows, records, barriers, partitions, mailbox,
log, telemetry and module flash. -/

namespace Sys2Proof.Machine

/-- A non-negative rational in lowest use: virtual times are exact (R346). -/
structure Ratio where
  num : Nat
  den : Nat
deriving DecidableEq, Repr

/-- A launch queue with its window (R332, R333). -/
structure Queue where
  stage  : List Word
  result : Word
  en     : Bool
  level  : Nat
  weight : Nat
  v      : Ratio
  /-- launch identifiers in order of acceptance -/
  pend   : List Nat
  headAt : Nat
  aged   : Bool
deriving DecidableEq, Repr

/-- States of a gang of a record; one that waits holds its frames until its dictionary has been loaded (R111). -/
inductive GangSt where
  | waiting | running | preempted | done | cancelled
deriving DecidableEq, Repr

/-- A gang of a live record on this package. -/
structure Gang where
  idx    : Nat
  st     : GangSt
  /-- cube and frame of each rank -/
  places : List (Nat × Nat)
  ctxs   : List Nat
  doneR  : List Nat
  /-- pre-emption has been requested -/
  pre    : Bool
  admitted : Nat
  /-- it ends with error: CAUSE, TINFO(2), TASKID (R34, R342) -/
  err    : Option (Nat × Word × Word)
deriving DecidableEq, Repr

/-- A live launch record (R335, R341). -/
structure Rec where
  part  : Nat
  id    : Nat
  words : List Word
  /-- effective energy class (R344) -/
  ecls  : Nat
  /-- the package whose scheduler accepted it (R352) -/
  home  : Nat
  /-- the gangs that have been admitted here and have not completed; `next` is the first not yet admitted -/
  gangs : List Gang
  next  : Nat
  /-- gangs completed here, and gangs cancelled (R342, R343) -/
  doneN : Nat
  cancelled : Nat
  err   : Option (Nat × Word × Word)
  depFail : Bool
  /-- packages asked for a hold, packages whose hold has been given, and when the home chose the record (R352) -/
  asked : List Nat
  holds : List Nat
  chosen : Option Nat
  /-- the number of this choice among the home's, by which a late hold is told apart (R352) -/
  tries : Nat
  /-- span ranks of other packages whose gang has completed (R33) -/
  doneAt : List Nat
  /-- the level of the home's queue, of a record of another home (R352) -/
  lvl   : Nat
  /-- span ranks whose gang has stopped for a pre-emption, on this package or another (R32) -/
  stops : List Nat
  /-- members of other packages' gangs that have completed: span rank and rank (R219, R220) -/
  doneM : List (Nat × Nat)
deriving DecidableEq, Repr

/-- A hold given to a span, with the seats kept for it: cube, frame, reservations (R352). -/
structure Hold where
  part   : Nat
  launch : Nat
  seats  : List (Nat × Nat × Task)
deriving DecidableEq, Repr

/-- A barrier phase with its arrivals, one per member and operation (R106, R220). -/
structure Phase where
  part   : Nat
  launch : Nat
  gang   : Nat
  kind   : BarKind
  bid    : Nat
  phase  : Nat
  /-- members that took it and have not arrived, and members that arrived: span rank and rank -/
  taken  : List (Nat × Nat)
  came   : List (Nat × Nat)
  ended  : Bool
deriving DecidableEq, Repr

/-- A reservation (R350). -/
structure Reserve where
  part   : Nat
  launch : Nat
  gang   : Nat
  cubes  : List Nat
  opened : Nat
  /-- residents have been asked to leave (R350) -/
  mature : Bool
deriving DecidableEq, Repr

/-- A partition descriptor (R371). -/
structure Part where
  cubes  : BitVec 4
  fpid   : BitVec 12
  asidtab : Nat
  pintab : Nat
  queues : BitVec 64
  pmap   : Vector (BitVec 32) 4
  nextId : Nat
  /-- retained records: identifier and STATE (R341) -/
  retained : List (Nat × Nat)
deriving DecidableEq, Repr

/-- Another package of the fabric, as this one's requests meet it (R361). -/
structure Remote where
  pkg    : Nat
  fpid   : BitVec 12
  pintab : Nat
deriving DecidableEq, Repr

/-- An entry of a function's MSI-X table (R396). PRESUMED, assumption 106. -/
structure MsixVec where
  adr  : Word
  data : BitVec 32
  mask : Bool
deriving DecidableEq, Repr

structure Hub where
  queues : Vector Queue 64
  recs   : List Rec
  phases : List Phase
  resv   : List Reserve
  parts  : List Part
  /-- the holds given to spans, one of each partition's scheduler (R352) -/
  given  : List Hold
  remotes : List Remote
  /-- MSI-X vectors signalled, per function -/
  msix   : List (Nat × Nat)
  /-- what this package has sent to others: text of R363 requests and answers -/
  outbox : List RemoteReq
  /-- requests that wait at their cube for the port of their lane (R365, R366) -/
  held : List RemoteReq
  /-- ends of messages to other packages whose sender is saved: the message, code and bytes (R35, R261) -/
  ends : List (MsgKey × Nat × Nat)
  /-- MSI-X tables and pending bits, keyed 2,048 × function + vector (R396) -/
  vecs : FMap MsixVec
  mpend : FMap Bool
deriving DecidableEq, Repr

/-- A log entry (R399). -/
structure LogEnt where
  seq  : Nat
  time : Nat
  code : Nat
  cube : Nat
  payload : List Word
deriving DecidableEq, Repr

/-- A function's mailbox (R396). -/
structure Mailbox where
  req  : FMap Byte
  resp : FMap Byte
  status : Nat
deriving DecidableEq, Repr

/-- Module flash (R393, R394). -/
structure Flash where
  record  : List Byte
  active  : List Byte
  staging : List Byte
  seqrec  : List Byte
deriving DecidableEq, Repr

structure Teasel where
  /-- boot complete (R392) -/
  up     : Bool
  /-- powered at all -/
  power  : Bool
  /-- recovery: window bytes and status word (R395) -/
  recov  : Bool
  window : FMap Byte
  recStatus : Nat
  flash  : Flash
  romVersion : Word
  vendorKey : List Byte
  mail   : Vector Mailbox 4
  /-- one ring per function, newest first -/
  logs   : Vector (List LogEnt) 4
  logSeq : Nat
  telem  : List (List Word)
  kick   : Nat
  fallback : Bool
  /-- bytes of host memory that bus transfers read (R397) -/
  bus    : FMap Byte
  telAt  : Nat
  /-- an accepted update is being copied to the active copy (R394) -/
  copying : Bool
deriving DecidableEq, Repr

end Sys2Proof.Machine
end

