-- ==== Sys2Proof/Machine/State.lean ====
section
/-! DEFINITION. The machine state of one package with the memory of the fabric it reaches, the reasons a step can
stop, and the state after reset. -/

namespace Sys2Proof.Machine

/-- Why a step stops. -/
inductive Fault where
  /-- Raised by `step` when the package has no power (R394 speaks of power loss): nothing issues. Safe: nothing is
  claimed of an unpowered machine. -/
  | unpowered
deriving DecidableEq, Repr

/-- Why an instruction has no meaning. -/
inductive Refusal where
  /-- Raised by the dispatcher for an instruction without a meaning in this model. Safe. -/
  | notModelled (mnemonic : String)
deriving DecidableEq, Repr

/-- A write accepted at its home and not yet performed (R79, R84). -/
structure MergeW where
  mid   : Nat
  pa    : Nat
  bytes : List Byte
  /-- source: package, cube, frame, stream -/
  src   : Nat × Nat × Nat × Stream
  lane  : Nat
  /-- the load/store entry and line it belongs to: cube, frame, operation, line -/
  owner : Option (Nat × Nat × Nat × Nat)
  /-- the response that another package's request gets once it has performed (R363) -/
  reply : Option RemoteReq
deriving DecidableEq, Repr

/-- What happens next from outside the instruction streams: which agent acts, and what the world does. -/
inductive Choice where
  /-- the control core of a cube acts -/
  | core (c : CubeId)
  /-- an event of the opcode table takes place -/
  | event (i : Instr)
  /-- time passes, in cycles of 2.7 GHz -/
  | pass (n : Nat)
  /-- the host writes a byte of a mailbox request (R396) -/
  | mail (fn : Fin 4) (off : Nat) (b : Byte)
  /-- the host writes a byte of its own memory, which bus transfers read (R397) -/
  | bus (adr : Nat) (b : Byte)
  /-- the host writes a byte of the recovery window (R395) -/
  | window (off : Nat) (b : Byte)
  /-- the host writes an entry of a function's MSI-X table (R396) -/
  | msix (fn : Fin 4) (v : Fin 2048) (x : MsixVec)
  /-- an asynchronous interrupt arrives for a frame (R30) -/
  | irq (c : CubeId) (f : FrameId)
  /-- an uncorrectable error in a line of global memory or of a face (R76) -/
  | badLine (pa : Nat)
  /-- another package writes a byte of its own memory -/
  | farByte (pa : Nat) (b : Byte)
  /-- another package joins the fabric, or its partition or pin table changes -/
  | remote (m : Remote)
  | badFace (c : CubeId) (key : Nat)
deriving DecidableEq, Repr

structure State where
  /-- global memory by 52-bit global physical address (R18, R65) -/
  mem    : List Host.Cell
  /-- poisoned lines of global memory, by line number (R76) -/
  poison : FMap Bool
  /-- write-merge buffers in the order of acceptance, oldest first (R84) -/
  merge  : List MergeW
  nextMid : Nat
  cubes  : Vector Cube 4
  hub    : Hub
  teasel : Teasel
  /-- this package's identifier (R18) -/
  pkg    : Nat
  /-- the cube whose core acts next by default -/
  cur    : CubeId
  /-- cycles of 2.7 GHz since reset; carries no program semantics (R5) -/
  now    : Nat
  /-- the model's own counter of free values taken -/
  fresh  : Nat
  /-- the model's own list of what happens next -/
  agenda : List Choice
deriving DecidableEq, Repr

/-- Registers at reset and at admission: all zero (R26). -/
def Regs.zero : Regs where
  x := Vector.replicate 32 0
  y := Vector.replicate 32 0
  a := Vector.replicate 32 0
  p := 1
  v := []

def Taints.none : Taints where
  x := Vector.replicate 32 0
  y := Vector.replicate 32 0
  a := Vector.replicate 32 0
  p := Vector.replicate 16 0
  v := []
  ct := 0
  out := []

def SeqLevel.idle : SeqLevel := ⟨false, 0, 0, false, []⟩
def Ctl.zero : Ctl := ⟨0, 0, 0, 0, 8, 0, 0, 0, 0, 0, 0⟩
def Priv.zero : Priv := ⟨false, 0, 0, Vector.replicate 4 0, 0, 0, 0⟩
def Sync.zero : Sync where
  df := 0
  semc := Vector.replicate 32 0
  semx := Vector.replicate 32 1
  refusal := none
  phase := Vector.replicate 32 0
  stalled := Vector.replicate 32 none
def Issue.zero : Issue := ⟨0, 0, 0, false, false, none, none, none, false, .run, 0, false, false, false, false, 0, none⟩
def Flight.none : Flight := ⟨[], [], [], [], [], [], [], [], [], [], [], [], Option.none, [], [], [], []⟩

def Frame.free : Frame where
  task := none
  regs := Regs.zero
  taint := Taints.none
  seq := Vector.replicate 6 SeqLevel.idle
  ctl := Ctl.zero
  priv := Priv.zero
  sync := Sync.zero
  bufs := Vector.replicate 64 none
  issue := Issue.zero
  fl := Flight.none
  leave := none
  banks := []

/-- Limits of the shipped record (R377). -/
def Limits.shipped : Limits := ⟨1150, 95, 110, 828⟩

/-- The reset values of R315, R367 and R385; `TVEC` and the counters are 0 (R313, R63, R237). -/
def CubeCtl.zero : CubeCtl where
  fmterr := 0
  bec := Vector.replicate 32 0
  tvec := 0
  dplimit := 65536
  unsched := 8192
  grantq := 65536
  grantmax := 8
  tokexp := 20
  orphto := 1000
  floor := 0
  ramp := 0

def Monitor.zero : Monitor := ⟨0, 0, 0, 0, 0, 0, 0, Vector.replicate 16 0⟩

def ErrCount.zero : ErrCount := ⟨0, []⟩
def Wear.zero : Wear := ⟨[], [], [], [], []⟩

/-- A cube before its self-test: no layer in service (R10). -/
def Cube.zero : Cube where
  frames := Vector.replicate 2 Frame.free
  running := 0
  runSince := 0
  stallSince := none
  face := []
  poison := []
  spill := []
  shadow := []
  acc := []
  status := Vector.replicate 16 0
  dict := Vector.replicate 2 ⟨none, 0, false, []⟩
  ctl := CubeCtl.zero
  tlb := ⟨[], [], [], [], [], [], []⟩
  reqs := []
  toks := []
  nextReq := 0
  camp := ⟨Limits.shipped, 0, 0, 0, 0, 828, 0, 0, none, 0, 0, []⟩
  pow := Vector.replicate 8 ⟨.active, 0, 0, 0, false⟩
  fab := ⟨Vector.replicate 8 none, none, 0, 0, 0, [], [], [], 0, Vector.replicate 4 .x4, Vector.replicate 8 0, [], false, 0, 0, Wear.zero⟩
  mons := Vector.replicate 8 Monitor.zero
  dbgAttached := false
  dbgEvents := false
  parked := []

/-- A launch queue at reset (R333). -/
def Queue.zero : Queue := ⟨List.replicate 32 0, 0, false, 3, 1, ⟨0, 1⟩, [], 0, false⟩

def Hub.zero : Hub := ⟨Vector.replicate 64 Queue.zero, [], [], [], [], [], [], [], [], [], [], [], []⟩

/-- An entry of the MSI-X table at reset is masked. PRESUMED, assumption 106. -/
def MsixVec.zero : MsixVec := ⟨0, 0, true⟩

def Teasel.zero : Teasel where
  up := false
  power := true
  recov := false
  window := []
  recStatus := 0
  flash := ⟨[], [], [], []⟩
  romVersion := 0
  vendorKey := []
  mail := Vector.replicate 4 ⟨[], [], 1⟩
  logs := Vector.replicate 4 []
  logSeq := 0
  telem := []
  kick := 0
  fallback := false
  bus := []
  telAt := 0
  copying := false

/-- The machine at reset, powered, with the boot sequence of R392 yet to run: no task, no layer in service, every
control register at its reset value, memory with nothing listed. -/
def State.reset : State where
  mem := []
  poison := []
  merge := []
  nextMid := 0
  cubes := Vector.replicate 4 Cube.zero
  hub := Hub.zero
  teasel := Teasel.zero
  pkg := 0
  cur := 0
  now := 0
  fresh := 0
  agenda := []

end Sys2Proof.Machine
end

