-- ==== Sys2Proof/Config.lean ====
section
/-! DEFINITION. What the spec leaves open, as constants without a body: nothing can evaluate one, so a proof holds for
every value. Each takes what it may depend on, or a plain counter of the state for a fresh value. -/

namespace Sys2Proof.Config

/-- The functions whose finite results R192 only bounds. -/
inductive TFun where
  | exp2 | log2 | tanh
deriving DecidableEq, Repr

/-- The FP32 candidate of an inexact result of `vexp2`, `vlog2` or `vtanh`, a fixed choice per operand (R191). -/
opaque transcendental : TFun → Nat → Nat
/-- A fresh value for a choice the spec leaves open, taken at the state's counter. -/
opaque free : Nat → Word
/-- A band error of a relaxed band, before it is reduced into its bound (R233): band, counter. -/
opaque bandError : Nat → Nat → Int
/-- SHA-512 of a byte string (R393, R394, R398); the spec names the function and gives no computation of it. -/
opaque sha512 : List Byte → List Byte
/-- The Ed25519 signature check of key, message and signature (R393 to R395). -/
opaque ed25519Verify : List Byte → List Byte → List Byte → Bool
/-- The Ed25519 signature of private key and message (R394, R398). -/
opaque ed25519Sign : List Byte → List Byte → List Byte

/-- The core draw of a cube in watts at a core-rail current in amperes; R385 speaks of draw and gives no relation. -/
opaque coreDraw : Nat → Nat

end Sys2Proof.Config
end

