-- ==== Sys2Proof/Machine/Flags.lean ====
section
/-! DEFINITION. Flags: the five floating-point flags of `FSTAT` (R60, R61), the two bits of `CSTAT` (R144), and the
saturating counters of the cube (R63, R237). -/

namespace Sys2Proof.Machine

/-- The five sticky flags, as the bits of `FSTAT` (R60). -/
abbrev Flags5 := BitVec 5
def flINV : Flags5 := 1
def flDZ : Flags5 := 2
def flOVF : Flags5 := 4
def flUNF : Flags5 := 8
def flINX : Flags5 := 16

/-- Flags of a landing result join `FSTAT` (R61). -/
def Ctl.orFlags (k : Ctl) (fl : Flags5) : Ctl := { k with fstat := k.fstat ||| fl }
/-- `IDZ` is set where a landing division divided by zero (R144). -/
def Ctl.orIdz (k : Ctl) (b : Bool) : Ctl := { k with cstat := if b then k.cstat ||| 2 else k.cstat }
/-- `BRCOL` is set where a taken branch was suppressed (R120, R144). -/
def Ctl.orBrcol (k : Ctl) (b : Bool) : Ctl := { k with cstat := if b then k.cstat ||| 1 else k.cstat }
/-- Flags landed at the boundary of the bundle at the PC, `IDZ` above the five of `FSTAT`. -/
def Issue.orLanded (i : Issue) (fl : Flags5) (idz : Bool) : Issue :=
  { i with lflags := i.lflags ||| (BitVec.ofBool idz ++ fl) }
/-- `crw` of `FSTAT`: flags landing in the same bundle survive the write (R61). -/
def writeFstat (k : Ctl) (landed : BitVec 6) (v : Word) : Ctl := { k with fstat := v.setWidth 5 ||| landed.setWidth 5 }
/-- `crw` of `CSTAT` (R144). -/
def writeCstat (k : Ctl) (landed : BitVec 6) (v : Word) : Ctl :=
  { k with cstat := v.setWidth 2 ||| (if landed.getLsbD 5 then 2 else 0) }

/-- Addition that saturates at 0xFFFF_FFFF (R63, R237). -/
def satAdd32 (a : BitVec 32) (n : Nat) : BitVec 32 := BitVec.ofNat 32 (min (a.toNat + n) 0xFFFFFFFF)
/-- `FMTERR` counts codes `10` read (R63). -/
def addFmtErr (q : Cube) (n : Nat) : Cube := { q with ctl := { q.ctl with fmterr := satAdd32 q.ctl.fmterr n } }

end Sys2Proof.Machine
end

