-- ==== Sys2Proof/Machine/Float.lean ====
section
/-! DEFINITION. Number formats, rounding and conversion (R39 to R59), and scalar floating arithmetic on exact values
(R165 to R170). Values are exact dyadic numbers; each operation rounds once (R40). -/

namespace Sys2Proof.Machine

/-- What the all-ones exponent field encodes (R42 to R44). -/
inductive Special where
  | infNan | nanOnly | numbers
deriving DecidableEq, Repr

/-- A floating format: exponent and fraction widths and bias (R41 to R44, R50). -/
structure FFmt where
  eb : Nat
  fb : Nat
  bias : Nat
  sp : Special
deriving DecidableEq, Repr

def fmtF64 : FFmt := ⟨11, 52, 1023, .infNan⟩
def fmtF32 : FFmt := ⟨8, 23, 127, .infNan⟩
def fmtF16 : FFmt := ⟨5, 10, 15, .infNan⟩
def fmtBF16 : FFmt := ⟨8, 7, 127, .infNan⟩
def fmtE4M3 : FFmt := ⟨4, 3, 7, .nanOnly⟩
def fmtE5M2 : FFmt := ⟨5, 2, 15, .infNan⟩
def fmtE2M3 : FFmt := ⟨2, 3, 1, .numbers⟩
def fmtE3M2 : FFmt := ⟨3, 2, 3, .numbers⟩
def fmtE2M1 : FFmt := ⟨2, 1, 1, .numbers⟩
def fmtA40F : FFmt := ⟨10, 29, 511, .infNan⟩
def fmtA80F : FFmt := ⟨13, 66, 4095, .infNan⟩

/-- The floating format of a type; FP32 stands for the types that are not floating. -/
def tyFmt : Ty → FFmt
  | .f64 => fmtF64 | .f16 => fmtF16 | .bf16 => fmtBF16 | .e4m3 => fmtE4M3 | .e5m2 => fmtE5M2
  | .e2m3 => fmtE2M3 | .e3m2 => fmtE3M2 | .e2m1 => fmtE2M1 | _ => fmtF32

namespace FFmt

/-- The sign bit's position. -/
def signPos (F : FFmt) : Nat := F.eb + F.fb
/-- The exponent of the minimum subnormal: the grid below the minimum normal (R40). -/
def emin (F : FFmt) : Int := 1 - (F.bias : Int) - (F.fb : Int)
/-- The code of positive infinity, where the format has one. -/
def infCode (F : FFmt) : Nat := ((1 <<< F.eb) - 1) <<< F.fb
/-- The code of the greatest finite value (R42, R44). -/
def maxCode (F : FFmt) : Nat :=
  match F.sp with
  | .infNan => F.infCode - 1
  | .nanOnly => (1 <<< (F.eb + F.fb)) - 2
  | .numbers => (1 <<< (F.eb + F.fb)) - 1
/-- The default NaN (R42, R44, R50); a format with no NaN code never asks for it. -/
def nanCode (F : FFmt) : Nat :=
  match F.sp with
  | .infNan => F.infCode + (1 <<< (F.fb - 1))
  | _ => (1 <<< (F.eb + F.fb)) - 1
def withSign (F : FFmt) (neg : Bool) (c : Nat) : Nat := if neg then c + (1 <<< F.signPos) else c

end FFmt

/-- The value of a floating code: a NaN with its sign, an infinity, or ±m·2^e, zero when m = 0 (R41). -/
inductive FVal where
  | nan (neg : Bool)
  | inf (neg : Bool)
  | fin (neg : Bool) (m : Nat) (e : Int)
deriving DecidableEq, Repr

/-- R41 to R44. -/
def FFmt.decode (F : FFmt) (c : Nat) : FVal :=
  let f := c % (1 <<< F.fb)
  let e := (c >>> F.fb) % (1 <<< F.eb)
  let neg := Nat.testBit c F.signPos
  let top := (1 <<< F.eb) - 1
  if F.sp = .infNan ∧ e = top then (if f = 0 then .inf neg else .nan neg)
  else if F.sp = .nanOnly ∧ e = top ∧ f = (1 <<< F.fb) - 1 then .nan neg
  else if e = 0 then .fin neg f F.emin
  else .fin neg (f + (1 <<< F.fb)) (F.emin + (e : Int) - 1)

/-- Whether a magnitude with quotient q, remainder r of k bits goes up to q + 1 (R40). -/
def roundUp (rm : RM) (neg : Bool) (q r k : Nat) : Bool :=
  match rm with
  | .rn => (1 <<< k < 2 * r) || (2 * r = 1 <<< k && q % 2 = 1)
  | .rz => false
  | .ru => !neg && r != 0
  | .rd => neg && r != 0

/-- A magnitude m·2^e on the grid of R40 for p significand bits and least exponent `lo`: n, g and whether n·2^g
differs from m·2^e. -/
def roundGrid (rm : RM) (neg : Bool) (p : Nat) (lo : Int) (m : Nat) (e : Int) : Nat × Int × Bool :=
  let own : Int := (Nat.log2 m : Int) + 1 + e - (p : Int)
  let g := if own < lo then lo else own
  if g ≤ e then (m <<< (e - g).toNat, g, false)
  else
    let k := (g - e).toNat
    let q := m >>> k
    let r := m - (q <<< k)
    (if roundUp rm neg q r k then q + 1 else q, g, r != 0)

/-- Overflow (R55): the code given. -/
def FFmt.overflow (F : FFmt) (rm : RM) (sat neg : Bool) : Nat :=
  let away : Bool := match rm with | .rn => true | .rz => false | .ru => !neg | .rd => neg
  if F.sp = .infNan ∧ sat = false ∧ away = true then F.withSign neg F.infCode else F.withSign neg F.maxCode

/-- ±m·2^e rounded once to the format, with the flags of R53 and R55. -/
def FFmt.round (F : FFmt) (rm : RM) (sat neg : Bool) (m : Nat) (e : Int) : Nat × Flags5 :=
  if m = 0 then (F.withSign neg 0, 0)
  else
    let (n, g, inx) := roundGrid rm neg (F.fb + 1) F.emin m e
    let c := ((g - F.emin).toNat <<< F.fb) + n
    if F.maxCode < c then (F.overflow rm sat neg, flOVF ||| flINX)
    else
      let below := decide ((Nat.log2 m : Int) + e < 1 - (F.bias : Int))
      let unf := inx && below && c != 0 && decide (c < 1 <<< F.fb)
      (F.withSign neg c, (if inx then flINX else 0) ||| (if unf then flUNF else 0))

/-- A value to a floating format (R53 to R56). -/
def FFmt.ofVal (F : FFmt) (rm : RM) (sat : Bool) : FVal → Nat × Flags5
  | .nan neg => if F.sp = .numbers then (F.withSign neg F.maxCode, flINV) else (F.nanCode, 0)
  | .inf neg =>
    if F.sp = .infNan then (F.withSign neg F.infCode, 0)
    else (F.withSign neg F.maxCode, if sat then flOVF else flOVF ||| flINV)
  | .fin neg m e => F.round rm sat neg m e

/-- The exact product, with INV for 0 × ∞ (R165). -/
def FVal.mul : FVal → FVal → FVal × Flags5
  | .nan _, _ => (.nan false, 0)
  | _, .nan _ => (.nan false, 0)
  | .inf a, .inf b => (.inf (a != b), 0)
  | .inf a, .fin b m _ => if m = 0 then (.nan false, flINV) else (.inf (a != b), 0)
  | .fin a m _, .inf b => if m = 0 then (.nan false, flINV) else (.inf (a != b), 0)
  | .fin a m e, .fin b n f => (.fin (a != b) (m * n) (e + f), 0)

/-- The signed integer m·2^(e − g) of ±m·2^e for a grid exponent g ≤ e. -/
def scaledInt (neg : Bool) (m : Nat) (e g : Int) : Int :=
  let v : Int := ((m <<< (e - g).toNat : Nat) : Int)
  if neg then -v else v

/-- The exact sum; an exact zero of opposite signs is −0 under `rd` and +0 otherwise (R165); INV for ∞ − ∞. -/
def FVal.add (rm : RM) : FVal → FVal → FVal × Flags5
  | .nan _, _ => (.nan false, 0)
  | _, .nan _ => (.nan false, 0)
  | .inf a, .inf b => if a = b then (.inf a, 0) else (.nan false, flINV)
  | .inf a, .fin _ _ _ => (.inf a, 0)
  | .fin _ _ _, .inf b => (.inf b, 0)
  | .fin a m e, .fin b n f =>
    if m = 0 ∧ n = 0 then (.fin (if a = b then a else rm == .rd) 0 0, 0)
    else
      let g := if e ≤ f then e else f
      let s := scaledInt a m e g + scaledInt b n f g
      if s = 0 then (.fin (rm == .rd) 0 0, 0) else (.fin (decide (s < 0)) s.natAbs g, 0)

def FVal.neg : FVal → FVal
  | .nan a => .nan a | .inf a => .inf !a | .fin a m e => .fin (!a) m e

/-- Comparison of values; −0 equals +0, and a NaN compares with nothing (R167). -/
def FVal.cmp : FVal → FVal → Option Ordering
  | .nan _, _ => none
  | _, .nan _ => none
  | .inf a, .inf b => some (if a = b then .eq else if a then .lt else .gt)
  | .inf a, .fin _ _ _ => some (if a then .lt else .gt)
  | .fin _ _ _, .inf b => some (if b then .gt else .lt)
  | .fin a m e, .fin b n f =>
    let g := if e ≤ f then e else f
    some (compare (scaledInt a m e g) (scaledInt b n f g))

def FVal.isNan : FVal → Bool
  | .nan _ => true | _ => false
def FVal.isNeg : FVal → Bool
  | .nan a | .inf a | .fin a _ _ => a

/-- The condition on floating values (R167). -/
def fcmpHolds (c : Cnd) (a b : FVal) : Bool :=
  match c, a.cmp b with
  | .eq, some .eq => true
  | .ne, some .eq => false
  | .ne, _ => true
  | .lt, some .lt => true
  | .le, some .lt => true
  | .le, some .eq => true
  | _, _ => false

/-- Integer square root by Newton steps on explicit fuel. -/
def isqrtAux (n : Nat) : Nat → Nat → Nat
  | 0, x => x
  | k + 1, x => let y := (x + n / x) / 2; if y < x then isqrtAux n k y else x
def isqrt (n : Nat) : Nat := if n = 0 then 0 else isqrtAux n 400 (1 <<< ((Nat.log2 n) / 2 + 1))

/-- A quotient q with a nonzero rest is written 2q + 1 at half the weight, so that one rounding sees it. -/
def withRest (neg : Bool) (q : Nat) (e : Int) (rest : Bool) : FVal :=
  if rest then .fin neg (2 * q + 1) (e - 1) else .fin neg q e

/-- 1 / v (R168). -/
def FVal.rcp : FVal → FVal × Flags5
  | .nan _ => (.nan false, 0)
  | .inf a => (.fin a 0 0, 0)
  | .fin a m e =>
    if m = 0 then (.inf a, flDZ)
    else
      let k := Nat.log2 m + 100
      let n := 1 <<< k
      (withRest a (n / m) (-e - (k : Int)) (n % m != 0), 0)

/-- 1 / √v (R168). -/
def FVal.rsq : FVal → FVal × Flags5
  | .nan _ => (.nan false, 0)
  | .inf a => if a then (.nan false, flINV) else (.fin false 0 0, 0)
  | .fin a m e =>
    if m = 0 then (.inf a, flDZ)
    else if a then (.nan false, flINV)
    else
      let odd := e % 2 != 0
      let m := if odd then 2 * m else m
      let e := if odd then e - 1 else e
      let k := Nat.log2 m + 100
      let n := 1 <<< (2 * k)
      let q := isqrt (n / m)
      (withRest false q (-(e / 2) - (k : Int)) (q * q * m != n), 0)

/-- One rounding of an operation's exact result to a type, with its flags (R165). -/
def fround (t : Ty) (rm : RM) (sat : Bool) (r : FVal × Flags5) : Nat × Flags5 :=
  let (c, f) := (tyFmt t).ofVal rm sat r.1
  (c, f ||| r.2)

def fval (t : Ty) (c : Nat) : FVal := (tyFmt t).decode c

def faddBits (t : Ty) (rm : RM) (sat : Bool) (a b : Nat) : Nat × Flags5 :=
  fround t rm sat ((fval t a).add rm (fval t b))
def fsubBits (t : Ty) (rm : RM) (sat : Bool) (a b : Nat) : Nat × Flags5 :=
  fround t rm sat ((fval t a).add rm (fval t b).neg)
def fmulBits (t : Ty) (rm : RM) (sat : Bool) (a b : Nat) : Nat × Flags5 :=
  fround t rm sat ((fval t a).mul (fval t b))
/-- a × b + d with one rounding; 0 × ∞ sets INV even when d is NaN (R166). -/
def fmaBits (t : Ty) (rm : RM) (sat : Bool) (a b d : Nat) : Nat × Flags5 :=
  let (p, f) := (fval t a).mul (fval t b)
  let (s, g) := p.add rm (fval t d)
  fround t rm sat (s, f ||| g)
def frcpBits (t : Ty) (rm : RM) (a : Nat) : Nat × Flags5 := fround t rm false (fval t a).rcp
def frsqBits (t : Ty) (rm : RM) (a : Nat) : Nat × Flags5 := fround t rm false (fval t a).rsq

/-- `fmin` (greater = false) and `fmax` (R166): the operand unrounded; −0 is less than +0. -/
def fminmaxBits (greater : Bool) (t : Ty) (a b : Nat) : Nat :=
  let x := fval t a
  let y := fval t b
  match x.isNan, y.isNan with
  | true, true => (tyFmt t).nanCode
  | true, false => b
  | false, true => a
  | false, false =>
    match x.cmp y with
    | some .lt => if greater then b else a
    | some .gt => if greater then a else b
    | _ => if x.isNeg then (if greater then b else a) else (if greater then a else b)

/-- A number read from a type: floating, or an integer (R45, R46). -/
inductive Num where
  | flt (v : FVal)
  | int (i : Int)
deriving DecidableEq, Repr

/-- The signed reading of a w-bit value (R157). -/
def toSigned (w v : Nat) : Int := if Nat.testBit v (w - 1) then (v : Int) - ((1 <<< w : Nat) : Int) else (v : Int)
/-- The low w bits of an integer's two's complement value. -/
def lowBits (w : Nat) (i : Int) : Nat := (i % ((1 <<< w : Nat) : Int)).toNat

/-- Greatest and least values of an integer type. -/
def tyMax (t : Ty) : Int := if t.signed then ((1 <<< (t.width - 1) : Nat) : Int) - 1 else ((1 <<< t.width : Nat) : Int) - 1
def tyMin (t : Ty) : Int := if t.signed then -((1 <<< (t.width - 1) : Nat) : Int) else 0

def clampInt (lo hi v : Int) : Int := if v < lo then lo else if hi < v then hi else v

/-- The integer an integer code reads as under a type; ternary `10` reads 0 (R45). -/
def intVal (t : Ty) (c : Nat) : Int :=
  match t with
  | .tern => if c % 4 = 1 then 1 else if c % 4 = 3 then -1 else 0
  | _ => if t.signed then toSigned t.width (c % (1 <<< t.width)) else ((c % (1 <<< t.width) : Nat) : Int)

def numOf (t : Ty) (c : Nat) : Num := if t.isFloat then .flt (fval t c) else .int (intVal t c)

/-- A value rounded to an integer, and whether rounding changed it (R57). -/
def roundToInt (rm : RM) (neg : Bool) (m : Nat) (e : Int) : Int × Bool :=
  let (n, inx) :=
    if 0 ≤ e then (m <<< e.toNat, false)
    else
      let k := (-e).toNat
      let q := m >>> k
      let r := m - (q <<< k)
      (if roundUp rm neg q r k then q + 1 else q, r != 0)
  (if neg then -(n : Int) else (n : Int), inx)

def ternCode (i : Int) : Nat := if i = 0 then 0 else if 0 < i then 1 else 3

/-- A floating value to an integer type (R57) or to ternary (R59). -/
def fltToInt (td : Ty) (rm : RM) (v : FVal) : Nat × Flags5 :=
  if td = .tern then
    match v with
    | .nan _ => (0, flINV)
    | .inf neg => (if neg then 3 else 1, 0)
    | .fin neg m e => let (i, inx) := roundToInt rm neg m e; (ternCode i, if inx then flINX else 0)
  else
    match v with
    | .nan _ => (0, flINV)
    | .inf neg => (lowBits td.width (if neg then tyMin td else tyMax td), flINV)
    | .fin neg m e =>
      let (i, inx) := roundToInt rm neg m e
      if i < tyMin td ∨ tyMax td < i then (lowBits td.width (clampInt (tyMin td) (tyMax td) i), flINV)
      else (lowBits td.width i, if inx then flINX else 0)

/-- An integer to an integer type (R58) or to ternary (R59). DEDUCED, assumption 28: R58 speaks of narrower targets;
the same clamp and the same low bits serve targets of equal or greater width. -/
def intToInt (td : Ty) (sat : Bool) (i : Int) : Nat × Flags5 :=
  if td = .tern then (ternCode i, 0)
  else if sat ∧ (i < tyMin td ∨ tyMax td < i) then (lowBits td.width (clampInt (tyMin td) (tyMax td) i), flOVF)
  else (lowBits td.width i, 0)

/-- `convert` of R53 to R59 on the bits of one element. -/
def convertBits (ts td : Ty) (rm : RM) (sat : Bool) (c : Nat) : Nat × Flags5 :=
  match numOf ts c with
  | .flt v => if td.isFloat then (tyFmt td).ofVal rm sat v else fltToInt td rm v
  | .int i =>
    if td.isFloat then (tyFmt td).ofVal rm sat (.fin (decide (i < 0)) i.natAbs 0)
    else intToInt td sat i

/-- The scaled value of R49; `e4m3` is the scale's format, otherwise E8M0. -/
def scaledVal (e4m3 : Bool) (x : FVal) (c : Nat) : FVal × Flags5 :=
  if e4m3 then
    match fmtE4M3.decode c with
    | .fin neg m e =>
      (match x with
       | .nan _ => (.nan false, 0)
       | .inf a => if m = 0 then (.nan false, flINV) else (.inf (a != neg), 0)
       | .fin a n f => (.fin (a != neg) (n * m) (e + f), 0))
    | _ => (.nan false, 0)
  else if c = 255 then (.nan false, 0)
  else
    match x with
    | .nan _ => (.nan false, 0)
    | .inf a => (.inf a, 0)
    | .fin a n f => (.fin a n (f + (c : Int) - 127), 0)

end Sys2Proof.Machine
end

