-- ==== Sys2Proof/Machine/Lanes.lean ====
section
/-! DEFINITION. Vector registers as lists of lanes, and the lane results of the vector instructions (R173 to R192). -/

namespace Sys2Proof.Machine

/-- Element i of width w (R173). -/
def elem (v : Nat) (w i : Nat) : Nat := (v >>> (w * i)) % (1 <<< w)
/-- The first n elements of width w. -/
def lanesOf (w n v : Nat) : List Nat := (List.range n).map fun i => elem v w i
/-- The register value of a list of elements, element 0 in the low bits. -/
def packLanes (w : Nat) (l : List Nat) : Nat := l.foldr (fun x acc => (acc <<< w) + x % (1 <<< w)) 0
/-- A register of elements. -/
def vOf (w : Nat) (l : List Nat) : VReg := BitVec.ofNat 2048 (packLanes w l)

/-- A vector result: the register, the flags of all lanes (R174) and the ternary codes `10` read (R63). -/
structure VRes where
  val : VReg
  fl  : Flags5 := 0
  t10 : Nat := 0
deriving DecidableEq, Repr

/-- Lanes with their flags joined. -/
def vResOf (w : Nat) (l : List (Nat × Flags5)) : VRes :=
  ⟨vOf w (l.map Prod.fst), l.foldl (fun f x => f ||| x.2) 0, 0⟩

/-- An integer lane result, reduced modulo 2^w or clamped (R176). -/
def intRes (t : Ty) (sat : Bool) (i : Int) : Nat :=
  lowBits t.width (if sat then clampInt (tyMin t) (tyMax t) i else i)

/-- One lane of `vadd`, `vsub`, `vmul` (R175 to R177). -/
def laneAdd (t : Ty) (rm : RM) (sat : Bool) (a b : Nat) : Nat × Flags5 :=
  if t.isFp then faddBits t rm sat a b else (intRes t sat (intVal t a + intVal t b), 0)
def laneSub (t : Ty) (rm : RM) (sat : Bool) (a b : Nat) : Nat × Flags5 :=
  if t.isFp then fsubBits t rm sat a b else (intRes t sat (intVal t a - intVal t b), 0)
def laneMul (t : Ty) (rm : RM) (sat : Bool) (a b : Nat) : Nat × Flags5 :=
  if t.isFp then fmulBits t rm sat a b else (intRes t sat (intVal t a * intVal t b), 0)
def laneFma (t : Ty) (rm : RM) (sat : Bool) (a b d : Nat) : Nat × Flags5 :=
  if t.isFp then fmaBits t rm sat a b d else (intRes t sat (intVal t a * intVal t b + intVal t d), 0)
def laneMin (t : Ty) (a b : Nat) : Nat :=
  if t.isFp then fminmaxBits false t a b else if intVal t b < intVal t a then b else a
def laneMax (t : Ty) (a b : Nat) : Nat :=
  if t.isFp then fminmaxBits true t a b else if intVal t a < intVal t b then b else a
def laneAbs (t : Ty) (sat : Bool) (a : Nat) : Nat :=
  if t.isFp then a % (1 <<< (t.width - 1)) else intRes t sat ((intVal t a).natAbs : Int)
def laneNeg (t : Ty) (sat : Bool) (a : Nat) : Nat :=
  if t.isFp then Nat.xor a (1 <<< (t.width - 1)) else intRes t sat (-(intVal t a))
def laneShl (t : Ty) (a b : Nat) : Nat := (a <<< (b % t.width)) % (1 <<< t.width)
def laneShr (t : Ty) (a b : Nat) : Nat :=
  if t.signed then lowBits t.width ((toSigned t.width a) >>> (b % t.width)) else a >>> (b % t.width)

/-- The condition on w-bit values: `lt`, `le` signed and `ltz`, `lez` unsigned (R128, R160). -/
def icmpHolds (c : Cnd) (w a b : Nat) : Bool :=
  match c with
  | .eq => a == b
  | .ne => a != b
  | .lt => decide (toSigned w a < toSigned w b)
  | .le => decide (toSigned w a ≤ toSigned w b)
  | .ltz => decide (a < b)
  | .lez => decide (a ≤ b)

def laneCmp (c : Cnd) (t : Ty) (a b : Nat) : Nat :=
  let h := if t.isFp then fcmpHolds c (fval t a) (fval t b) else icmpHolds c t.width a b
  if h then 1 else 0

/-- An element-wise operation of two registers. -/
def vmap2 (t : Ty) (f : Nat → Nat → Nat × Flags5) (a b : VReg) : VRes :=
  vResOf t.width ((List.range t.lanes).map fun i => f (elem a.toNat t.width i) (elem b.toNat t.width i))
def vmap1 (t : Ty) (f : Nat → Nat × Flags5) (a : VReg) : VRes :=
  vResOf t.width ((List.range t.lanes).map fun i => f (elem a.toNat t.width i))
def vmap3 (t : Ty) (f : Nat → Nat → Nat → Nat × Flags5) (a b c : VReg) : VRes :=
  vResOf t.width ((List.range t.lanes).map fun i =>
    f (elem a.toNat t.width i) (elem b.toNat t.width i) (elem c.toNat t.width i))

/-- `vsel` (R180). -/
def vselRes (t : Ty) (a b c : VReg) : VRes := vmap3 t (fun x y z => (if z = 0 then y else x, 0)) a b c

def tern10 (t : Ty) (l : List Nat) : Nat := if t = .tern then (l.filter fun c => c % 4 = 2).length else 0

/-- Bits [lo + len − 1 : lo] of d replaced by those of n. -/
def replaceBits (d n lo len : Nat) : Nat :=
  (d % (1 <<< lo)) + ((n % (1 <<< len)) <<< lo) + ((d >>> (lo + len)) <<< (lo + len))

/-- `vcvt` (R182). -/
def vcvtRes (td ts : Ty) (part : Nat) (rm : RM) (sat : Bool) (a d : VReg) : VRes :=
  let ws := ts.width
  let wd := td.width
  let n := 2048 / (if ws < wd then wd else ws)
  let src0 := if ws ≤ wd then part * n else 0
  let src := (List.range n).map fun i => elem a.toNat ws (src0 + i)
  let res := src.map fun c => convertBits ts td rm sat c
  let packed := packLanes wd (res.map Prod.fst)
  let v := if ws ≤ wd then packed else replaceBits d.toNat packed (part * n * wd) (n * wd)
  ⟨BitVec.ofNat 2048 v, res.foldl (fun f x => f ||| x.2) 0, tern10 ts src⟩

/-- The lane type of the wide side of `vpack` and `vunpack` (R183). -/
def wideTy (t : Ty) : Ty := if t.isFloat then .f32 else .s32
/-- How many elements a part holds: 64, or 20 in part 5 under FP6 (R183). -/
def partCount (t : Ty) (part : Nat) : Nat := min 64 (t.lanes - 64 * part)

/-- `vunpack` (R183); it sets no flag. -/
def vunpackRes (t : Ty) (part : Nat) (a : VReg) : VRes :=
  let src := (List.range (partCount t part)).map fun i => elem a.toNat t.width (64 * part + i)
  let res := src.map fun c => (convertBits t (wideTy t) .rn false c).1
  ⟨vOf 32 res, 0, tern10 t src⟩

/-- `vpack` (R184). -/
def vpackRes (t : Ty) (part : Nat) (rm : RM) (sat : Bool) (a d : VReg) : VRes :=
  let n := partCount t part
  let res := (List.range n).map fun i => convertBits (wideTy t) t rm sat (elem a.toNat 32 i)
  let v := replaceBits d.toNat (packLanes t.width (res.map Prod.fst)) (64 * part * t.width) (n * t.width)
  ⟨BitVec.ofNat 2048 v, res.foldl (fun f x => f ||| x.2) 0, 0⟩

/-- `vscale` (R185): the exact product rounded once. -/
def vscaleRes (blk16 : Bool) (sb : Nat) (rm : RM) (sat : Bool) (a b : VReg) : VRes :=
  let l := if blk16 then 16 else 32
  vResOf 32 ((List.range 64).map fun i =>
    fround .f32 rm sat (scaledVal blk16 (fval .f32 (elem a.toNat 32 i)) (elem b.toNat 8 ((64 / l) * sb + i / l))))

/-- A register built lane by lane from an index. -/
def vgen (t : Ty) (f : Nat → Nat) : VRes := ⟨vOf t.width ((List.range t.lanes).map f), 0, 0⟩

/-- Lane j of the concatenation of A and B (R186). -/
def cat2 (t : Ty) (a b : VReg) (j : Nat) : Nat :=
  if j < t.lanes then elem a.toNat t.width j else elem b.toNat t.width (j - t.lanes)

def vbcastRes (t : Ty) (k : Nat) (a : VReg) : VRes := vgen t fun _ => elem a.toNat t.width k
def vpermRes (t : Ty) (a b : VReg) : VRes :=
  vgen t fun i => elem a.toNat t.width (elem b.toNat t.width i % t.lanes)
def vrotRes (t : Ty) (k : Nat) (a : VReg) : VRes :=
  vgen t fun i => elem a.toNat t.width ((i + t.lanes - k) % t.lanes)
def vlaneRes (t : Ty) (s : Int) (a : VReg) : VRes :=
  vgen t fun i => lowBits t.width ((elem a.toNat t.width 0 : Int) + (i : Int) * s)
def vinsRes (t : Ty) (k : Nat) (a d : VReg) : VRes :=
  vgen t fun i => if i = k then elem a.toNat t.width 0 else elem d.toNat t.width i
def vextRes (t : Ty) (k : Nat) (a b : VReg) : VRes := vgen t fun i => cat2 t a b (i + k)

/-- `vshuf` (R187). -/
def vshufRes (p : Shuf) (t : Ty) (a b : VReg) : VRes :=
  let n := t.lanes
  let ea := elem a.toNat t.width
  let eb := elem b.toNat t.width
  vgen t fun i =>
    match p with
    | .zlo => if i % 2 = 0 then ea (i / 2) else eb (i / 2)
    | .zhi => if i % 2 = 0 then ea (n / 2 + i / 2) else eb (n / 2 + i / 2)
    | .uev => cat2 t a b (2 * i)
    | .uod => cat2 t a b (2 * i + 1)
    | .rev => ea (n - 1 - i)
    | .swp => if i % 2 = 0 then ea (i + 1) else ea (i - 1)

/-- One combining step of `vscan` and `vred` (R188). -/
def combine (op : ScanOp) (t : Ty) (rm : RM) (sat : Bool) (x y : Nat) : Nat × Flags5 :=
  match op with
  | .add => laneAdd t rm sat x y
  | .min => (laneMin t x y, 0)
  | .max => (laneMax t x y, 0)
  | .and => (Nat.land x y, 0)
  | .or => (Nat.lor x y, 0)
  | .xor => (Nat.xor x y, 0)

def canon (t : Ty) (x : Nat) : Nat := if t.isFp && (fval t x).isNan then (tyFmt t).nanCode else x

/-- The identity of an exclusive scan (R188). -/
def scanId (op : ScanOp) (t : Ty) : Nat :=
  match op with
  | .add | .or | .xor => 0
  | .min => if t.isFp then (tyFmt t).infCode else lowBits t.width (tyMax t)
  | .max => if t.isFp then (tyFmt t).withSign true (tyFmt t).infCode else lowBits t.width (tyMin t)
  | .and => (1 <<< t.width) - 1

/-- The scan of R188 over lanes paired with their head flags: results in order, with flags. -/
def scanLanes (op : ScanOp) (exc : Bool) (t : Ty) (rm : RM) (sat : Bool) :
    List (Nat × Bool) → Nat → List (Nat × Flags5)
  | [], _ => []
  | (x, head) :: l, acc =>
    let (nxt, fl) := if head then (canon t x, 0) else combine op t rm sat acc x
    let out := if exc then (if head then scanId op t else acc) else nxt
    (out, fl) :: scanLanes op exc t rm sat l nxt

def vscanRes (op : ScanOp) (exc seg : Bool) (t : Ty) (rm : RM) (sat : Bool) (a h : VReg) : VRes :=
  vResOf t.width (scanLanes op exc t rm sat
    ((List.range t.lanes).map fun i =>
      (elem a.toNat t.width i, i = 0 || (seg && elem h.toNat t.width i != 0))) 0)

/-- Neighbours combined in pairs (R189). -/
def pairUp (op : ScanOp) (t : Ty) (rm : RM) (sat : Bool) : List Nat → List (Nat × Flags5)
  | x :: y :: l => combine op t rm sat x y :: pairUp op t rm sat l
  | [x] => [(x, 0)]
  | [] => []

/-- The binary tree of R189, on explicit fuel: ten levels join up to 1,024 lanes. -/
def redTree (op : ScanOp) (t : Ty) (rm : RM) (sat : Bool) : Nat → List Nat → Flags5 → Nat × Flags5
  | 0, l, f => (l.headD 0, f)
  | k + 1, l, f =>
    if l.length ≤ 1 then (l.headD 0, f)
    else
      let p := pairUp op t rm sat l
      redTree op t rm sat k (p.map Prod.fst) (p.foldl (fun g x => g ||| x.2) f)

def vredRes (op : ScanOp) (t : Ty) (rm : RM) (sat : Bool) (a : VReg) : VRes :=
  let (x, f) := redTree op t rm sat 10 (lanesOf t.width t.lanes a.toNat) 0
  ⟨vOf t.width (List.replicate t.lanes (canon t x)), f, 0⟩

/-- A list of indices padded by its last entry, or by 0 (R190). -/
def padList (n : Nat) (l : List Nat) : List Nat := l ++ List.replicate (n - l.length) (l.getLastD 0)

/-- `vpart`: P, Q and K (R190). -/
def vpartRes (t : Ty) (c : VReg) : VReg × VReg × VReg :=
  let idx := List.range t.lanes
  let p := idx.filter fun i => elem c.toNat t.width i != 0
  let q := idx.filter fun i => elem c.toNat t.width i == 0
  (vOf t.width (padList t.lanes p), vOf t.width (padList t.lanes q), vOf t.width [p.length, q.length])

/-- `vmovi` (R181). -/
def vmoviRes (w : Bool) (imm : BitVec 32) : VReg :=
  if w then vOf 64 (List.replicate 32 (imm.signExtend 64).toNat) else vOf 32 (List.replicate 64 imm.toNat)

end Sys2Proof.Machine
end

