-- ==== Sys2Proof/Machine/Transc.lean ====
section
/-! DEFINITION. `vexp2`, `vlog2` and `vtanh` (R191, R192): the exact cases and special cases as the tables give them,
and for every other operand a free value of the configuration kept within the bound of R192. The bound is tested
against an enclosure of the exact value in integer arithmetic. -/

namespace Sys2Proof.Machine

open Sys2Proof.Config (TFun)

/-- The fraction bits of the fixed-point enclosures. -/
def fxP : Nat := 160

/-- ln 2 at 2^-160, within 2^-150 below. -/
def fxLn2 : Nat := (List.range 170).foldl (fun s k => s + (1 <<< fxP) / ((k + 1) * (1 <<< (k + 1)))) 0

/-- Terms of the exponential series: y^k / k! at 2^-160. -/
def expTerms (y : Nat) : Nat → Nat → Nat → Nat
  | 0, _, _ => 0
  | n + 1, k, t => t + expTerms y n (k + 1) (((t * y) >>> fxP) / (k + 1))
/-- e^y for 0 ≤ y < 1, within 2^-150. -/
def fxExp (y : Nat) : Nat := expTerms y 48 0 (1 <<< fxP)

/-- Terms of the series of artanh: z^(2k+1) / (2k + 1). -/
def atanhTerms (z2 : Nat) : Nat → Nat → Nat → Nat
  | 0, _, _ => 0
  | n + 1, k, t => t / (2 * k + 1) + atanhTerms z2 n (k + 1) ((t * z2) >>> fxP)
/-- ln x for x = m / 2^l in [1, 2), within 2^-150. -/
def fxLn (m l : Nat) : Nat :=
  let z := ((m - (1 <<< l)) <<< fxP) / (m + (1 <<< l))
  2 * atanhTerms ((z * z) >>> fxP) 70 0 z

/-- The slack of an enclosure, in units of 2^-160. -/
def fxSlack : Nat := 1 <<< 20

/-- An enclosure lo·2^u to hi·2^u of the magnitude of an exact value, with its sign. -/
structure Encl where
  neg : Bool
  lo  : Nat
  hi  : Nat
  u   : Int
deriving DecidableEq, Repr

/-- 2^a for −151 < a < 128. -/
def enclExp2 (neg : Bool) (m : Nat) (e : Int) : Encl :=
  let a := scaledInt neg m (e + (fxP : Int)) 0
  let n := a >>> fxP
  let f := (a - n * ((1 <<< fxP : Nat) : Int)).toNat
  let s := fxExp ((f * fxLn2) >>> fxP)
  ⟨false, max (s - fxSlack) (1 <<< fxP), min (s + fxSlack) (2 <<< fxP), n - (fxP : Int)⟩

/-- log2 of m·2^e. -/
def enclLog2 (m : Nat) (e : Int) : Encl :=
  let l := Nat.log2 m
  let fr := (fxLn m l <<< fxP) / fxLn2
  let v : Int := (e + (l : Int)) * ((1 <<< fxP : Nat) : Int) + (fr : Int)
  ⟨decide (v < 0), v.natAbs - fxSlack, v.natAbs + fxSlack, -(fxP : Int)⟩

/-- tanh of ±m·2^e, 0 < |a| < 10: the first two terms of its series below 2^-12, (E − 1)/(E + 1) with E = e^2|a| above. -/
def enclTanh (neg : Bool) (m : Nat) (e : Int) : Encl :=
  if (Nat.log2 m : Int) + e < -12 then
    let cube3 := m * m * m
    let sh : Int := 2 * e + 200
    let c := (if 0 ≤ sh then cube3 <<< sh.toNat else cube3 >>> (-sh).toNat) / 3
    let lo := (m <<< 200) - c - 2
    ⟨neg, lo, min (lo + (m <<< 152) + 4) (m <<< 200), e - 200⟩
  else
    let y := (scaledInt false (2 * m) (e + (fxP : Int)) 0).toNat / 32
    let s1 := fxExp y
    let sq := fun s : Nat => (s * s) >>> fxP
    let big := sq (sq (sq (sq (sq s1))))
    let t := ((big - (1 <<< fxP)) <<< fxP) / (big + (1 <<< fxP))
    ⟨neg, t - (1 <<< 60), min (t + (1 <<< 60)) (1 <<< fxP), -(fxP : Int)⟩

/-- Whether the FP32 code c lies within the tolerance 2^tol of both ends of an enclosure, and so of the value in it. -/
def withinBound (x : Encl) (tol : Int) (c : Nat) : Bool :=
  match fval .f32 c with
  | .fin neg m e =>
    let g := min (min e x.u) tol
    let v := scaledInt neg m e g
    let a := scaledInt x.neg x.lo x.u g
    let b := scaledInt x.neg x.hi x.u g
    let d := scaledInt false 1 tol g
    decide (max a b ≤ v + d) && decide (v - d ≤ min a b) && decide (c < 1 <<< 32)
  | _ => false

/-- The exponent of one unit in the last place at FP32: the spacing of the FP32 values about the exact value, which lies below
the upper end. R192 says no more of it. DEDUCED, assumption 93. -/
def ulpExp (x : Encl) : Int := max ((Nat.log2 (x.hi - 1) : Int) + x.u - 23) (-149)

/-- The free value where it keeps the bound, and the truncated upper end otherwise, which keeps it. DEDUCED, assumption 25. -/
def chosen (fn : TFun) (c : Nat) (x : Encl) (tol : Int) : Nat :=
  let w := Config.transcendental fn c % (1 <<< 32)
  if withinBound x tol w then w else (fmtF32.round .rz false x.neg x.hi x.u).1

/-- FP32 result, flags, and whether it is an exact or special case. Below 2^-151 every positive value allows the codes that
2^-152 allows, +0, −0 and 2^-149. -/
def exp2F32 (c : Nat) : Nat × Flags5 × Bool :=
  match fval .f32 c with
  | .nan _ => (fmtF32.nanCode, 0, true)
  | .inf neg => (if neg then 0 else fmtF32.infCode, 0, true)
  | .fin neg m e =>
    let (i, frac) := roundToInt .rz neg m e
    if 128 ≤ i then (fmtF32.infCode, flOVF ||| flINX, true)
    else if !frac && decide (-149 ≤ i) then ((fmtF32.round .rn false false 1 i).1, 0, true)
    else if i < -151 then (chosen .exp2 c ⟨false, 1, 2, -152⟩ (-149), flINX, false)
    else let x := enclExp2 neg m e; (chosen .exp2 c x (ulpExp x), flINX, false)

def log2F32 (c : Nat) : Nat × Flags5 × Bool :=
  match fval .f32 c with
  | .nan _ => (fmtF32.nanCode, 0, true)
  | .inf neg => if neg then (fmtF32.nanCode, flINV, true) else (fmtF32.infCode, 0, true)
  | .fin neg m e =>
    if m = 0 then (fmtF32.withSign true fmtF32.infCode, flDZ, true)
    else if neg then (fmtF32.nanCode, flINV, true)
    else if m = 1 <<< Nat.log2 m then
      let i := e + (Nat.log2 m : Int)
      ((fmtF32.round .rn false (decide (i < 0)) i.natAbs 0).1, 0, true)
    else
      let x := enclLog2 m e
      let tol := if decide ((Nat.log2 x.hi : Int) + x.u < 0) then -24 else ulpExp x
      (chosen .log2 c x tol, flINX, false)

def tanhF32 (c : Nat) : Nat × Flags5 × Bool :=
  match fval .f32 c with
  | .nan _ => (fmtF32.nanCode, 0, true)
  | .inf neg => (fmtF32.withSign neg 0x3F800000, 0, true)
  | .fin neg m e =>
    if m = 0 then (fmtF32.withSign neg 0, 0, true)
    else if 10 ≤ (roundToInt .rz false m e).1 then (fmtF32.withSign neg 0x3F800000, flINX, false)
    else let x := enclTanh neg m e; (chosen .tanh c x (ulpExp x), flINX, false)

def transcF32 : TFun → Nat → Nat × Flags5 × Bool
  | .exp2, c => exp2F32 c
  | .log2, c => log2F32 c
  | .tanh, c => tanhF32 c

/-- One lane: evaluated at FP32 and rounded once to T (R191). DEDUCED, assumption 46: the underflow and overflow of R192
at the range of T are those of the special cases, which `vexp2` alone has. -/
def transcLane (fn : TFun) (t : Ty) (c : Nat) : Nat × Flags5 :=
  let c32 := (convertBits t .f32 .rn false c).1
  let (r, f, _) := transcF32 fn c32
  let (out, g) := if t = .f32 then (r, 0) else convertBits .f32 t .rn false r
  let F := tyFmt t
  let below := decide (out % (1 <<< F.signPos) < 1 <<< F.fb) && decide (out % (1 <<< F.signPos) ≠ 0)
  let unf := fn == .exp2 && (f &&& flINX) != 0 && below
  (out, f ||| (if fn == .exp2 then g else g &&& flINX) ||| (if unf then flUNF else 0))

end Sys2Proof.Machine
end

