-- ==== Sys2Proof/Machine/Ops.lean ====
section
/-! DEFINITION. The named operations over the state: frames and cubes, registers and taint, global memory, scratchpad
faces, results in flight, signals and semaphores, the log, and free values. -/

namespace Sys2Proof.Machine

/-! Parts of the state. -/

def State.cube (s : State) (c : CubeId) : Cube := s.cubes[c]
def State.setCube (s : State) (c : CubeId) (q : Cube) : State := { s with cubes := s.cubes.set c q }
def State.modCube (s : State) (c : CubeId) (g : Cube → Cube) : State := s.setCube c (g (s.cube c))
def Cube.frame (q : Cube) (f : FrameId) : Frame := q.frames[f]
def Cube.setFrame (q : Cube) (f : FrameId) (r : Frame) : Cube := { q with frames := q.frames.set f r }
def State.frame (s : State) (c : CubeId) (f : FrameId) : Frame := (s.cube c).frame f
def State.setFrame (s : State) (c : CubeId) (f : FrameId) (r : Frame) : State :=
  s.modCube c fun q => q.setFrame f r
def State.modFrame (s : State) (c : CubeId) (f : FrameId) (g : Frame → Frame) : State :=
  s.setFrame c f (g (s.frame c f))
/-- The frame whose bundles the current core issues. -/
def State.curF (s : State) : FrameId := (s.cube s.cur).running
def State.cf (s : State) : Frame := s.frame s.cur s.curF
def State.modCf (s : State) (g : Frame → Frame) : State := s.modFrame s.cur s.curF g
def State.modHub (s : State) (g : Hub → Hub) : State := { s with hub := g s.hub }
def State.modTeasel (s : State) (g : Teasel → Teasel) : State := { s with teasel := g s.teasel }

/-- All frames of the package. -/
def allFrames : List (CubeId × FrameId) :=
  [(0, 0), (0, 1), (1, 0), (1, 1), (2, 0), (2, 1), (3, 0), (3, 1)]
def allCubes : List CubeId := [0, 1, 2, 3]
def cubeOf (n : Nat) : CubeId := Fin.ofNat 4 n
def frameOf (n : Nat) : FrameId := Fin.ofNat 2 n

/-- A fresh free value and the state that has taken it. DESIGN CHOICE, assumption 2. -/
def State.take (s : State) : Word × State := (Config.free s.fresh, { s with fresh := s.fresh + 1 })

/-- Microseconds in cycles of 2.7 GHz. DESIGN CHOICE, assumption 7. -/
def usCycles (us : Nat) : Nat := us * 2700

/-! Bits and bytes. -/

/-- The little-endian value of bytes (R4). -/
def leVal : List Byte → Nat
  | [] => 0
  | b :: l => b.toNat + leVal l <<< 8
/-- The n low bytes of a value, lowest address first (R4). -/
def leBytes : Nat → Nat → List Byte
  | 0, _ => []
  | n + 1, v => BitVec.ofNat 8 v :: leBytes n (v >>> 8)
/-- Bits [lo + len − 1 : lo] of a number. -/
def bits (v lo len : Nat) : Nat := (v >>> lo) % (1 <<< len)
def w64 (n : Nat) : Word := BitVec.ofNat 64 n
def bnat (b : Bool) : Nat := if b then 1 else 0

/-! Global memory (R65, R84). -/

/-- What a byte that nothing has written reads as. DESIGN CHOICE, assumption 1. -/
def memDefault : Byte := 0
/-- A byte of storage. -/
def memByte (m : List Host.Cell) (a : Nat) : Byte := fget memDefault m a
def memSet (m : List Host.Cell) (a : Nat) (b : Byte) : List Host.Cell := fset memDefault m a b
/-- Bytes written at rising addresses. -/
def memSetList : List Host.Cell → Nat → List Byte → List Host.Cell
  | m, _, [] => m
  | m, a, b :: l => memSetList (memSet m a b) (a + 1) l
/-- The canonical form of the memory. -/
abbrev Memory.wf (m : List Host.Cell) : Prop := fwf memDefault m = true

/-- Whether a write covers a byte. -/
def MergeW.covers (w : MergeW) (a : Nat) : Bool := decide (w.pa ≤ a) && decide (a < w.pa + w.bytes.length)
/-- The latest accepted value of a byte: the youngest write in the merge buffers, or storage (R84). DEDUCED, assumption 87. -/
def mergedByte (s : State) (a : Nat) : Byte :=
  match s.merge.reverse.find? (·.covers a) with
  | some w => w.bytes.getD (a - w.pa) 0
  | none => memByte s.mem a
def mergedBytes (s : State) (a n : Nat) : List Byte := (List.range n).map fun i => mergedByte s (a + i)
def mergedVal (s : State) (a n : Nat) : Nat := leVal (mergedBytes s a n)
/-- The accepted writes that a read of n bytes takes its value from (R84). -/
def mergeDeps (s : State) (a n : Nat) : List Nat :=
  (s.merge.filter fun w => decide (w.pa < a + n) && decide (a < w.pa + w.bytes.length)).map (·.mid)

/-- An engine's or the hub's write takes effect at its home as one accepted and performed write: earlier accepted
writes of those bytes no longer show (R84). -/
def gWrite (s : State) (a : Nat) (l : List Byte) : State :=
  let n := l.length
  let cut := fun (w : MergeW) =>
    { w with bytes := (List.range w.bytes.length).map fun i =>
        let p := w.pa + i
        if decide (a ≤ p) && decide (p < a + n) then l.getD (p - a) 0 else w.bytes.getD i 0 }
  { s with mem := memSetList s.mem a l, merge := s.merge.map cut }
def gRead (s : State) (a n : Nat) : Nat := mergedVal s a n
def gWriteVal (s : State) (a n v : Nat) : State := gWrite s a (leBytes n v)

/-- Poison of the line that holds a byte (R76). -/
def poisoned (s : State) (a : Nat) : Bool := fget false s.poison (a / 64)
def setPoison (s : State) (a : Nat) (b : Bool) : State := { s with poison := fset false s.poison (a / 64) b }
/-- R77: a write that covers all 64 bytes of a line clears its poison. -/
def clearFull (s : State) (a n : Nat) : State :=
  if a % 64 = 0 ∧ n = 64 then setPoison s a false else s

/-- Package, local address, cube and population of a global physical address (R18, R65). -/
def paPkg (a : Nat) : Nat := bits a 42 10
def paLocal (a : Nat) : Nat := bits a 0 42
def localCube (l : Nat) : Nat := if l < 1 <<< 39 then bits l 37 2 else bits l 30 2
def paCube (a : Nat) : Nat := localCube (paLocal a)
def populated (l : Nat) : Bool :=
  decide (l < 1 <<< 39) ||
  (decide (1 <<< 39 ≤ l) && decide (l < (1 <<< 39) + (1 <<< 32)) && decide (bits l 0 30 < 0x30000000))
/-- The address-hash lane (R83). -/
def laneOf (a : Nat) : Nat := Nat.xor (Nat.xor (bits a 6 3) (bits a 9 3)) (bits a 12 2)
def homeOf (a : Nat) : Nat × Nat := (paPkg a, paCube a)

/-! Registers. -/

def Regs.rd (g : Regs) (f : File3) (r : Reg) : Word :=
  match f with
  | .x => g.x[r.toFin] | .y => g.y[r.toFin] | .a => g.a[r.toFin]
def Taints.rd (t : Taints) (f : File3) (r : Reg) : Taint :=
  match f with
  | .x => t.x[r.toFin] | .y => t.y[r.toFin] | .a => t.a[r.toFin]
def xyFile : XY → File3
  | .x => .x | .y => .y
def no3 : File3 → FileNo
  | .x => 0 | .y => 1 | .a => 2
def no5 : File5 → FileNo
  | .x => 0 | .y => 1 | .a => 2 | .v => 3 | .p => 4
/-- `p0` reads true (R163). -/
def Regs.pred (g : Regs) (p : Pred) : Bool := p = 0 || g.p.getLsbD p.toNat
/-- `p0` always carries the empty set (R90). -/
def Taints.pred (t : Taints) (p : Pred) : Taint := if p = 0 then 0 else t.p[p.toFin]
/-- The rotating region (R117). -/
def physV (k : Ctl) (v : VSpec) : Nat :=
  if v.toNat < k.wsize then (v.toNat + k.woff) % k.wsize else v.toNat
def Regs.rdV (g : Regs) (r : Nat) : VReg := fget 0 g.v r
def Taints.rdV (t : Taints) (r : Nat) : Taint := fget 0 t.v r

/-- A register written by file number and physical index (R322); a write to `p0` is discarded (R116). -/
def Regs.wr (g : Regs) (f : FileNo) (r : Nat) (v : VReg) : Regs :=
  match f with
  | 0 => { g with x := g.x.set (r % 32) (v.setWidth 64) (Nat.mod_lt _ (by decide)) }
  | 1 => { g with y := g.y.set (r % 32) (v.setWidth 64) (Nat.mod_lt _ (by decide)) }
  | 2 => { g with a := g.a.set (r % 32) (v.setWidth 64) (Nat.mod_lt _ (by decide)) }
  | 3 => { g with v := fset 0 g.v r v }
  | 4 => if r = 0 then g else
      { g with p := if v.getLsbD 0 then g.p ||| (1#16 <<< r) else g.p &&& ~~~(1#16 <<< r) }
  | _ => g
def Taints.wr (t : Taints) (f : FileNo) (r : Nat) (v : Taint) : Taints :=
  match f with
  | 0 => { t with x := t.x.set (r % 32) v (Nat.mod_lt _ (by decide)) }
  | 1 => { t with y := t.y.set (r % 32) v (Nat.mod_lt _ (by decide)) }
  | 2 => { t with a := t.a.set (r % 32) v (Nat.mod_lt _ (by decide)) }
  | 3 => { t with v := fset 0 t.v r v }
  | 4 => if r = 0 then t else { t with p := t.p.set (r % 16) v (Nat.mod_lt _ (by decide)) }
  | _ => t
/-- A register read by file number and physical index. -/
def Regs.rdNo (g : Regs) (f : FileNo) (r : Nat) : Nat :=
  match f with
  | 0 => (g.x[r % 32]'(Nat.mod_lt _ (by decide))).toNat
  | 1 => (g.y[r % 32]'(Nat.mod_lt _ (by decide))).toNat
  | 2 => (g.a[r % 32]'(Nat.mod_lt _ (by decide))).toNat
  | 3 => (g.rdV r).toNat
  | 4 => bnat (r = 0 || g.p.getLsbD r)
  | _ => 0
def Taints.rdNo (t : Taints) (f : FileNo) (r : Nat) : Taint :=
  match f with
  | 0 => t.x[r % 32]'(Nat.mod_lt _ (by decide))
  | 1 => t.y[r % 32]'(Nat.mod_lt _ (by decide))
  | 2 => t.a[r % 32]'(Nat.mod_lt _ (by decide))
  | 3 => t.rdV r
  | 4 => if r = 0 then 0 else t.p[r % 16]'(Nat.mod_lt _ (by decide))
  | _ => 0

/-- Every taint set of a task, the entries' wait sets excepted, through one function. -/
def Taints.mapAll (t : Taints) (g : Taint → Taint) : Taints :=
  { t with
    x := t.x.map g, y := t.y.map g, a := t.a.map g, p := t.p.map g, ct := g t.ct
    v := t.v.foldl (fun m e => fset 0 m e.1 (g e.2)) [] }

/-- The set of outstanding tags, S among them while it has been given (R89). -/
def Taints.outSet (t : Taints) : Taint := t.out.foldl (fun u e => u ||| (1#32 <<< e.2)) 0
/-- The lowest-numbered free tag, or 31 for the saturation mark (R89). -/
def Taints.freeTag (t : Taints) : Nat :=
  ((List.range 31).find? fun i => !(t.out.any fun e => e.2 = i)).getD 31

/-! Scratchpad faces (R68 to R72). -/

/-- The key of a face byte: layer, face and physical offset. -/
def faceKey (layer face off : Nat) : Nat := layer * (1 <<< 28) + face * (1 <<< 26) + off
def spLayer (a : Nat) : Nat := bits a 29 3
def spFace (a : Nat) : Nat := bits a 27 2
def spOff (a : Nat) : Nat := bits a 0 26
/-- The reservation of a task in a face (R69). -/
def Task.sizeOf (t : Task) (face : Nat) : Nat := t.size.toList.getD face 0
def Task.baseOf (t : Task) (layer face : Nat) : Nat := fget 0 t.base (4 * layer + face)
/-- The face key of a scratchpad address of a task. -/
def Task.key (t : Task) (a : Nat) : Nat :=
  faceKey (spLayer a) (spFace a) (t.baseOf (spLayer a) (spFace a) + spOff a)
/-- The face key of a scratchpad address of the frame's task. -/
def Frame.key (r : Frame) (a : Nat) : Nat := match r.task with | some t => t.key a | none => 0

def faceByte (q : Cube) (key : Nat) : Byte := fget 0 q.face key
def faceSet (q : Cube) (key : Nat) (b : Byte) : Cube := { q with face := fset 0 q.face key b }
def faceBytes (q : Cube) (key n : Nat) : List Byte := (List.range n).map fun i => faceByte q (key + i)
def faceSetList : Cube → Nat → List Byte → Cube
  | q, _, [] => q
  | q, a, b :: l => faceSetList (faceSet q a b) (a + 1) l
def facePoisoned (q : Cube) (key : Nat) : Bool := fget false q.poison (key / 64)
def setFacePoison (q : Cube) (key : Nat) (b : Bool) : Cube :=
  { q with poison := fset false q.poison (key / 64) b }
/-- A write of a run of face bytes inside lines; a whole line clears its poison (R77). -/
def faceWrite (q : Cube) (key : Nat) (l : List Byte) : Cube :=
  let q := faceSetList q key l
  if key % 64 = 0 then
    (List.range (l.length / 64)).foldl (fun q i => setFacePoison q (key + 64 * i) false) q
  else q

/-- The key of a spill granule: layer, state frame, granule (R72, R211). -/
def spillKey (layer frame gran : Nat) : Nat := layer * 512 + frame * 256 + gran
def spillOwner (key : Nat) : Nat := key / 256 % 2
/-- The face offset of a spill granule (R211). -/
def spillOff (frame gran : Nat) : Nat := 0x1FFF000 + 0x800 * frame + 8 * gran

/-- Layers in service for a frame's task (R10). -/
def layerIn (r : Frame) (z : Nat) : Bool := r.ctl.layers.getLsbD z
/-- The bank key of a physical face offset (R12). -/
def bankKey (layer face off : Nat) : Nat := layer * 256 + face * 64 + off / (1 <<< 20)
def bankGone (r : Frame) (layer face off : Nat) : Bool := r.banks.contains (bankKey layer face off)

/-! Log (R399). -/

/-- An entry is written to every function's ring that it concerns: package-wide events to all, a cube's to the function
of its partition; a ring keeps 4,096 entries, each with 40 bytes of payload. DESIGN CHOICE, assumption 61. -/
def logEvent (s : State) (code cube : Nat) (payload : List Word) : State :=
  let e : LogEnt := ⟨s.teasel.logSeq + 1, s.now / 2700, code, cube, payload.take 5⟩
  let hits := fun (p : Nat) =>
    cube = 255 || (match s.hub.parts[p]? with | some d => d.cubes.getLsbD cube | none => decide (p = 0))
  { s with teasel := { s.teasel with
      logSeq := s.teasel.logSeq + 1
      logs := Vector.ofFn fun p => if hits p.val then (e :: s.teasel.logs[p]).take 4096 else s.teasel.logs[p] } }

/-! Results in flight (R121, R322). -/

/-- The bits of `FMT` that its map names (R6, R222). -/
def fmtMask : BitVec 16 := 0xFCFF

def Frame.addLanding (r : Frame) (l : Landing) : Frame := { r with fl := { r.fl with land := r.fl.land ++ [l] } }

/-- A result of fixed latency n of the bundle at issue (R121). -/
def mkLanding (r : Frame) (file : FileNo) (reg : Nat) (n : Nat) (v : VReg) (t : Taint) (fl : Flags5 := 0) : Landing :=
  ⟨file, reg, v, t, fl, false, 0, false, r.issue.nb + n, none⟩

/-- Whether a register has a fixed-latency result pending. -/
def pendingFix (r : Frame) (f : FileNo) (g : Nat) : Bool := r.fl.land.any fun l => l.file = f && l.reg = g
/-- Whether a register has a variable-latency result pending (R122). -/
def pendingVar (r : Frame) (f : FileNo) (g : Nat) : Bool := r.fl.var.any fun l => l.file = f && l.reg = g

/-! Membership. -/

/-- The record of a partition's launch identifier. -/
def findRec (s : State) (part id : Nat) : Option Rec := s.hub.recs.find? fun r => r.part = part && r.id = id
def modRec (s : State) (part id : Nat) (g : Rec → Rec) : State :=
  s.modHub fun h => { h with recs := h.recs.map fun r => if r.part = part && r.id = id then g r else r }
def Rec.gang (r : Rec) (i : Nat) : Option Gang := r.gangs.find? (·.idx = i)
def modGang (s : State) (part id i : Nat) (g : Gang → Gang) : State :=
  modRec s part id fun r => { r with gangs := r.gangs.map fun x => if x.idx = i then g x else x }
/-- The frames that hold members of a gang. -/
def gangFrames (s : State) (part id i : Nat) : List (CubeId × FrameId) :=
  allFrames.filter fun (c, f) =>
    match (s.frame c f).task with
    | some t => t.part = part && t.launch = id && t.gang = i
    | none => false
def frameHolds (s : State) (c : CubeId) (f : FrameId) : Bool := (s.frame c f).task.isSome

end Sys2Proof.Machine
end

