-- ==== Sys2Proof/Machine/Signals.lean ====
section
/-! DEFINITION. Declared buffers (R73, R74), done flags and semaphores, resident or in the context block (R102 to R105,
R329), and barrier arrivals (R106, R220). -/

namespace Sys2Proof.Machine

/-! Buffers. -/

/-- Whether a run of n bytes at a face offset of a layer lies, in part, in a buffer (R73). -/
def Buf.touches (b : Buf) (layer face off n : Nat) : Bool :=
  let a := b.base.toNat
  spFace a = face && decide (spLayer a ≤ layer) && decide (layer ≤ spLayer a + b.nl)
    && decide (spOff a < off + n) && decide (off < spOff a + b.len)

/-- A run of bytes of the faces: layer, face, offset in the reservation, length. -/
abbrev Run := Nat × Nat × Nat × Nat

/-- The declared buffers that any of the runs touches. -/
def touched (r : Frame) (l : List Run) : List Nat :=
  (List.range 64).filter fun i =>
    match r.bufs.toList.getD i none with
    | some b => l.any fun (z, f, o, n) => b.touches z f o n
    | none => false

def Frame.buf (r : Frame) (i : Nat) : Option Buf := r.bufs.toList.getD i none
def Frame.setBuf (r : Frame) (i : Nat) (b : Option Buf) : Frame :=
  { r with bufs := r.bufs.set (i % 64) b (Nat.mod_lt _ (by decide)) }

/-- Events of the rows of R74 that an issuing bundle checks. -/
inductive BufEvent where
  | load | store | read | fill | toEmpty | toFull | free
deriving DecidableEq, Repr

/-- The row of R74 for a declared buffer: `none` is a fault; the inner option is `none` once undeclared. -/
def bufRow (e : BufEvent) (b : Buf) : Option (Option Buf) :=
  match e, b.st with
  | .load, .full => some (some b)
  | .load, .draining => some (some b)
  | .store, .empty => some (some b)
  | .store, .full => some (some b)
  | .read, .full => some (some { b with st := .draining, rd := 1 })
  | .read, .draining => if 255 ≤ b.rd then none else some (some { b with rd := b.rd + 1 })
  | .fill, .empty => some (some { b with st := .filling, fill := 1 })
  | .fill, .full => some (some { b with st := .filling, fill := 1 })
  | .fill, .filling => if 255 ≤ b.fill then none else some (some { b with fill := b.fill + 1 })
  | .toEmpty, .empty => some (some { b with st := .empty })
  | .toEmpty, .full => some (some { b with st := .empty })
  | .toFull, .empty => some (some { b with st := .full })
  | .toFull, .full => some (some { b with st := .full })
  | .free, .empty => some none
  | .free, .full => some none
  | .free, .lost => some none
  | _, _ => none

/-- The first touched buffer that refuses an event. -/
def bufFault (r : Frame) (e : BufEvent) (l : List Nat) : Option Nat :=
  l.find? fun i => match r.buf i with | some b => (bufRow e b).isNone | none => false

/-- The event applied to every touched buffer. -/
def bufApply (r : Frame) (e : BufEvent) (l : List Nat) : Frame :=
  l.foldl (fun r i => match r.buf i with
    | some b => (match bufRow e b with | some b' => r.setBuf i b' | none => r)
    | none => r) r

/-- Index and declaration of touched buffers. -/
def bufRefs (r : Frame) (l : List Nat) : List BufRef := l.map fun i => (i, match r.buf i with | some b => b.gen | none => 0)

/-- A read completes (R74). -/
def readDone (r : Frame) (l : List BufRef) : Frame :=
  l.foldl (fun r (i, g) => match r.buf i with
    | some b =>
      if b.gen = g ∧ b.st = .draining then
        r.setBuf i (some (if b.rd ≤ 1 then { b with st := .full, rd := 0 } else { b with rd := b.rd - 1 }))
      else r
    | none => r) r
/-- A fill completes (R74); a lost buffer stays lost. -/
def fillDone (r : Frame) (l : List BufRef) : Frame :=
  l.foldl (fun r (i, g) => match r.buf i with
    | some b =>
      if b.gen = g ∧ b.st = .filling then
        r.setBuf i (some (if b.fill ≤ 1 then { b with st := .full, fill := 0 } else { b with fill := b.fill - 1 }))
      else r
    | none => r) r

def BufSt.code : BufSt → Nat
  | .empty => 1 | .filling => 2 | .full => 3 | .draining => 4 | .lost => 5
/-- `TINFO(2)` of cause 7 (R317). -/
def bufInfo (r : Frame) (i : Nat) : Word :=
  match r.buf i with
  | some b => w64 (i + b.st.code <<< 8 + b.fill <<< 16 + b.rd <<< 24)
  | none => w64 i

/-! Where a task's semaphores stand (R35, R318, R329). -/

/-- Whether the frame's task counts as not resident: a handler runs, or the state stands in the block. -/
def Frame.away (r : Frame) : Bool := r.priv.lvl || r.issue.swapped

/-- Global physical address of a context block from `CTXPTR` (R313). -/
def ctxBase (s : State) (p : Word) : Nat := s.pkg <<< 42 + bits p.toNat 12 30 <<< 12

/-- Offsets in the context block (R330). -/
def offFlags : Nat := 0x68
def offCounts : Nat := 0x70
def offMsg : Nat := 0xB80
def offSem : Nat := 0x2C0
def offRefusal : Nat := 0x3C0

/-- Source codes of `TINFO(2)` of cause 8 (R317). -/
def refusalInfo (sem count ceil src : Nat) : Word := w64 (sem + count <<< 16 + ceil <<< 32 + src <<< 48)

/-- An addition to a semaphore of a resident task (R103, R104): refused above the ceiling, the first refusal kept. -/
def semAddFrame (r : Frame) (sem : BitVec 5) (n src : Nat) : Frame :=
  let c := r.sync.semc[sem.toFin].toNat
  let x := r.sync.semx[sem.toFin].toNat
  if x < c + n then
    { r with sync := { r.sync with
        refusal := r.sync.refusal <|> some (refusalInfo sem.toNat c x src, w64 n) } }
  else { r with sync := { r.sync with semc := r.sync.semc.set sem.toFin (BitVec.ofNat 16 (c + n)) } }

/-- The same on the context block in memory (R329). -/
def semAddBlock (s : State) (base : Nat) (sem : BitVec 5) (n src : Nat) : State :=
  let a := base + offSem + 8 * sem.toNat
  let v := gRead s a 8
  let c := bits v 0 16
  let x := bits v 16 16
  if x < c + n then
    if gRead s (base + offRefusal) 8 % 2 = 1 then s
    else
      let s := gWriteVal s (base + offRefusal) 8 1
      let s := gWriteVal s (base + offRefusal + 8) 8 (refusalInfo sem.toNat c x src).toNat
      gWriteVal s (base + offRefusal + 16) 8 n
  else gWriteVal s a 8 (v - c + (c + n))

/-- An addition to a semaphore of the task of a frame. -/
def semAdd (s : State) (c : CubeId) (f : FrameId) (sem : BitVec 5) (n src : Nat) : State :=
  let r := s.frame c f
  if r.task.isNone then s
  else if r.away then semAddBlock s (ctxBase s r.priv.ctxptr) sem n src
  else s.setFrame c f (semAddFrame r sem n src)

/-- Count and ceiling of a semaphore of a frame's task, where they stand (R103, R329). -/
def semRead (s : State) (c : CubeId) (f : FrameId) (sem : BitVec 5) : Nat × Nat :=
  let r := s.frame c f
  if r.away then
    let v := gRead s (ctxBase s r.priv.ctxptr + offSem + 8 * sem.toNat) 8
    (bits v 0 16, bits v 16 16)
  else (r.sync.semc[sem.toFin].toNat, r.sync.semx[sem.toFin].toNat)

/-- The subtraction of `semw` from a semaphore that exists in the block (R218, R329). -/
def semSub (s : State) (c : CubeId) (f : FrameId) (sem : BitVec 5) (n : BitVec 16) : State :=
  let a := ctxBase s (s.frame c f).priv.ctxptr + offSem + 8 * sem.toNat
  gWriteVal s a 8 (gRead s a 8 - n.toNat)

/-- The refused addition that stands for a frame's task (R104, R320, R330). -/
def refusalOf (s : State) (c : CubeId) (f : FrameId) : Option (Word × Word) :=
  let r := s.frame c f
  if r.away then
    let a := ctxBase s r.priv.ctxptr + offRefusal
    if gRead s a 8 % 2 = 1 then some (w64 (gRead s (a + 8) 8), w64 (gRead s (a + 16) 8)) else none
  else r.sync.refusal

/-- A done flag or semaphore named by SIG (R102, R129). -/
def signal (s : State) (c : CubeId) (f : FrameId) (sig : BitVec 6) (src : Nat) : State :=
  let k := sig.toNat
  if k < 8 then
    let r := s.frame c f
    if r.away then
      let a := ctxBase s r.priv.ctxptr + offFlags + 2
      gWriteVal s a 1 (Nat.lor (gRead s a 1) (1 <<< k))
    else s.setFrame c f { r with sync := { r.sync with df := r.sync.df ||| (1#8 <<< k) } }
  else if k < 40 then semAdd s c f (BitVec.ofNat 5 (k - 8)) 1 src
  else s

/-- The same at the completion of an operation of the context that runs in the frame: the flag that its WAIT reads is the
frame's, at level S too (R102, R319); the semaphores are the block's there (R329). -/
def signalOwn (s : State) (c : CubeId) (f : FrameId) (sig : BitVec 6) (src : Nat) : State :=
  let k := sig.toNat
  if k < 8 then s.modFrame c f fun r => { r with sync := { r.sync with df := r.sync.df ||| (1#8 <<< k) } }
  else signal s c f sig src

/-! Members and barriers. -/

def taskSrank (r : Frame) : Nat := bits r.ctl.taskid.toNat 42 6
def taskSsize (r : Frame) : Nat := bits r.ctl.taskid.toNat 36 6
def taskGsize (r : Frame) : Nat := bits r.ctl.taskid.toNat 48 2
/-- Whether a member handle names the task of the frame itself (R217). -/
def ownHandle (r : Frame) (w : Word) : Bool :=
  match r.task with
  | some t => bits w.toNat 8 6 = taskSrank r && bits w.toNat 0 2 = t.rank
  | none => true

/-- Where a member of a gang of this package stands. -/
inductive Member where
  | frame (c : CubeId) (f : FrameId)
  | block (base : Nat)
  | finished
deriving DecidableEq, Repr

/-- Record word i (R335). -/
def Rec.word (r : Rec) (i : Nat) : Nat := (r.words.getD i 0).toNat
/-- The pool's block j in this package (R337). -/
def Rec.block (s : State) (r : Rec) (j : Nat) : Nat := s.pkg <<< 42 + (r.word 9 / 4096) * 4096 + 0x22000 * j

/-- The block of a pre-empted member: where its `CTXPTR` pointed at its save, in the pool unless a handler moved it
(R313, R330, R337). -/
def parkedBlock (s : State) (r : Rec) (part launch gang rank i : Nat) : Nat :=
  match allCubes.findSome? fun c => (s.cube c).parked.find? fun p =>
      p.task.part = part && p.task.launch = launch && p.task.gang = gang && p.task.rank = rank with
  | some p => ctxBase s p.priv.ctxptr
  | none => r.block s i

def findMember (s : State) (part launch gang rank : Nat) : Member :=
  match (gangFrames s part launch gang).find? (fun (c, f) => match (s.frame c f).task with
    | some t => t.rank = rank
    | none => false) with
  | some (c, f) => .frame c f
  | none =>
    match findRec s part launch with
    | some r =>
      (match r.gang gang with
       | some g => if g.st = .preempted ∧ !g.doneR.contains rank then .block (parkedBlock s r part launch gang rank (g.ctxs.getD rank 0)) else .finished
       | none => .finished)
    | none => .finished

/-- `sems` of another task (R105, R217): an addition to a completed member is discarded. -/
def semAddMember (s : State) (m : Member) (sem : BitVec 5) (n src : Nat) : State :=
  match m with
  | .frame c f => semAdd s c f sem n src
  | .block b => semAddBlock s b sem n src
  | .finished => s

def Phase.same (p : Phase) (part launch gang : Nat) (k : BarKind) (bid : Nat) : Bool :=
  p.part = part && p.launch = launch && (p.gang = gang || k == .span) && p.kind = k && p.bid = bid

/-- The index of a barrier in a task's phase numbers: gang 0 to 15, span 16 to 31 (R330). -/
def barIdx (k : BarKind) (bid : Nat) : Nat := match k with | .gang => bid % 16 | .span => 16 + bid % 16

/-- A member takes a phase (R220). -/
def takePhase (s : State) (part launch gang : Nat) (k : BarKind) (bid ph : Nat) (m : Nat × Nat) : State :=
  s.modHub fun h =>
    if h.phases.any fun p => p.same part launch gang k bid && p.phase = ph then
      { h with phases := h.phases.map fun p =>
          if p.same part launch gang k bid && p.phase = ph then { p with taken := m :: p.taken } else p }
    else { h with phases := h.phases ++ [⟨part, launch, gang, k, bid, ph, [m], [], false⟩] }

/-- A member's arrival in a phase it took (R106, R220). -/
def arrive (s : State) (part launch gang : Nat) (k : BarKind) (bid ph : Nat) (m : Nat × Nat) : State :=
  s.modHub fun h =>
    let upd := fun (p : Phase) =>
      if p.same part launch gang k bid && p.phase = ph then { p with taken := p.taken.erase m, came := m :: p.came }
      else p
    { h with phases := h.phases.map upd }

/-- Whether a phase has ended; a phase the unit no longer lists is past. -/
def phaseEnded (s : State) (part launch gang : Nat) (k : BarKind) (bid ph : Nat) : Bool :=
  match s.hub.phases.find? (fun p => p.same part launch gang k bid && p.phase = ph) with
  | some p => p.ended
  | none => true

/-- Unended phases of a barrier in which a member has taken or made its arrival (R220). -/
def heldPhases (s : State) (part launch gang : Nat) (k : BarKind) (bid : Nat) (m : Nat × Nat) : Nat :=
  (s.hub.phases.filter fun p => p.same part launch gang k bid && !p.ended && (p.taken.contains m || p.came.contains m)).length

/-! Spans. -/

/-- The packages that a record's PKG string names for span ranks 0 to S − 1 (R46, R335). -/
def spanPkgs (k : Rec) : List Nat :=
  let str := leVal ((k.words.drop 16).flatMap fun w => leBytes 8 w.toNat)
  (List.range (bits (k.word 0) 42 6 + 1)).map fun i => bits str (10 * i) 10

/-- The package of span rank i of a task's record; this package where the record names none. -/
def spanPkg (s : State) (r : Frame) (i : Nat) : Nat :=
  match r.task with
  | some t => (match findRec s t.part t.launch with | some k => (spanPkgs k).getD i s.pkg | none => s.pkg)
  | none => s.pkg

/-- A launch identifier counts per partition of its home (R341, R352). Here a record of another home stands under its
home's package and identifier together, and requests between packages name every record so. DESIGN CHOICE, assumption 33. -/
def idBits : Nat := 1 <<< 64
def awayId (home id : Nat) : Nat := (home + 1) <<< 64 + id
def wireId (s : State) (id : Nat) : Nat := if id < idBits then awayId s.pkg id else id
def ownId (s : State) (w : Nat) : Nat := if w >>> 64 = s.pkg + 1 then w % idBits else w

/-- Whether a request of a cube may leave for a package: the port of its lane is up (R365, R366). -/
def portUp (s : State) (c : CubeId) (pkg lane : Nat) : Bool :=
  let q := s.cube c
  pkg = s.pkg || !q.fab.deadPorts.contains (q.fab.pmap.toList.getD (lane % 8) 0).toNat
def laneUp (s : State) (c : CubeId) (a : Nat) : Bool := portUp s c (paPkg a) (laneOf a)

/-- A request leaves on its lane's port of its own cube, or waits there while that port is down (R18, R365, R366). -/
def post (s : State) (q : RemoteReq) : State :=
  s.modHub fun h =>
    if portUp s q.srcCube q.dstPkg q.lane.toNat then { h with outbox := h.outbox ++ [q] } else { h with held := h.held ++ [q] }
/-- Requests that waited for a port leave once their lane has one (R366). -/
def postHeld (s : State) : State :=
  let up := fun (q : RemoteReq) => portUp s q.srcCube q.dstPkg q.lane.toNat
  s.modHub fun h => { h with outbox := h.outbox ++ h.held.filter up, held := h.held.filter fun q => !up q }
/-- A vendor-defined request to another package (R363). DESIGN CHOICE, assumption 15. -/
def sendFar (s : State) (part : Nat) (c : CubeId) (pkg lane : Nat) (m : RemoteKind) (tag : Option ReqTag := none) : State :=
  let fp : BitVec 12 := match s.hub.parts[part]? with | some d => d.fpid | none => 0
  post s ⟨s.pkg, c, fp, pkg, 0, BitVec.ofNat 3 lane, tag, m⟩
/-- What a refusal of an operation's request is to name (R361). -/
def reqTag (r : Frame) (info : OpInfo) (op : Nat) (va : Word) : Option ReqTag :=
  r.task.map fun t => ⟨t.part, t.launch, t.gang, t.rank, r.ctl.taskid, r.priv.lvl, op, info.pc, info.bits, info.slot, va⟩
/-- A read, write or atomic at another package's memory is a request of this cube, for at most one 64-byte line (R363). The
model's memory stands for that package's. DESIGN CHOICE, assumption 15. -/
def wire (s : State) (c : CubeId) (f : FrameId) (a : Nat) (info : OpInfo) (op : Nat) (va : Word) (m : RemoteKind) : State :=
  if paPkg a = s.pkg then s
  else
    let r := s.frame c f
    let fp : BitVec 12 := match r.task with
      | some t => (match s.hub.parts[t.part]? with | some d => d.fpid | none => 0)
      | none => 0
    post s ⟨s.pkg, c, fp, paPkg a, BitVec.ofNat 42 (paLocal a), BitVec.ofNat 3 (laneOf a), reqTag r info op va, m⟩
/-- The cube whose ports a partition's scheduler uses: its lowest (R18). DESIGN CHOICE, assumption 33. -/
def partCube (s : State) (part : Nat) : CubeId :=
  match s.hub.parts[part]? with
  | some d => (allCubes.find? fun c => d.cubes.getLsbD c.val).getD 0
  | none => 0
/-- A request of a cube to every other package of a record's span (R363). -/
def tellSpan (s : State) (part : Nat) (c : CubeId) (k : Rec) (m : RemoteKind) (tag : Option ReqTag := none) : State :=
  let others := if bits (k.word 0) 0 2 = 1 then (spanPkgs k).filter (· ≠ s.pkg) else []
  others.foldl (fun s p => sendFar s part c p 0 m tag) s

/-- A member's arrival at a barrier by an operation; one at a span's barrier is told to the span's other packages (R106,
R220, R363). -/
def arriveAll (s : State) (c : CubeId) (f : FrameId) (info : OpInfo) (op : Nat) (k : BarKind) (bid ph : Nat) : State :=
  let r := s.frame c f
  match r.task with
  | none => s
  | some t =>
    let s := arrive s t.part t.launch t.gang k bid ph (taskSrank r, t.rank)
    match k, findRec s t.part t.launch with
    | .span, some q => tellSpan s t.part c q (.spanArrive (wireId s t.launch) (BitVec.ofNat 4 bid) ph (taskSrank r) t.rank)
        (reqTag r info op 0)
    | _, _ => s

/-- An engine operation's arrival at its completion (R100, R220): the barrier index and phase it took. -/
def engineArrive (s : State) (c : CubeId) (f : FrameId) (info : OpInfo) (op : Nat) (b : Option (Nat × Nat)) : State :=
  match b with
  | some (i, ph) => arriveAll s c f info op (if i < 16 then .gang else .span) (i % 16) ph
  | none => s

end Sys2Proof.Machine
end

