-- ==== Sys2Proof/Machine/Translate.lean ====
section
/-! DEFINITION. Address spaces, page tables, TLBs, pin tables and the checks on requests of other packages (R353 to
R361, R372). -/

namespace Sys2Proof.Machine

/-- What an access needs of its page (R357). -/
structure Need where
  r : Bool := false
  w : Bool := false
  x : Bool := false
deriving DecidableEq, Repr

def partOf (s : State) (p : Nat) : Option Part := s.hub.parts[p]?
/-- The partition that owns a cube (R370). -/
def cubePart (s : State) (c : Nat) : Option Nat := (List.range s.hub.parts.length).find? fun p =>
  match s.hub.parts[p]? with | some d => d.cubes.getLsbD c | none => false

/-- A local address is populated and in a partition's own cubes. -/
def inPart (d : Part) (l : Nat) : Bool := populated l && d.cubes.getLsbD (localCube l)

/-- The levels of a walk after the root: low bit of the index, its width, whether a leaf may stand there (R354). -/
def walkLevels : List (Nat × Nat × Bool) :=
  [(48, 8, false), (39, 9, false), (30, 9, true), (21, 9, true), (16, 5, true)]

/-- Why a walk fails: the reason of R356, the level and the local address of the entry it failed at, and whether its
line was poisoned. -/
structure WalkFail where
  reason : Nat
  level  : Nat
  ent    : Nat
  bad    : Bool
deriving DecidableEq, Repr

/-- A walk from a table: the leaf, or why it fails (R354, R355, R356). -/
def walkFrom (s : State) (d : Part) (part : Nat) (asid : BitVec 16) (va : Nat) :
    List (Nat × Nat × Bool) → Nat → Except WalkFail TlbEnt
  | [], tab => .error ⟨0, 5, tab, false⟩
  | (lo, len, leaf) :: rest, tab =>
    let ent := tab + 8 * bits va lo len
    let fail := fun reason => Except.error (⟨reason, 4 - rest.length, ent, false⟩ : WalkFail)
    if !inPart d ent then fail 4
    else
      let pa := s.pkg <<< 42 + ent
      let e := gRead s pa 8
      if poisoned s pa then .error ⟨0, 4 - rest.length, ent, true⟩
      else if e % 2 = 0 ∨ bits e 52 12 ≠ 0 ∨ bits e 5 3 ≠ 0 then fail 0
      else if Nat.testBit e 1 then
        if rest = [] ∨ bits e 42 10 ≠ 0 ∨ bits e 2 3 ≠ 0 then fail 0
        else
          let next := bits e 16 26 <<< 16 + bits e 8 8 <<< 8
          if !inPart d next then fail 4 else walkFrom s d part asid va rest next
      else if !leaf ∨ bits e 8 8 ≠ 0 ∨ bits e 16 36 <<< 16 % (1 <<< lo) ≠ 0 then fail 0
      else .ok ⟨part, asid, va >>> lo, lo, bits e 16 36 <<< 16, Nat.testBit e 2, Nat.testBit e 3, Nat.testBit e 4⟩

/-- The table entry of an ASID, when registered: its ROOT (R353). -/
def asidRoot (s : State) (d : Part) (asid : BitVec 16) : Option Nat :=
  let a := s.pkg <<< 42 + d.asidtab + 16 * asid.toNat
  let w0 := gRead s a 8
  let w1 := gRead s (a + 8) 8
  if w0 % 2 = 1 ∧ bits w0 1 7 = 0 ∧ bits w0 42 22 = 0 ∧ w1 = 0 then some (bits w0 8 34 <<< 8) else none

/-- A whole walk (R353, R356). An address with a nonzero bit [63:56] has reason 2 (R64, R317), and one in the scratchpad
window is never walked: it has no translation, reason 0 (R64, R354). DESIGN CHOICE, assumption 80. -/
def walk (s : State) (part : Nat) (asid : BitVec 16) (va : Nat) : Except WalkFail TlbEnt :=
  match partOf s part with
  | none => .error ⟨0, 0, 0, false⟩
  | some d =>
    if va >>> 56 ≠ 0 then .error ⟨2, 0, 0, false⟩
    else if bits va 48 8 = 0xFF then .error ⟨0, 0, 0, false⟩
    else
      match asidRoot s d asid with
      | none => .error ⟨0, 0, d.asidtab + 16 * asid.toNat, false⟩
      | some root => walkFrom s d part asid va walkLevels root

def TlbEnt.hits (e : TlbEnt) (part : Nat) (asid : BitVec 16) (va : Nat) : Bool :=
  e.part = part && e.asid = asid && e.page = va >>> e.lg

def TlbEnt.allows (e : TlbEnt) (n : Need) : Bool := (!n.r || e.r) && (!n.w || e.w) && (!n.x || e.x)
def TlbEnt.addr (e : TlbEnt) (va : Nat) : Nat := e.pa + va % (1 <<< e.lg)

/-- The first-level TLB of a source, and the entries it holds (R358). -/
def Tlb.first (t : Tlb) : Stream → List TlbEnt
  | .fetch => t.fetch | .ls => t.ls | .copy => t.copy | .msg => t.msg | .cube => t.cube | .nm => t.nm
def tlbSize : Stream → Nat
  | .fetch => 16 | .ls => 64 | .copy => 64 | .msg => 32 | .cube => 32 | .nm => 32
def Tlb.setFirst (t : Tlb) (src : Stream) (l : List TlbEnt) : Tlb :=
  match src with
  | .fetch => { t with fetch := l } | .ls => { t with ls := l } | .copy => { t with copy := l }
  | .msg => { t with msg := l } | .cube => { t with cube := l } | .nm => { t with nm := l }

/-- The entry that translates an address for a source: its first level's, the last level's, or a walk's (R358, R359). -/
def lookup (s : State) (c : CubeId) (part : Nat) (asid : BitVec 16) (va : Nat) (src : Stream) : Except WalkFail TlbEnt :=
  let t := (s.cube c).tlb
  match (t.first src).find? (·.hits part asid va) <|> t.last.find? (·.hits part asid va) with
  | some e => .ok e
  | none => walk s part asid va

/-- The translated address with the checks of R356 and R357, or the reason of cause 10. -/
def translate (s : State) (c : CubeId) (part : Nat) (asid : BitVec 16) (n : Need) (va : Nat) (src : Stream := .ls) :
    Except Nat Nat :=
  match lookup s c part asid va src with
  | .error k => .error k.reason
  | .ok e =>
    if !e.allows n then .error 1
    else
      let a := e.addr va
      if paPkg a = s.pkg then
        match partOf s part with
        | some d => if inPart d (paLocal a) then .ok a else .error 4
        | none => .error 4
      else .ok a

/-- The address space in force for a frame: ASID 0 at level S (R353). -/
def Frame.asid (r : Frame) : BitVec 16 := if r.priv.lvl then 0 else match r.task with | some t => t.asid | none => 0
def Frame.part (r : Frame) : Nat := match r.task with | some t => t.part | none => 0
/-- Translation for the task of a frame, by default of its LS queue. -/
def translateF (s : State) (c : CubeId) (f : FrameId) (n : Need) (va : Nat) (src : Stream := .ls) : Except Nat Nat :=
  let r := s.frame c f
  translate s c r.part r.asid n va src

/-- Event 0x52: a walk that read a poisoned line, with partition, ASID, level, entry and address (R356). -/
def logFail (s : State) (c part : Nat) (asid : BitVec 16) (va : Nat) (w : Except WalkFail TlbEnt) : State :=
  match w with
  | .error k => if k.bad then logEvent s 0x52 c [w64 part, asid.setWidth 64, w64 k.level, w64 k.ent, w64 va] else s
  | .ok _ => s
/-- The log of a translation for the task of a frame (R356). -/
def logWalk (s : State) (c : CubeId) (f : FrameId) (src : Stream) (va : Nat) : State :=
  let r := s.frame c f
  logFail s c.val r.part r.asid va (lookup s c r.part r.asid va src)

/-- The entry number of a local address in a pin table (R360). -/
def pinIndex (l : Nat) : Nat := if l < 1 <<< 39 then bits l 16 23 else (1 <<< 23) + bits l 16 16
/-- The pin code of a page: 0 not pinned, 1 reads, 3 reads and writes; 2 is read as 0 (R360). -/
def pinCode (s : State) (pkg tab l : Nat) : Nat :=
  let e := pinIndex l
  let k := bits (gRead s (pkg <<< 42 + tab + e / 4) 1) (2 * (e % 4)) 2
  if k = 2 then 0 else k

/-- The check of a request at its target package (R361): the reason of cause 11 where it fails. -/
def targetCheck (s : State) (fpid : BitVec 12) (a : Nat) (write : Bool) : Option Nat :=
  let l := paLocal a
  let rest := fun (own : BitVec 12) (tab : Nat) =>
    if own ≠ fpid then some 1
    else
      let k := pinCode s (paPkg a) tab l
      if k = 0 then some 0 else if write ∧ k ≠ 3 then some 1 else none
  if !populated l then some 4
  else if paPkg a = s.pkg then
    match cubePart s (localCube l) with
    | some p => (match partOf s p with | some d => rest d.fpid d.pintab | none => some 4)
    | none => some 4
  else
    match s.hub.remotes.find? (·.pkg = paPkg a) with
    | some m => rest m.fpid m.pintab
    | none => some 4

def fpidOf (s : State) (part : Nat) : BitVec 12 := match partOf s part with | some d => d.fpid | none => 0

/-- The partition whose fabric identifier a request carries. -/
def partOfFpid (s : State) (fp : BitVec 12) : Option Nat :=
  (List.range s.hub.parts.length).find? fun p => fpidOf s p = fp

/-- An access to another package is checked there; one at home is not (R361). -/
def accessCheck (s : State) (part : Nat) (a : Nat) (write : Bool) : Option Nat :=
  if paPkg a = s.pkg then none else targetCheck s (fpidOf s part) a write

/-- An entry put into a TLB of n entries, once; the oldest goes (R358). DESIGN CHOICE, assumption 12. -/
def tlbPut (n : Nat) (e : TlbEnt) (l : List TlbEnt) : List TlbEnt := (e :: l.filter (· ≠ e)).take n
/-- A translation fills the first level of its source and the last level (R358). -/
def tlbFill (q : Cube) (src : Stream) (e : TlbEnt) : Cube :=
  let t := q.tlb.setFirst src (tlbPut (tlbSize src) e (q.tlb.first src))
  { q with tlb := { t with last := tlbPut 2048 e t.last } }

/-- Entries that an invalidation names leave every TLB (R275, R359). -/
def tlbDrop (q : Cube) (p : TlbEnt → Bool) : Cube :=
  let g := fun (l : List TlbEnt) => l.filter fun e => !p e
  let t := q.tlb
  { q with tlb := ⟨g t.fetch, g t.ls, g t.copy, g t.msg, g t.cube, g t.nm, g t.last⟩ }

/-- The scope's homes (R80). -/
def inScope (s : State) (r : Frame) (c : CubeId) (sc : Scope) (home : Nat × Nat) : Bool :=
  match sc with
  | .cube => home.1 = s.pkg && home.2 = c.val
  | .pkg => home.1 = s.pkg
  | .span =>
    home.1 = s.pkg ||
    (match r.task with
     | some t => (match findRec s t.part t.launch with
        | some k => decide (1 ≤ taskSsize r) &&
            (List.range (taskSsize r + 1)).any fun i =>
              bits (leVal ((k.words.drop 16).flatMap fun w => leBytes 8 w.toNat)) (10 * i) 10 = home.1
        | none => false)
     | none => false)
  | .sys => true

end Sys2Proof.Machine
end

