-- ==== Sys2Proof/Machine/Access.lean ====
section
/-! DEFINITION. Global accesses of a task: when an entry of the load/store queue or a `putf` is sent, what its home
does, when it performs and what that releases (R79 to R91, R201 to R207, R264, R361, R405). -/

namespace Sys2Proof.Machine

/-! Tags. -/

/-- A taint set after a tag has been released: its bit goes, and S with the last outstanding load (R89, R95). -/
def dropTag (tag : Nat) (last : Bool) (t : Taint) : Taint :=
  let t := if tag < 31 then t &&& ~~~(1#32 <<< tag) else t
  if last then t &&& 0x7FFFFFFF else t

def LsEnt.mapWait (g : Taint → Taint) (e : LsEnt) : LsEnt := { e with wait := g e.wait }
def CubeEnt.mapWait (g : Taint → Taint) (e : CubeEnt) : CubeEnt := { e with wait := g e.wait }
def CopyEnt.mapWait (g : Taint → Taint) (e : CopyEnt) : CopyEnt := { e with wait := g e.wait }
def MsgAct.mapWait (g : Taint → Taint) (e : MsgAct) : MsgAct := { e with wait := g e.wait }

/-- Every wait set of entries in queues and in flight. -/
def Flight.mapWait (g : Taint → Taint) (x : Flight) : Flight :=
  { x with
    ls := x.ls.map (·.mapWait g), fly := x.fly.map (·.mapWait g), cubeQ := x.cubeQ.map (·.mapWait g)
    cubeA := x.cubeA.map (·.mapWait g), copyQ := x.copyQ.map (·.mapWait g), copyA := x.copyA.map (·.mapWait g)
    msgs := x.msgs.map (·.mapWait g) }

/-- A tracked load gives its tag back (R89, R95). -/
def releaseTag (r : Frame) (id : Nat) : Frame :=
  match r.taint.out.find? (·.1 = id) with
  | none => r
  | some (_, tag) =>
    let out := r.taint.out.filter fun e => e.1 ≠ id
    let shared := out.any fun e => e.2 = tag
    let g := dropTag (if shared then 31 else tag) out.isEmpty
    { r with taint := { r.taint.mapAll g with out := out }, fl := r.fl.mapWait g }

/-- A tracked load takes the lowest free tag, or S (R89). -/
def takeTag (r : Frame) (id : Nat) : Nat × Frame :=
  let tag := r.taint.freeTag
  (tag, { r with taint := { r.taint with out := r.taint.out ++ [(id, tag)] } })

/-- The taint that a value lands with: what is still outstanding of it, a tag given out again among it (R89, R123, R126).
DEDUCED, assumption 89. -/
def liveTaint (r : Frame) (t : Taint) : Taint :=
  let o := r.taint.outSet
  (t &&& o &&& 0x7FFFFFFF) ||| (if r.taint.out.isEmpty then 0 else t &&& 0x80000000)

/-! Homes of earlier accesses. -/

def LsOp.need : LsOp → Need
  | .gld .. | .gvld .. | .gpf | .drain .. => { r := true }
  | .gst | .gvst => { w := true }
  | .atom .. => { r := true, w := true }
def LsOp.isDrain : LsOp → Bool
  | .drain .. => true | _ => false
def LsOp.isGpf : LsOp → Bool
  | .gpf => true | _ => false
def LsOp.writes : LsOp → Bool
  | .gst | .gvst | .atom .. => true | _ => false
def LsOp.isLoad : LsOp → Bool
  | .gld .. | .gvld .. => true | _ => false
def LsOp.isAtom : LsOp → Bool
  | .atom .. => true | _ => false

/-- The global address of a line: as sent, or as it translates now. -/
def linePa (s : State) (c : CubeId) (f : FrameId) (n : Need) (l : Line) : Option Nat :=
  match l.pa with
  | some a => some a
  | none => match translateF s c f n l.va.toNat with | .ok a => some a | .error _ => none

/-- Earlier accesses of the task that have not performed and that a release or `drain` waits for: loads, stores,
atomics and `putf`; an address not translated has no known home and is waited for (R86, R405). -/
def earlierPending (s : State) (c : CubeId) (f : FrameId) (id : Nat) (loads : Bool) (sc : Nat × Nat → Bool) : Bool :=
  let r := s.frame c f
  let lsWait := fun (e : LsEnt) =>
    decide (e.id < id) && !e.op.isDrain && !e.op.isGpf && (loads || e.op.writes) &&
    e.lines.any fun l => l.st != .performed &&
      (match linePa s c f e.op.need l with | some a => sc (homeOf a) | none => true)
  let cpWait := fun (e : CopyEnt) =>
    decide (e.id < id) &&
    match e.op with
    | .putf adr _ =>
      (match e.line with
       | some l => l.st != .performed && (match l.pa with | some a => sc (homeOf a) | none => true)
       | none => (match translateF s c f { w := true } adr.toNat .copy with | .ok a => sc (homeOf a) | .error _ => true))
    | _ => false
  (r.fl.wdLs ++ r.fl.ls ++ r.fl.fly).any lsWait || (r.fl.copyQ ++ r.fl.copyA).any cpWait

/-- Earlier near-memory commands still under way (R87). -/
def earlierNmc (r : Frame) (id : Nat) : Bool :=
  (r.fl.copyQ ++ r.fl.copyA).any fun e => decide (e.id < id) && match e.op with | .nmc .. => true | _ => false

/-- Whether a `drain` has nothing left to wait for (R86, R87). -/
def drainDone (s : State) (c : CubeId) (f : FrameId) (e : LsEnt) : Bool :=
  match e.op with
  | .drain .nm => !earlierNmc (s.frame c f) e.id
  | .drain (.scope sc) => !earlierPending s c f e.id true (inScope s (s.frame c f) c sc)
  | _ => true

/-- Whether every `drain` before an access of the task lets it go; `lsOnly` are the accesses `drain.nm` holds. -/
def drainsOpen (s : State) (c : CubeId) (f : FrameId) (id : Nat) (lsOnly : Bool) : Bool :=
  (s.frame c f).fl.ls.all fun e =>
    !(decide (e.id < id) && e.op.isDrain) || drainDone s c f e ||
    (match e.op with | .drain .nm => !lsOnly | _ => false)

/-- The taint rule (R91): every tag of the wait set released; with S, every earlier tracked load performed. -/
def waitOver (r : Frame) (id : Nat) (w : Taint) : Bool :=
  w &&& 0x7FFFFFFF = 0 && (!w.getLsbD 31 || r.taint.out.all fun e => decide (id ≤ e.1))

/-- Every earlier entry of the queue translates (R204). -/
def earlierTranslate (s : State) (c : CubeId) (f : FrameId) (id : Nat) : Bool :=
  (s.frame c f).fl.ls.all fun e =>
    !decide (e.id ≤ id) || e.op.isDrain || e.op.isGpf || e.lines.all fun l => (linePa s c f e.op.need l).isSome

/-- Lane order (R83): no earlier access of the source to that home and lane stands unsent, and for a read or atomic
none sent but not accepted. The words of one line of one access stand in no order (R85). -/
def laneFree (s : State) (c : CubeId) (f : FrameId) (id line : Nat) (a : Nat) : Bool :=
  let r := s.frame c f
  let clash := fun (e : LsEnt) =>
    (e.lines.zipIdx.any fun (l, i) =>
      (decide (e.id < id) || (e.id = id && decide (i < line))) && (l.st = .queued || l.st = .sent) &&
      (match linePa s c f e.op.need l with
       | some b => homeOf b = homeOf a && laneOf b = laneOf a && !(e.id = id && b / 64 = a / 64)
       | none => true))
  !((r.fl.ls ++ r.fl.fly).any fun e => !e.op.isDrain && !e.op.isGpf && clash e)

/-- A line or word of an access that waits to be sent. -/
def lineAt (va : Word) (n : Nat) : Line := ⟨va, n, none, .queued, 0, [], false⟩

/-- Bytes of a loaded value in its register form (R196). -/
def loadValue (t : Ty) (v : Nat) : VReg :=
  if t.signed then (BitVec.ofNat 64 (lowBits 64 (toSigned t.width v))).setWidth 2048
  else BitVec.ofNat 2048 (v % (1 <<< t.width))

def modLs (r : Frame) (id : Nat) (g : LsEnt → LsEnt) : Frame :=
  { r with fl := { r.fl with
      ls := r.fl.ls.map fun e => if e.id = id then g e else e
      fly := r.fl.fly.map fun e => if e.id = id then g e else e } }
def setLine (e : LsEnt) (i : Nat) (g : Line → Line) : LsEnt :=
  { e with lines := e.lines.zipIdx.map fun (l, j) => if j = i then g l else l }
/-- An entry all of whose lines have left the queue is in flight. -/
def settle (r : Frame) : Frame :=
  let out := fun (e : LsEnt) => !e.op.isDrain && !e.op.isGpf && e.lines.all (·.st != .queued)
  { r with fl := { r.fl with
      fly := (r.fl.fly ++ r.fl.ls.filter out).filter fun e => !(e.lines.all (·.st = .performed) && !e.op.isLoad && !e.op.isAtom)
      ls := r.fl.ls.filter fun e => !out e } }

/-- The value of a load whose lines are all bound. -/
def boundValue (e : LsEnt) : Option (VReg × Option Nat) :=
  if e.lines.all fun l => l.st != .queued && l.st != .sent then
    let bad := (e.lines.find? (·.bad)).bind (·.pa)
    match e.op with
    | .gld _ t _ => some (loadValue t ((e.lines.headD ⟨0, 0, none, .queued, 0, [], false⟩).val), bad)
    | .gvld _ => some (BitVec.ofNat 2048 (leVal (e.lines.flatMap fun l => leBytes l.n l.val)), bad)
    | .atom .. => some (BitVec.ofNat 2048 ((e.lines.headD ⟨0, 0, none, .queued, 0, [], false⟩).val), bad)
    | _ => none
  else none

/-- The value of an entry, once bound, waits at its pending result (R122). -/
def deliver (r : Frame) (id : Nat) : Frame :=
  match (r.fl.ls ++ r.fl.fly).find? (·.id = id) with
  | some e =>
    (match boundValue e with
     | some (v, bad) =>
       { r with fl := { r.fl with var := r.fl.var.map fun x =>
           if x.id = id then { x with val := some (v, 0, bad) } else x } }
     | none => r)
  | none => r

/-- A word of a load, or a line of a cube operand, is read at its home: the latest accepted write, in the merge buffer
or storage (R84, R85); its line's poison counts, also where an accepted write that is yet to perform covers the whole line.
DEDUCED, assumption 10. DESIGN CHOICE, assumption 96. -/
def bindLine (s : State) (a : Nat) (l : Line) : Line :=
  { l with pa := some a, st := .accepted, val := gRead s a l.n, deps := mergeDeps s a l.n, bad := poisoned s a }

/-- The bytes that a word of a store writes. -/
def storeBytes (e : LsEnt) (l : Line) : List Byte := leBytes l.n (e.data.toNat >>> (8 * (l.va - e.ea).toNat))

/-- The request that the first word sent of a 64-byte line makes of another package: a read of the line, a write of the
entry's bytes of it, an atomic (R363). -/
def lineReq (s : State) (c : CubeId) (f : FrameId) (e : LsEnt) (l : Line) (a : Nat) : State :=
  let mine := e.lines.filter fun x => x.va.toNat / 64 = l.va.toNat / 64
  if mine.any (·.st != .queued) then s
  else
    let base := a / 64 * 64
    match e.op with
    | .gld .. | .gvld .. => wire s c f base e.info e.id l.va (.read 64)
    | .gst | .gvst =>
      let lo := mine.foldl (fun n x => min n (x.va.toNat % 64)) 63
      wire s c f (base + lo) e.info e.id l.va (.write (mine.flatMap (storeBytes e)))
    | .atom op _ _ sz _ _ cmp src => wire s c f a e.info e.id l.va (.atomic op (BitVec.ofNat 2 sz) cmp src)
    | _ => s

/-- Sending of one line of a load/store entry (R83 to R91); not enabled, nothing happens. -/
def sendLs (s : State) (c : CubeId) (f : FrameId) (e : LsEnt) (i : Nat) : State :=
  let r := s.frame c f
  match e.op with
  | .drain _ =>
    if drainDone s c f e then s.setFrame c f { r with fl := { r.fl with ls := r.fl.ls.filter (·.id ≠ e.id) } } else s
  | .gpf =>
    if waitOver r e.id e.wait ∧ drainsOpen s c f e.id true then
      logWalk (s.setFrame c f { r with fl := { r.fl with ls := r.fl.ls.filter (·.id ≠ e.id) } }) c f .ls e.ea.toNat
    else s
  | _ =>
    match e.lines[i]? with
    | none => s
    | some l =>
      match linePa s c f e.op.need l with
      | none => s
      | some a =>
        let rel : Bool := match e.op with
          | .atom _ sco _ _ _ _ _ _ => !earlierPending s c f e.id true (inScope s r c sco)
          | _ => true
        if l.st = .queued ∧ waitOver r e.id e.wait ∧ drainsOpen s c f e.id true ∧ earlierTranslate s c f e.id
            ∧ laneFree s c f e.id i a ∧ laneUp s c a ∧ rel ∧ accessCheck s r.part a e.op.writes = none then
          let g := if e.op.isLoad then bindLine s a else fun l => { l with pa := some a, st := .sent }
          lineReq (s.setFrame c f (settle (deliver (modLs r e.id fun e => setLine e i g) e.id))) c f e l a
        else s

/-- A cube's core clock stands: queued work does not start (R383). -/
def clockStands (s : State) (c : CubeId) : Bool := (s.cube c).camp.trip.isSome || (s.cube c).fab.coreOff

/-- Whether a copy-queue entry is at the head and nothing withdrawn or due holds the queue (R125, R255). -/
def copyHead (r : Frame) (id : Nat) : Option CopyEnt :=
  match r.fl.copyQ with
  | e :: _ => if e.id = id ∧ r.fl.traps.isEmpty then some e else none
  | [] => none

/-- Lane order at the home: an earlier sent access of the source and lane is accepted first (R83); the words of one line
of one access stand in no order (R85). -/
def acceptTurn (r : Frame) (id line : Nat) (a : Nat) : Bool :=
  !(r.fl.ls ++ r.fl.fly).any fun e => e.lines.zipIdx.any fun (l, i) =>
    (decide (e.id < id) || (e.id = id && decide (i < line))) && l.st = .sent &&
    (match l.pa with
     | some b => homeOf b = homeOf a && laneOf b = laneOf a && !(e.id = id && b / 64 = a / 64)
     | none => false)

def pushMerge (s : State) (w : MergeW) : State :=
  { s with merge := s.merge ++ [{ w with mid := s.nextMid }], nextMid := s.nextMid + 1 }

/-- A write reaches its home and enters the write-merge buffer (R79, R84). -/
def acceptWrite (s : State) (c : CubeId) (f : FrameId) (id line : Nat) : State :=
  let r := s.frame c f
  match (r.fl.ls ++ r.fl.fly).find? (·.id = id) with
  | some e =>
    (match e.op, e.lines[line]? with
     | .atom .., _ => s
     | _, some l =>
       (match l.pa with
        | some a =>
          if l.st = .sent ∧ e.op.writes ∧ acceptTurn r id line a then
            let s := pushMerge s ⟨0, a, storeBytes e l, (s.pkg, c.val, f.val, .ls), laneOf a, some (c.val, f.val, id, line), none⟩
            s.modFrame c f fun r => modLs r id fun e => setLine e line fun l => { l with st := .accepted }
          else s
        | none => s)
     | _, none => s)
  | none =>
    match r.fl.copyA.find? (·.id = id) with
    | some e =>
      (match e.op, e.line with
       | .putf _ val, some l =>
         (match l.pa with
          | some a =>
            if l.st = .sent then
              let s := pushMerge s ⟨0, a, leBytes 8 val.toNat, (s.pkg, c.val, f.val, .copy), laneOf a, some (c.val, f.val, id, 0), none⟩
              s.modFrame c f fun r => { r with fl := { r.fl with copyA := r.fl.copyA.map fun x =>
                if x.id = id then { x with line := x.line.map fun l => { l with st := .accepted } } else x } }
            else s
          | none => s)
       | _, _ => s)
    | none => s

/-- Two words of one line of one access (R85). -/
def MergeW.sameLine (v w : MergeW) : Bool :=
  match v.owner, w.owner with
  | some (c, f, id, _), some (c', f', id', _) => c = c' && f = f' && id = id' && v.pa / 64 = w.pa / 64
  | _, _ => false
/-- Whether the write may perform: every earlier-accepted write of its source, lane and home has performed, and no
earlier write to its line remains (R84); the words of one line of one access stand in no order (R85). -/
def performTurn (s : State) (w : MergeW) : Bool :=
  s.merge.all fun v => !decide (v.mid < w.mid) || v.sameLine w ||
    !((v.src = w.src && v.lane = w.lane && homeOf v.pa = homeOf w.pa) || v.pa / 64 = w.pa / 64)

/-- Every word that an entry writes of the line of an address has performed, and they are the whole line (R77). -/
def LsEnt.wholeLine (e : LsEnt) (a : Nat) : Bool :=
  let l := e.lines.filter fun l => match l.pa with | some b => b / 64 = a / 64 | none => false
  e.op.writes && !e.op.isAtom && l.all (·.st = .performed) && decide ((l.foldl (fun n x => n + x.n) 0) = 64)

/-- A write performs: storage takes its bytes; a whole line clears poison, a part leaves it (R77, R79). -/
def performWrite (s : State) (mid : Nat) : State :=
  match s.merge.find? (·.mid = mid) with
  | none => s
  | some w =>
    if !performTurn s w then s
    else
      let s := { s with mem := memSetList s.mem w.pa w.bytes, merge := s.merge.filter (·.mid ≠ mid) }
      let s := s.modHub fun h => { h with outbox := h.outbox ++ w.reply.toList }
      match w.owner with
      | some (c, f, id, line) =>
        let done := fun (e : LsEnt) => setLine e line fun l => if e.op.isAtom then l else { l with st := .performed }
        let x := (s.frame (cubeOf c) (frameOf f)).fl
        let s := if (x.ls ++ x.fly).any fun e => e.id = id && (done e).wholeLine w.pa then setPoison s w.pa false else s
        s.modFrame (cubeOf c) (frameOf f) fun r =>
          let r := modLs r id done
          settle { r with fl := { r.fl with copyA := r.fl.copyA.map fun x =>
            if x.id = id then { x with line := x.line.map fun l => { l with st := .performed } } else x } }
      | none => clearFull s w.pa w.bytes.length

/-- The new value of an atomic's location (R205). -/
def atomValue (op : AtomOp) (sz : Nat) (m cmp src : Nat) : Nat :=
  let w := 8 * (1 <<< sz)
  let sv := src % (1 <<< w)
  let cv := cmp % (1 <<< w)
  match op with
  | .add => (m + sv) % (1 <<< w)
  | .fadd => (faddBits (if sz = 3 then .f64 else .f32) .rn false m sv).1
  | .min => if toSigned w sv < toSigned w m then sv else m
  | .max => if toSigned w m < toSigned w sv then sv else m
  | .and => Nat.land m sv
  | .or => Nat.lor m sv
  | .xor => Nat.xor m sv
  | .swap => sv
  | .cas => if m = cv then sv else m

/-- An atomic at its home: one indivisible read and write (R85, R205, R206); a poisoned line stays as it is (R77). -/
def performAtom (s : State) (c : CubeId) (f : FrameId) (id : Nat) : State :=
  let r := s.frame c f
  match (r.fl.ls ++ r.fl.fly).find? (·.id = id) with
  | some e =>
    (match e.op, e.lines[0]? with
     | .atom op _ _ sz _ _ cmp src, some l =>
       (match l.pa with
        | some a =>
          if l.st = .sent ∧ acceptTurn r id 0 a then
            let m := gRead s a l.n
            let bad := poisoned s a
            let deps := mergeDeps s a l.n
            let (s, deps) :=
              if bad then (s, deps)
              else
                (pushMerge s ⟨0, a, leBytes l.n (atomValue op sz m cmp.toNat src.toNat), (s.pkg, c.val, f.val, .ls), laneOf a, none, none⟩,
                  s.nextMid :: deps)
            s.modFrame c f fun r =>
              deliver (modLs r id fun e => setLine e 0 fun l => { l with st := .accepted, val := m, deps := deps, bad := bad }) id
          else s
        | none => s)
     | _, _ => s)
  | none => s

/-- The trap that a poisoned value makes due (R78). DEDUCED, assumption 39. -/
def poisonTrap (info : OpInfo) (line : Nat) : TrapInfo :=
  ⟨12, info.slot, false, true, info.pc, info.bits, w64 (line / 64 * 64), 0⟩

/-- A tracked load or atomic performs: every write it read from has performed; its tag is released (R79, R89). -/
def loadPerform (s : State) (c : CubeId) (f : FrameId) (id : Nat) : State :=
  let r := s.frame c f
  match r.fl.fly.find? (·.id = id) with
  | some e =>
    if (e.op.isLoad || e.op.isAtom) ∧ (e.lines.all fun l => (l.st = .accepted || l.st = .performed) &&
        l.deps.all fun d => !(s.merge.any (·.mid = d))) then
      let r := releaseTag r id
      let due := match e.op with
        | .atom _ _ false _ _ _ _ _ =>
          (match e.lines.find? (·.bad) with
           | some l => [(⟨poisonTrap e.info (l.pa.getD 0), none, 63⟩ : DueTrap)]
           | none => [])
        | _ => []
      s.setFrame c f { r with fl := { r.fl with fly := r.fl.fly.filter (·.id ≠ id), due := r.fl.due ++ due } }
    else s
  | none => s

/-- A pending result whose value has arrived lands at a bundle boundary (R122); poison leaves the old value and is
taken when the register is read (R78). -/
def landVar (r : Frame) (x : VarRes) : Frame :=
  match x.val with
  | none => r
  | some (v, fl, bad) =>
    let r := { r with fl := { r.fl with var := r.fl.var.filter (·.id ≠ x.id) } }
    match bad with
    | some line =>
      { r with fl := { r.fl with due := r.fl.due ++ [⟨poisonTrap x.info line, some (x.file, x.reg), 63⟩] } }
    | none =>
      let t := match r.taint.out.find? (·.1 = x.id) with
        | some (_, tag) => 1#32 <<< tag
        | none => 0
      { r with
        regs := r.regs.wr x.file x.reg v
        taint := r.taint.wr x.file x.reg t
        ctl := r.ctl.orFlags fl
        issue := r.issue.orLanded fl false }

/-- Every arrived result lands, in order of issue. -/
def landArrived (r : Frame) : Frame := r.fl.var.foldl landVar r

/-- The first entry of the load/store queue, in issue order, whose translation fails: entry, address, reason (R204). -/
def lsFailure (s : State) (c : CubeId) (f : FrameId) : Option (LsEnt × Word × Nat) :=
  (s.frame c f).fl.ls.findSome? fun e =>
    if e.op.isDrain || e.op.isGpf then none
    else e.lines.findSome? fun l =>
      match l.pa with
      | some _ => none
      | none => match translateF s c f e.op.need l.va.toNat with
        | .error k => some (e, l.va, k)
        | .ok _ => none

/-- The local translation fault found after issue (R204, R317). -/
def trapAfter10 (info : OpInfo) (va : Word) (reason src : Nat) (write : Bool) : TrapInfo :=
  ⟨10, info.slot, false, true, info.pc, info.bits, va, w64 (reason + src <<< 4 + bnat write <<< 7)⟩

/-- The failing entry and every later one are withdrawn, and their tags released (R204). An entry part of whose lines
have been sent stays from its first unsent line on: the model sends no line of an entry before all translate. -/
def withdrawLs (s : State) (c : CubeId) (f : FrameId) : State :=
  match lsFailure s c f with
  | none => s
  | some (e, va, k) =>
    let r := s.frame c f
    let out := r.fl.ls.filter fun x => decide (e.id ≤ x.id)
    let r := out.foldl (fun r x => releaseTag r x.id) r
    let out := r.fl.ls.filter fun x => decide (e.id ≤ x.id)
    s.setFrame c f { r with fl := { r.fl with
      ls := r.fl.ls.filter fun x => !decide (e.id ≤ x.id)
      wdLs := out ++ r.fl.wdLs
      traps := r.fl.traps ++ [trapAfter10 e.info va k 0 e.op.writes] } }

/-- Payload of event 0x31: source package, cube and fabric partition, local address, reason and kind (R362). DESIGN CHOICE,
assumption 61. -/
def refusedPayload (pkg cube : Nat) (fpid : BitVec 12) (l reason kind : Nat) : List Word :=
  [w64 (pkg + cube <<< 16 + fpid.toNat <<< 32), w64 l, w64 (reason + kind <<< 8)]

/-- A refused access is logged at its source as event 0x32, and as 0x31 at a target of this package, with the kind of
access: 0 read, 1 write, 2 atomic (R361, R362). -/
def logRemote (s : State) (r : Frame) (c : CubeId) (va : Word) (pa reason kind : Nat) : State :=
  let s := logEvent s 0x32 c.val [w64 (match r.task with | some t => t.launch | none => 0), r.ctl.taskid, va, w64 pa, w64 reason]
  if paPkg pa = s.pkg then
    logEvent s 0x31 (paCube pa) (refusedPayload s.pkg c.val (fpidOf s r.part) (paLocal pa) reason kind)
  else s
def LsOp.kind (o : LsOp) : Nat := if o.isAtom then 2 else bnat o.writes

/-- The remote access fault of cause 11, fatal (R316, R361). -/
def trap11 (info : OpInfo) (va : Word) (pa reason : Nat) : TrapInfo :=
  ⟨11, info.slot, true, true, info.pc, info.bits, va, w64 (paPkg pa + reason <<< 10)⟩

/-- What the target of an access says, where it refuses: address and reason (R66, R361). A message with a global
destination is checked at its own package as well. -/
def refusal (s : State) (c : CubeId) (f : FrameId) (n : Need) (va : Nat) (src : Stream) (always : Bool := false) :
    Option (Word × Nat × Nat) :=
  match translateF s c f n va src with
  | .ok a =>
    let part := (s.frame c f).part
    (if always then targetCheck s (fpidOf s part) a n.w else accessCheck s part a n.w).map fun k => (w64 va, a, k)
  | .error _ => none

/-- A refused access leaves its place, and its fault stands at the issuing context (R361, R362). -/
def refuseAccess (s : State) (c : CubeId) (f : FrameId) (info : OpInfo) (x : Word × Nat × Nat) (kind : Nat)
    (drop : Frame → Frame) : State :=
  let s := logRemote s (s.frame c f) c x.1 x.2.1 x.2.2 kind
  s.modFrame c f fun r =>
    let r := drop r
    { r with fl := { r.fl with traps := r.fl.traps ++ [trap11 info x.1 x.2.1 x.2.2] } }

/-- The load/store line that its target refuses. -/
def refusedLs (s : State) (c : CubeId) (f : FrameId) (e : LsEnt) : Option (Word × Nat × Nat) :=
  if e.op.isDrain || e.op.isGpf || !earlierTranslate s c f e.id then none
  else e.lines.findSome? fun l => if l.st = .queued then refusal s c f e.op.need l.va.toNat .ls else none

end Sys2Proof.Machine
end

