-- ==== Sys2Proof/Machine/CubeArith.lean ====
section
/-! DEFINITION. Cube arithmetic: format pairs, the spreading of k over the layers, operands in the faces, the order of
summation, significance bands and their errors (R222 to R236, R239 to R241). -/

namespace Sys2Proof.Machine

/-- Fields of `FMT` (R222). -/
def fmtAF (w : BitVec 16) : Nat := bits w.toNat 0 4
def fmtBF (w : BitVec 16) : Nat := bits w.toNat 4 4
def fmtACM (w : BitVec 16) : Nat := bits w.toNat 10 2
def fmtSCM (w : BitVec 16) : Nat := bits w.toNat 12 2
def fmtORM (w : BitVec 16) : RM := rmOf (fld w 14 2)

/-- The type of a format code (R39). -/
def fmtTy (n : Nat) : Ty :=
  match n with
  | 0 => .f64 | 1 => .f32 | 2 => .f16 | 3 => .bf16 | 4 => .e4m3 | 5 => .e5m2 | 6 => .e2m3 | 7 => .e3m2
  | 8 => .e2m1 | 9 => .s8 | 10 => .int4 | _ => .tern

def isFp8 (n : Nat) : Bool := n = 4 || n = 5
def isFp6 (n : Nat) : Bool := n = 6 || n = 7
def isFp4or6 (n : Nat) : Bool := n = 6 || n = 7 || n = 8

/-- Dot width d of a pair, 1 standing for the single element of an FP64 step, and the accumulation format: 1 A40I,
2 A40F, 3 A80F (R223, R224). -/
def pairInfo (a b : Nat) : Option (Nat × Nat) :=
  if a = 0 ∧ b = 0 then some (1, 3)
  else if a = 1 ∧ b = 1 then some (1, 2)
  else if a = 2 ∧ b = 2 then some (4, 2)
  else if a = 3 ∧ b = 3 then some (9, 2)
  else if isFp8 a ∧ isFp8 b then some (18, 2)
  else if isFp4or6 a ∧ isFp4or6 b then some (36, 2)
  else if a = 11 ∧ b = 9 then some (27, 1)
  else if a = 9 ∧ b = 9 then some (9, 1)
  else none

/-- The accumulation format that a sampled AF implies (R245). -/
def formOfAF (a : Nat) : Nat := if a = 0 then 3 else if a = 9 ∨ a = 10 ∨ a = 11 then 1 else 2

/-- Significand widths, leading bit included (R231). -/
def sigBits (n : Nat) : Nat :=
  match n with
  | 0 => 53 | 1 => 24 | 2 => 11 | 3 => 8 | 4 => 4 | 5 => 3 | 6 => 4 | 7 => 3 | 8 => 2 | _ => 0
/-- P (R231). -/
def prodBits (a b : Nat) : Nat := if a = 11 then 8 else if a = 9 then 16 else sigBits a + sigBits b
/-- Mode of a band; B3 is exact (R232). -/
def bandMode (fid : BitVec 6) (b : Nat) : Nat := if b = 3 then 0 else bits fid.toNat (2 * b) 2
/-- 2^(g+1), the bound of an error; 0 where every band is exact (R231, R233). -/
def errBound (a b : Nat) (fid : BitVec 6) : Nat :=
  match [2, 1, 0].find? fun i => bandMode fid i ≠ 0 with
  | some i => 1 <<< ((i + 1) * prodBits a b / 4)
  | none => 0

/-! Shape and descriptors (R240, R241). -/

def shpM (w : Word) : Nat := bits w.toNat 0 7 + 1
def shpN (w : Word) : Nat := bits w.toNat 7 7 + 1
def shpK (w : Word) : Nat := bits w.toNat 14 16 + 1
def descG (w : Word) : Bool := w.getLsbD 63
def descFace (w : Word) : Nat := bits w.toNat 27 2
def descOff (w : Word) : Nat := bits w.toNat 0 26
/-- DEDUCED, assumption 70. -/
def descX (w : Word) : Nat := (bits w.toNat 44 19) * 64
def descVa (w : Word) : Word := w64 (bits w.toNat 0 56)

/-- The lowest layer and the number of layers of a contiguous mask. -/
def maskLow (m : BitVec 8) : Nat := ((List.range 8).find? fun i => m.getLsbD i).getD 0
def maskN (m : BitVec 8) : Nat := ((List.range 8).filter fun i => m.getLsbD i).length

/-! Spreading (R224). -/

/-- Stripes of position p. -/
def stripesAt (k nl p : Nat) : Nat := let s := ceilDiv k 32; if s ≤ p then 0 else ceilDiv (s - p) nl
/-- Local elements of position p. -/
def localCount (k nl p : Nat) : Nat :=
  let sp := stripesAt k nl p
  if sp = 0 then 0
  else
    let last := p + nl * (sp - 1)
    32 * (sp - 1) + (if last = ceilDiv k 32 - 1 then k - 32 * last else 32)
/-- The k of local element t of position p. -/
def kOf (nl p t : Nat) : Nat := 32 * (p + nl * (t / 32)) + t % 32

/-! Operands in the faces (R225, R226). -/

def banksOf (face : Nat) : Nat := if face = 2 then 32 else 64
/-- Bytes of a line's slot for w-bit elements and a stripe count. -/
def slotLen (s0 w : Nat) : Nat := 64 * ceilDiv (s0 * 4 * w) 64
/-- The face offset of line i. -/
def lineOff (base nb rl i : Nat) : Nat :=
  (base / (1 <<< 20) + i % nb) * (1 <<< 20) + base % (1 <<< 20) + i / nb * rl

/-- One array of lines in a face: base, banks, slot length, lines, used bytes at each position. -/
structure Lines where
  face : Nat
  base : Nat
  rl   : Nat
  n    : Nat
  used : List Nat
deriving DecidableEq, Repr

/-- The bank bounds of R225. -/
def Lines.boundsOk (l : Lines) : Bool :=
  let nb := banksOf l.face
  decide (l.base / (1 <<< 20) + min l.n nb ≤ nb) && decide (l.base % (1 <<< 20) + ceilDiv l.n nb * l.rl ≤ 1 <<< 20)
/-- The runs of bytes that are read, layer by layer; these are the bytes that R225 asks to lie in the reservation, not the
unused end of a line's slot. DESIGN CHOICE, assumption 101. -/
def Lines.runs (l : Lines) (low : Nat) : List Run :=
  l.used.zipIdx.flatMap fun (u, p) =>
    if u = 0 then [] else (List.range l.n).map fun i => (low + p, l.face, lineOff l.base (banksOf l.face) l.rl i, u)

/-- Local stripes of a ternary × INT8 B line that stand in N and in E (R225). -/
def ternN (s : Nat) : Nat := s - s / 3
def ternE (s : Nat) : Nat := s / 3

/-- The scratchpad arrays of an operand with w-bit elements: A when `isA`. -/
def operandLines (isA : Bool) (desc : Word) (tern : Bool) (w scm k nl lines : Nat) : List Lines :=
  if descG desc then []
  else
    let s0 := stripesAt k nl 0
    let bytes := fun (p : Nat) => ceilDiv (localCount k nl p * w) 8
    let pos := List.range nl
    let main : List Lines :=
      if !isA ∧ tern then
        let nElem := fun p => (List.range (localCount k nl p)).filter (fun t => t / 32 % 3 ≠ 2) |>.length
        let eElem := fun p => (List.range (localCount k nl p)).filter (fun t => t / 32 % 3 = 2) |>.length
        [⟨descFace desc, descOff desc, slotLen (ternN s0) w, lines, pos.map nElem⟩]
          ++ (if ternE s0 = 0 then [] else [⟨2, descX desc, slotLen (ternE s0) w, lines, pos.map eElem⟩])
      else [⟨descFace desc, descOff desc, slotLen s0 w, lines, pos.map bytes⟩]
    let scale : List Lines :=
      if scm = 0 then []
      else
        let per := fun p => if scm = 1 then stripesAt k nl p else ceilDiv (localCount k nl p) 16
        [⟨2, descX desc, 64 * ceilDiv (s0 * scm) 64, lines, pos.map per⟩]
    main ++ scale

/-- Bytes as an operation sees them: a face byte by key, with some words as before a later store (R99). -/
abbrev View := FMap (Option (BitVec 32))
def viewByte (q : Cube) (v : View) (key : Nat) : Byte :=
  match fget none v (key / 4) with
  | some w => BitVec.ofNat 8 (w.toNat >>> (8 * (key % 4)))
  | none => faceByte q key
/-- The choice, word by word, between the present value and the values that stores replaced (R99). -/
def viewOf (fresh : Nat) (olds : List (Nat × BitVec 32)) : View :=
  olds.zipIdx.foldr (fun ((a, w), i) m => if (Config.free (fresh + i)).getLsbD 0 then fset none m a (some w) else m) []

/-- An element: its scaled value, and its product-LSB unit um·2^ue (R231). -/
structure Elem where
  v  : FVal
  um : Nat
  ue : Int
deriving DecidableEq, Repr

/-- An integer element as a value. -/
def intElem (i : Int) : Elem := ⟨.fin (decide (i < 0)) i.natAbs 0, 1, 0⟩

/-- The element of a code under its scale byte (R49). -/
def mkElem (t : Ty) (scm c sc : Nat) : Elem × Bool :=
  if t.isFloat then
    let raw := fval t c
    let (v, f) := if scm = 0 then (raw, 0) else scaledVal (scm = 2) raw sc
    let (um, ue) : Nat × Int :=
      match raw, (if scm = 2 then fmtE4M3.decode sc else FVal.fin false 1 (if scm = 1 then (sc : Int) - 127 else 0)) with
      | .fin _ _ e, .fin _ m g => (m, e + g)
      | _, _ => (0, 0)
    (⟨v, um, ue⟩, f != 0)
  else (intElem (intVal t c), false)

/-- How an operand is read: the code and scale byte of line i at k. -/
structure Source where
  code  : Nat → Nat → Nat
  scale : Nat → Nat → Nat

/-- Bits [pos + w − 1 : pos] of the bytes that follow a key. -/
def bitsAt (byte : Nat → Byte) (key pos w : Nat) : Nat :=
  let b0 := pos / 8
  let n := ceilDiv (pos % 8 + w) 8
  (leVal ((List.range n).map fun i => byte (key + b0 + i)) >>> (pos % 8)) % (1 <<< w)

/-- The source of a scratchpad operand (R224 to R226). -/
def faceSource (q : Cube) (t : Task) (view : View) (isA : Bool) (desc : Word) (tern : Bool) (w scm k nl low : Nat) : Source :=
  let s0 := stripesAt k nl 0
  let byteOf := fun (z face off : Nat) => faceKey z face (t.baseOf z face + off)
  let byte := viewByte q view
  { code := fun i kk =>
      let st := kk / 32
      let p := st % nl
      let j := st / nl
      let z := low + p
      if !isA ∧ tern then
        if j % 3 = 2 then
          bitsAt byte (byteOf z 2 (lineOff (descX desc) 32 (slotLen (ternE s0) w) i)) ((32 * (j / 3) + kk % 32) * w) w
        else
          bitsAt byte (byteOf z (descFace desc) (lineOff (descOff desc) 64 (slotLen (ternN s0) w) i))
            ((32 * (j - j / 3) + kk % 32) * w) w
      else
        bitsAt byte (byteOf z (descFace desc) (lineOff (descOff desc) (banksOf (descFace desc)) (slotLen s0 w) i))
          ((32 * j + kk % 32) * w) w
    scale := fun i kk =>
      let st := kk / 32
      let p := st % nl
      let j := st / nl
      let idx := if scm = 2 then 2 * j + kk % 32 / 16 else j
      (byte (byteOf (low + p) 2 (lineOff (descX desc) 32 (64 * ceilDiv (s0 * scm) 64) i + idx))).toNat }

/-- Bytes of a line of a global operand (R240). -/
def globalPitch (k w : Nat) : Nat := 64 * ceilDiv (k * w) 512

/-! Summation (R227). -/

/-- The exact sum of values; a NaN wins, infinities of both signs are invalid, all-negative zeros stay −0 (R52).
DEDUCED, assumption 35. -/
def exactSum (l : List FVal) : FVal × Bool :=
  if l.any FVal.isNan then (.nan false, false)
  else if l.contains (.inf false) && l.contains (.inf true) then (.nan false, true)
  else
    match l with
    | [] => (.fin false 0 0, false)
    | x :: l => (l.foldl (fun a b => (a.add .rn b).1) x, false)

/-- Status bits an operation sets: OVF [0], INV [1], AOVF [2] (R62). -/
abbrev StBits := BitVec 16

/-- Rounding into the accumulator format (R52): form 1 wraps. -/
def accRound (form : Nat) (v : FVal) : Nat × StBits :=
  match form with
  | 1 =>
    match v with
    | .fin neg m _ =>
      let i : Int := if neg then -(m : Int) else (m : Int)
      (lowBits 40 i, if i < -((1 <<< 39 : Nat) : Int) ∨ ((1 <<< 39 : Nat) : Int) - 1 < i then 4 else 0)
    | _ => (0, 0)
  | _ =>
    let (c, f) := (if form = 3 then fmtA80F else fmtA40F).ofVal .rn false v
    (c, if (f &&& flOVF) ≠ 0 then 1 else 0)

def accVal (form c : Nat) : FVal :=
  match form with
  | 1 => let i := toSigned 40 c; .fin (decide (i < 0)) i.natAbs 0
  | 3 => fmtA80F.decode c
  | _ => fmtA40F.decode c

/-- An accumulator addition. -/
def accAdd (form a b : Nat) : Nat × StBits :=
  let (v, f) := (accVal form a).add .rn (accVal form b)
  let (c, st) := accRound form v
  (c, st ||| (if f ≠ 0 then 2 else 0))

/-- A band error within its bound for product number i (R233, R234). DEDUCED, assumption 26. -/
def bandErr (bound fresh i : Nat) : Int :=
  if bound = 0 then 0 else Config.bandError fresh i % (2 * (bound : Int) - 1) - ((bound : Int) - 1)

/-- The addends of one product, negated under ACM 1, with the invalid marks of R49 and R52. -/
def product (neg : Bool) (bound fresh i : Nat) (a b : Elem) : List FVal × Bool :=
  let (p, f) := a.v.mul b.v
  let p := if neg then p.neg else p
  match p with
  | .fin _ m _ =>
    if m = 0 then ([p], f != 0)
    else
      let e := bandErr bound fresh i
      if e = 0 then ([p], false)
      else ([p, .fin (decide (e < 0) != neg) (e.natAbs * a.um * b.um) (a.ue + b.ue)], false)
  | _ => ([p], f != 0)

/-- Everything one operation needs to compute a word. -/
structure MmaJob where
  form : Nat
  d    : Nat
  k    : Nat
  nl   : Nat
  neg  : Bool
  bound : Nat
  fresh : Nat
  elemA : Nat → Nat → Elem × Bool
  elemB : Nat → Nat → Elem × Bool
  n    : Nat

def MmaJob.steps (x : MmaJob) (p : Nat) : Nat := ceilDiv (localCount x.k x.nl p) x.d

/-- The rounded sum of step c at position p. -/
def MmaJob.partial_ (x : MmaJob) (i j c p : Nat) : Nat × StBits :=
  let ts := (List.range x.d).filterMap fun u =>
    let t := c * x.d + u
    if t < localCount x.k x.nl p then some (kOf x.nl p t) else none
  let prods := ts.map fun kk =>
    let (a, fa) := x.elemA i kk
    let (b, fb) := x.elemB j kk
    let (l, f) := product x.neg x.bound x.fresh ((i * x.n + j) * x.k + kk) a b
    (l, f || fa || fb)
  let (v, inv) := exactSum (prods.flatMap Prod.fst)
  let (h, st) := accRound x.form v
  (h, st ||| (if inv || prods.any Prod.snd then 2 else 0))

/-- One step over the positions in ascending layer, then into the word. -/
def MmaJob.step (x : MmaJob) (i j : Nat) (w : Nat × StBits) (c : Nat) : Nat × StBits :=
  let hs := (List.range x.nl).filterMap fun p => if c < x.steps p then some (x.partial_ i j c p) else none
  match hs with
  | [] => w
  | (h, st) :: rest =>
    let (q, st) := rest.foldl (fun (q, st) (h, sh) => let (r, sr) := accAdd x.form q h; (r, st ||| sh ||| sr)) (h, st)
    let (r, sr) := accAdd x.form w.1 q
    (r, w.2 ||| st ||| sr)

/-- The word (i, j) after steps c0 to Q − 1 (R227, R244). -/
def MmaJob.word (x : MmaJob) (i j w0 c0 q : Nat) : Nat × StBits :=
  ((List.range q).drop c0).foldl (fun w c => x.step i j w c) (w0, 0)

/-! Accumulator words (R51). -/

def accKey (slot row col : Nat) : Nat := slot * 16384 + row * 128 + col
def accGet (q : Cube) (form slot row col : Nat) : Nat :=
  if form = 3 then (fget 0 q.acc (accKey slot row col)).toNat + (fget 0 q.acc (accKey (slot + 1) row col)).toNat <<< 40
  else (fget 0 q.acc (accKey slot row col)).toNat
def accSet (q : Cube) (form slot row col v : Nat) : Cube :=
  let m := fset 0 q.acc (accKey slot row col) (BitVec.ofNat 40 v)
  { q with acc := if form = 3 then fset 0 m (accKey (slot + 1) row col) (BitVec.ofNat 40 (v >>> 40)) else m }
def statusGet (q : Cube) (slot : Nat) : BitVec 16 := q.status.toList.getD slot 0
def statusSet (q : Cube) (slot : Nat) (v : BitVec 16) : Cube :=
  { q with status := q.status.set (slot % 16) v (Nat.mod_lt _ (by decide)) }

end Sys2Proof.Machine
end

