-- ==== Sys2Proof/Machine/CubeRun.lean ====
section
/-! DEFINITION. The life of a cube operation: start at the head of the queue, landing in its tile, ending without
landing, global operand fetch, `accrd` and `accwr`, and the leave a heavy operation needs (R229, R230, R243 to R248,
R270, R375, R376, R388). -/

namespace Sys2Proof.Machine

def CubeEnt.mask (e : CubeEnt) : BitVec 8 := match e.op with | .mma _ _ _ _ _ m _ => m | _ => 0
/-- Accumulator slots an entry names (R15, R247). -/
def CubeEnt.slots (e : CubeEnt) : List Nat :=
  match e.op with
  | .mma _ a _ _ _ _ _ => if e.form = 3 then [a, a + 1] else [a]
  | .rd t a _ _ _ => if e.form = 3 ∧ t ≠ .z64 ∧ t ≠ .z16 then [a, a + 1] else [a]
  | .wr t a _ _ _ => if e.form = 3 ∧ t ≠ .z64 ∧ t ≠ .z16 then [a, a + 1] else [a]
def CubeEnt.isMma (e : CubeEnt) : Bool := match e.op with | .mma .. => true | _ => false
/-- The physical accumulator slot of a task's slot (R15, R25). -/
def accOf (r : Frame) (a : Nat) : Nat := match r.task with | some t => t.accB + a | none => a
def slotsMeet (a b : CubeEnt) : Bool := a.slots.any fun i => b.slots.contains i

/-- Operands of a started or queued operation: arrays in the faces of each side. -/
def CubeEnt.lines (e : CubeEnt) : List Lines × List Lines :=
  match e.op with
  | .mma _ _ aop bop shp m _ =>
    let af := fmtAF e.fmt
    let bf := fmtBF e.fmt
    let scm := fmtSCM e.fmt
    let nl := maskN m
    (operandLines true aop (af = 11) (fmtTy af).width scm (shpK shp) nl (shpM shp),
     operandLines false bop (af = 11) (fmtTy bf).width scm (shpK shp) nl (shpN shp))
  | _ => ([], [])
/-- Every run of face bytes an operation reads. -/
def CubeEnt.runs (e : CubeEnt) : List Run :=
  let (a, b) := e.lines
  (a ++ b).flatMap fun l => l.runs (maskLow e.mask)

/-- Global operand lines: addresses of the 64-byte lines of each operand line, with the step that needs each. -/
def globalLines (desc : Word) (w k lines : Nat) : List (Nat × Nat) :=
  if descG desc then
    (List.range lines).flatMap fun i =>
      (List.range (ceilDiv (k * w) 512)).map fun j => ((descVa desc).toNat + i * globalPitch k w + 64 * j, (64 * j * 8) / w)
  else []
/-- The step that needs local element t of k: the step count of R224. -/
def stepOfK (d nl kk : Nat) : Nat := (32 * (kk / 32 / nl) + kk % 32) / d
/-- The lowest step from c0 on among the k values of a line that holds elements from k0 on. -/
def lineStep (c0 d nl k0 k w : Nat) : Option Nat :=
  ((List.range (ceilDiv 512 w + 1)).filterMap fun i =>
    let st := stepOfK d nl (k0 + i)
    if k0 + i < k ∧ c0 ≤ st then some st else none).foldl (fun m x => match m with | some y => some (min x y) | none => some x) none

/-- The global operand lines that the steps from c0 on need, each with the first such step (R243, R244). -/
def CubeEnt.globals (e : CubeEnt) : List (Nat × Nat) :=
  match e.op, pairInfo (fmtAF e.fmt) (fmtBF e.fmt) with
  | .mma _ _ aop bop shp m _, some (d, _) =>
    let k := shpK shp
    let side := fun (desc : Word) (w lines : Nat) =>
      (globalLines desc w k lines).filterMap fun (va, k0) => (lineStep e.c0 d (maskN m) k0 k w).map fun st => (va, st)
    side aop (fmtTy (fmtAF e.fmt)).width (shpM shp) ++ side bop (fmtTy (fmtBF e.fmt)).width (shpN shp)
  | _, _ => []

/-- The leave that a heavy operation needs: class at least n_L (R270). -/
def leaveOk (s : State) (c : CubeId) (f : FrameId) (nl : Nat) : Bool :=
  decide (nl < 5) ||
  (match (s.frame c f).leave with | some (k, till) => decide (nl ≤ k) && decide (s.now < till) | none => false)

/-- Files an implicit request of class n_L and 100 µs when none is pending; a `pleave` still in the sync queue has filed none
(R269, R270). -/
def implicitLeave (s : State) (c : CubeId) (f : FrameId) (nl : Nat) : State :=
  let q := s.cube c
  if q.camp.reqs.any fun x => x.frame = f.val && decide (nl ≤ x.cls) then s
  else s.setCube c { q with camp := { q.camp with reqs := q.camp.reqs ++ [⟨f.val, nl, 100, s.now⟩] } }

/-- Layers and rails an operation waits for (R375, R376): wakes what sleeps and starts the rise of a rail. -/
def railsReady (s : State) (c : CubeId) (m : BitVec 8) (fid : BitVec 6) : Bool :=
  (List.range 8).all fun z => !m.getLsbD z ||
    (let p := (s.cube c).pow.toList.getD z ⟨.active, 0, 0, 0, false⟩
     p.st = .parked || p.st = .withdrawn || (p.st = .active && decide (p.ready ≤ s.now) &&
       (List.range 3).all fun b => decide (bits p.modes.toNat (2 * b) 2 ≤ bits fid.toNat (2 * b) 2)))
/-- The lowest layer of a mask that holds a parked column group, or that has left service since: an operation that names it
does not land (R388). -/
def parkedIn (q : Cube) (m : BitVec 8) : Option Nat :=
  (List.range 8).find? fun z => m.getLsbD z &&
    (match (q.pow.toList.getD z ⟨.active, 0, 0, 0, false⟩).st with | .parked | .withdrawn => true | _ => false)
/-- A layer's rails move to an operation's modes; a rise delays the start, a layer GATED wakes in 4 cycles, and one in
RETENTION is asked to wake, which LAYER_WAKE ends (R375, R376). -/
def railMove (now : Nat) (fid : BitVec 6) (p : LayerPow) : LayerPow :=
  let wake := match p.st with | .gated => 4 | _ => 0
  let rise := (List.range 3).foldl (fun u b => max u (bits p.modes.toNat (2 * b) 2 - bits fid.toNat (2 * b) 2)) 0
  match p.st with
  | .parked | .withdrawn => p
  | .retention => if p.waking then p else { p with waking := true, ready := now + usCycles 2 }
  | _ => if p.st = .active ∧ p.modes = fid then { p with since := now }
         else { p with st := .active, since := now, modes := fid, ready := max p.ready (now + max wake (rise * 81)) }
def railsMove (s : State) (c : CubeId) (m : BitVec 8) (fid : BitVec 6) : State :=
  s.modCube c fun q =>
    { q with
      camp := { q.camp with ballast := q.camp.ballast &&& ~~~m }
      pow := Vector.ofFn fun z => if m.getLsbD z.val then railMove s.now fid q.pow[z] else q.pow[z] }

/-- A landing is the layers' last use (R376). -/
def touchLayers (s : State) (c : CubeId) (m : BitVec 8) : State :=
  s.modCube c fun q =>
    { q with pow := Vector.ofFn fun z =>
        if m.getLsbD z.val ∧ q.pow[z].st = .active then { q.pow[z] with since := s.now } else q.pow[z] }

/-- A face access brings a layer to ACTIVE: 4 cycles from GATED, 2 µs from RETENTION, in a global hold (R376).
DESIGN CHOICE, assumption 30. -/
def wakeLayers (s : State) (c : CubeId) (l : List Nat) : State :=
  s.modCube c fun q =>
    let up := fun (p : LayerPow) => match p.st with
      | .active | .gated => { p with st := .active, since := s.now }
      | .retention => { p with st := .active, since := s.now, ready := max p.ready (s.now + usCycles 2), waking := false }
      | _ => p
    { q with pow := Vector.ofFn fun z => if l.contains z.val then up q.pow[z] else q.pow[z] }

/-- Whether the started operations of the cube let one start (R229): equal masks follow each other, other masks are
disjoint, and no earlier operation of another mask names an overlapping slot. -/
def mayStart (s : State) (c : CubeId) (f : FrameId) (e : CubeEnt) : Bool :=
  allFrames.all fun (c', f') =>
    c' != c || (s.frame c' f').fl.cubeA.all fun a =>
      (a.mask = e.mask || a.mask &&& e.mask = 0) && !(f' = f && a.mask != e.mask && slotsMeet a e)

/-- A started operation with global lines unread holds the start of one on its accumulator slot and of one with global
operands of its own, so that the one resume record holds what a failed translation leaves and no tile takes a later
operation's additions first (R229, R243, R244). DEDUCED, assumption 34. -/
def unreadHolds (r : Frame) (e : CubeEnt) : Bool :=
  r.fl.cubeA.any fun a => a.glob.any (·.st = .queued) && (slotsMeet a e || !e.globals.isEmpty)

/-- The conversion of one accumulator word by `accrd` (R245). -/
def accrdWord (form : Nat) (t : Ty) (rm : RM) (w : Nat) : Nat × Flags5 :=
  if form = 1 then
    let i := toSigned 40 w
    if t.isFloat then (tyFmt t).ofVal rm false (.fin (decide (i < 0)) i.natAbs 0) else intToInt t false i
  else
    let v := accVal form w
    if t.isFloat then (tyFmt t).ofVal rm false v else fltToInt t rm v

/-- `accrd` reads (R245). -/
def accrdValue (q : Cube) (e : CubeEnt) (t : Ty) (acc row cg : Nat) : VReg × Flags5 :=
  match t with
  | .z16 => ((statusGet q acc).setWidth 2048, 0)
  | .z64 => (vOf 64 ((List.range 32).map fun i => accGet q 2 acc row (32 * cg + i)), 0)
  | _ =>
    let l := (List.range 32).map fun i => accrdWord e.form t (fmtORM e.fmt) (accGet q e.form acc row (32 * cg + i))
    (vOf t.width (l.map Prod.fst), l.foldl (fun f x => f ||| x.2) 0)

/-- `accwr` writes (R246). -/
def accwrApply (q : Cube) (e : CubeEnt) (t : Ty) (acc row cg : Nat) (d : VReg) : Cube :=
  match t with
  | .z16 => statusSet q acc (d.setWidth 16 &&& 0xF7)
  | .z64 => (List.range 32).foldl (fun q i => accSet q 2 acc row (32 * cg + i) (elem d.toNat 64 i % (1 <<< 40))) q
  | .s64 =>
    (List.range 32).foldl (fun q i =>
      let x := elem d.toNat 64 i
      let (w, st) := accRound 1 (.fin (decide (toSigned 64 x < 0)) (toSigned 64 x).natAbs 0)
      let q := accSet q 1 acc row (32 * cg + i) w
      statusSet q acc (statusGet q acc ||| st)) q
  | _ =>
    (List.range 32).foldl (fun q i =>
      let (w, st) := accRound e.form (fval t (elem d.toNat t.width i))
      let q := accSet q e.form acc row (32 * cg + i) w
      statusSet q acc (statusGet q acc ||| st)) q

/-- CUBE_OP_START: a resumed operation, else the head of the cube queue starts, or an accumulator move at the head acts
(R229, R244, R247, R270, R375). The wait set and earlier `drain`s hold its global operand reads, not its start (R86,
R91). -/
def cubeStart (s : State) (c : CubeId) (f : FrameId) : State :=
  let r := s.frame c f
  match r.fl.resume <|> r.fl.cubeQ.head? with
  | none => s
  | some e =>
    let rest := if r.fl.resume.isSome then r.fl.cubeQ else r.fl.cubeQ.drop 1
    if !r.fl.traps.isEmpty || (s.cube c).camp.trip.isSome || (s.cube c).fab.coreOff then s
    else
      match e.op with
      | .rd t acc row cg _ =>
        if r.fl.cubeA.any (slotsMeet e) then s
        else
          let (v, fl) := accrdValue (s.cube c) e t (accOf r acc) row cg
          s.setFrame c f { r with fl := { r.fl with
            cubeQ := rest
            var := r.fl.var.map fun x => if x.id = e.id then { x with val := some (v, fl, none) } else x } }
      | .wr t acc row cg d =>
        if r.fl.cubeA.any (slotsMeet e) then s
        else
          let s := s.modCube c fun q => accwrApply q e t (accOf r acc) row cg d
          s.modFrame c f fun r => { r with fl := { r.fl with cubeQ := rest } }
      | .mma _ _ _ _ _ m _ =>
        let nl := maskN m
        if !mayStart s c f e || unreadHolds r e then s
        else if !leaveOk s c f nl then implicitLeave s c f nl
        else if !railsReady s c m e.fid then railsMove s c m e.fid
        else
          (railsMove s c m e.fid).setFrame c f { r with fl := { r.fl with
            cubeQ := rest, resume := none, cubeA := r.fl.cubeA ++ [{ e with
              started := some s.now, barred := parkedIn (s.cube c) m, glob := e.globals.map fun x => lineAt (w64 x.1) 64 }] } }

/-- Lane order of the cube's operand fetch (R83): no earlier line of its home and lane stands unread. -/
def operandTurn (s : State) (c : CubeId) (f : FrameId) (id i a : Nat) : Bool :=
  (s.frame c f).fl.cubeA.all fun e => e.glob.zipIdx.all fun (l, j) =>
    !((decide (e.id < id) || (e.id = id && decide (j < i))) && l.st = .queued) ||
    (match translateF s c f { r := true } l.va.toNat .cube with
     | .ok b => homeOf b != homeOf a || laneOf b != laneOf a
     | .error _ => true)

def modCubeOp (r : Frame) (id : Nat) (g : CubeEnt → CubeEnt) : Frame :=
  { r with fl := { r.fl with cubeA := r.fl.cubeA.map fun e => if e.id = id then g e else e } }

/-- A global operand line of a started operation is read at its home (R84, R86, R91, R243); not enabled, nothing
happens. -/
def cubeFetch (s : State) (c : CubeId) (f : FrameId) (id i : Nat) : State :=
  let r := s.frame c f
  match r.fl.cubeA.find? (·.id = id) with
  | none => s
  | some e =>
    match e.glob[i]? with
    | none => s
    | some l =>
      match translateF s c f { r := true } l.va.toNat .cube with
      | .error _ => s
      | .ok a =>
        if l.st = .queued ∧ waitOver r id e.wait ∧ drainsOpen s c f id false ∧ laneUp s c a ∧ accessCheck s r.part a false = none
            ∧ operandTurn s c f id i a then
          let bound := fun (e : CubeEnt) => { e with glob := e.glob.zipIdx.map fun (l, j) => if j = i then bindLine s a l else l }
          wire (s.setFrame c f (modCubeOp r id bound)) c f (a / 64 * 64) e.info id l.va (.read 64)
        else s
/-- Every global operand line of a started operation that may be read. -/
def cubeFetchAll (s : State) (c : CubeId) (f : FrameId) (id : Nat) : State :=
  match (s.frame c f).fl.cubeA.find? (·.id = id) with
  | some e => (List.range e.glob.length).foldl (fun s i => cubeFetch s c f id i) s
  | none => s

/-- The first step from c0 on that a failed translation stops, with the failing address (R244). -/
def operandFailure (s : State) (c : CubeId) (f : FrameId) (e : CubeEnt) : Option (Nat × Nat × Nat) :=
  ((e.globals.zip e.glob).filterMap fun ((va, st), l) =>
    if l.st != .queued then none
    else match translateF s c f { r := true } va .cube with
      | .ok _ => none
      | .error reason => some (st, va, reason)).foldl
    (fun best x => match best with
      | none => some x
      | some b => if x.1 < b.1 then some x else some b) none
/-- The global operand line of an operation that its target refuses (R66, R361). -/
def operandRefused (s : State) (c : CubeId) (f : FrameId) (e : CubeEnt) : Option (Word × Nat × Nat) :=
  e.glob.findSome? fun l => if l.st = .queued then refusal s c f { r := true } l.va.toNat .cube else none

/-- A poisoned operand line: of the faces by its scratchpad address, which has no physical one (R66), or one that has been
read from global memory (R36, R78). DEDUCED, assumption 39. -/
def operandPoison (s : State) (c : CubeId) (f : FrameId) (e : CubeEnt) : Option Nat :=
  let q := s.cube c
  let r := s.frame c f
  match r.task with
  | none => none
  | some t =>
    let face := e.runs.findSome? fun (z, fc, o, n) =>
      let key := faceKey z fc (t.baseOf z fc + o)
      let bad := (List.range (key % 64 / 64 + ceilDiv (key % 64 + n) 64)).find? fun i => facePoisoned q (key + 64 * i)
      let adr := z <<< 29 + fc <<< 27 + o
      if q.fab.banks.contains (bankKey z fc (t.baseOf z fc + o)) then some adr else bad.map fun i => adr + 64 * i
    let glob := e.glob.findSome? fun l => if l.bad then l.pa else none
    face <|> glob

/-- What reads line i at k of each operand: faces as the view shows them, or the global lines read (R225, R240, R243). -/
def opSource (s : State) (c : CubeId) (glob : List Line) (t : Task) (view : View) (isA : Bool) (desc : Word) (tern : Bool)
    (w scm k nl low : Nat) : Source :=
  if descG desc then
    let byte := fun a => match glob.find? (fun l => l.va.toNat = a / 64 * 64) with
      | some l => BitVec.ofNat 8 (l.val >>> (8 * (a % 64)))
      | none => 0
    { code := fun i kk => bitsAt byte ((descVa desc).toNat + i * globalPitch k w) (kk * w) w, scale := fun _ _ => 0 }
  else faceSource (s.cube c) t view isA desc tern w scm k nl low

/-- The steps [c0, upto) of an operation applied to its tile: new cube, and at its landing the codes `10` of all the elements
that it fetched from a face (R63, R227, R239). -/
def tileApply (s : State) (c : CubeId) (f : FrameId) (e : CubeEnt) (upto : Option Nat) : Cube × Nat :=
  let q := s.cube c
  let r := s.frame c f
  match e.op, r.task, pairInfo (fmtAF e.fmt) (fmtBF e.fmt) with
  | .mma zero acc aop bop shp m _, some t, some (d, form) =>
    let af := fmtAF e.fmt
    let bf := fmtBF e.fmt
    let scm := fmtSCM e.fmt
    let (mm, nn, k) := (shpM shp, shpN shp, shpK shp)
    let (nl, low) := (maskN m, maskLow m)
    let view := viewOf s.fresh e.olds
    let acc := accOf r acc
    let sa := opSource s c e.glob t view true aop (af = 11) (fmtTy af).width scm k nl low
    let sb := opSource s c e.glob t view false bop (af = 11) (fmtTy bf).width scm k nl low
    let job : MmaJob :=
      { form := form, d := d, k := k, nl := nl, neg := fmtACM e.fmt = 1, bound := errBound af bf e.fid, fresh := s.fresh
        elemA := fun i kk => mkElem (fmtTy af) scm (sa.code i kk) (sa.scale i kk)
        elemB := fun j kk => mkElem (fmtTy bf) scm (sb.code j kk) (sb.scale j kk)
        n := nn }
    let steps := match upto with | some u => u | none => job.steps 0
    let fresh0 := zero && e.c0 = 0
    let cells := (List.range mm).flatMap fun i => (List.range nn).map fun j => (i, j)
    let (q', st) := cells.foldl (fun (q', st) (i, j) =>
      let w0 := if fresh0 then 0 else accGet q form acc i j
      let (w, sw) := job.word i j w0 e.c0 steps
      (accSet q' form acc i j w, st ||| sw)) (q, (0 : StBits))
    let old : StBits := if fresh0 then 0 else statusGet q acc
    let tens := if af = 11 ∧ !descG aop ∧ upto.isNone then
      (List.range mm).foldl (fun n i => n + ((List.range k).filter fun kk => sa.code i kk % 4 = 2).length) 0 else 0
    (statusSet q' acc (old ||| st), tens)
  | _, _, _ => (q, 0)

/-- Detections of the sentinels: a free count per layer and relaxed band, at most one per band-operation of the layer's
own products (R224, R236).
DEDUCED, assumption 26. -/
def detections (fresh : Nat) (e : CubeEnt) : List (Nat × Nat × Nat) :=
  match e.op with
  | .mma _ _ _ _ shp m _ =>
    ((List.range 8).filter fun z => m.getLsbD z).flatMap fun z =>
      ((List.range 3).filter fun b => bandMode e.fid b ≠ 0).map fun b =>
        let most := shpM shp * shpN shp * localCount (shpK shp) (maskN m) (z - maskLow m)
        (z, b, (Config.free (fresh + 4 * z + b)).toNat % (most + 1))
  | _ => []
def countBec (q : Cube) (l : List (Nat × Nat × Nat)) : Cube :=
  l.foldl (fun q (z, b, n) =>
    let i := (4 * z + b) % 32
    let v := satAdd32 (q.ctl.bec.toList.getD i 0) n
    { q with ctl := { q.ctl with bec := q.ctl.bec.set i v (Nat.mod_lt _ (by decide)) } }) q
def berrBits (l : List (Nat × Nat × Nat)) : StBits :=
  l.foldl (fun u (_, b, n) => if n = 0 then u else u ||| (1#16 <<< (4 + b))) 0

/-- The trap of an operation that a parked group kept from landing (R388). -/
def parkedTrap (info : OpInfo) (z : Nat) : TrapInfo := ⟨13, info.slot, false, true, info.pc, info.bits, w64 z, 0⟩

/-- An operation leaves the cube: its reads of buffers are over, its layers have been used (R74, R376). -/
def cubeLeave (s : State) (c : CubeId) (f : FrameId) (e : CubeEnt) : State :=
  (touchLayers s c e.mask).modFrame c f fun r =>
    let r := readDone r e.bufs
    { r with fl := { r.fl with cubeA := r.fl.cubeA.filter (·.id ≠ e.id) } }

/-- An operation ends without landing: its trap is due where its signal is awaited (R78, R388). -/
def cubeEnd (s : State) (c : CubeId) (f : FrameId) (e : CubeEnt) (sig : BitVec 6) (t : TrapInfo) : State :=
  (cubeLeave s c f e).modFrame c f fun r => { r with fl := { r.fl with due := r.fl.due ++ [⟨t, none, sig.toNat⟩] } }
/-- An operation ends on poison: its detections count, its tile keeps its words (R78, R236). -/
def cubePoisoned (s : State) (c : CubeId) (f : FrameId) (e : CubeEnt) (sig : BitVec 6) (line : Nat) : State :=
  let s := s.modCube c fun q => countBec q (detections (s.fresh + 100) e)
  cubeEnd { s with fresh := s.fresh + 200 + e.olds.length } c f e sig (poisonTrap e.info line)

/-- The cycles C between operations of one mask, and T from start to landing (R224, R230). -/
def CubeEnt.cycles (e : CubeEnt) : Nat × Nat :=
  match e.op, pairInfo (fmtAF e.fmt) (fmtBF e.fmt) with
  | .mma _ _ _ _ shp m _, some (d, _) =>
    let q := ceilDiv (localCount (shpK shp) (maskN m) 0) d
    let cc := if fmtAF e.fmt = 0 then 4 * q else if isFp6 (fmtAF e.fmt) || isFp6 (fmtBF e.fmt) then ceilDiv (3 * q) 2 else q
    (cc, 6 + maskN m + (shpM shp + shpN shp - 2) + cc)
  | _, _ => (0, 0)
/-- Whether a started operation may land before an earlier one of the task that has not: on another accumulator slot, and
on the same mask only where the figures of R230 let it; a global operand makes those lower bounds (R229, R230, R243).
DEDUCED, assumption 81. -/
def mayPass (a e : CubeEnt) : Bool :=
  !slotsMeet a e && (a.mask != e.mask || !a.globals.isEmpty || decide (e.cycles.2 + a.cycles.1 < a.cycles.2))

/-- CUBE_OP_LAND: an operation whose global reads have performed lands its words and status and gives its signal, or ends
without landing on poison or on a parked group (R78, R84, R100, R227 to R230, R236, R243, R388). Nothing lands while the
core clock stands (R383). -/
def cubeLand (s : State) (c : CubeId) (f : FrameId) (id : Nat) : State :=
  let r := s.frame c f
  match r.fl.cubeA.find? (·.id = id) with
  | none => s
  | some e =>
    match e.op with
    | .mma _ acc _ _ _ _ sig =>
      if (s.cube c).camp.trip.isSome || (s.cube c).fab.coreOff || r.fl.cubeA.any fun a => decide (a.id < id) && !mayPass a e then s
      else
        match e.barred with
        | some z => cubeEnd s c f e sig (parkedTrap e.info z)
        | none =>
          let s1 := cubeFetchAll s c f id
          match (s1.frame c f).fl.cubeA.find? (·.id = id) with
          | none => s
          | some e =>
            if e.glob.any fun l => l.st = .queued || l.deps.any fun d => s1.merge.any (·.mid = d) then s
            else
              match operandPoison s1 c f e with
              | some line => cubePoisoned s1 c f e sig line
              | none =>
                let (q, tens) := tileApply s1 c f e none
                let det := detections (s.fresh + 100) e
                let q := countBec (addFmtErr q tens) det
                let q := statusSet q (accOf r acc) (statusGet q (accOf r acc) ||| berrBits det)
                let s := cubeLeave (s1.setCube c q) c f e
                signalOwn { s with fresh := s.fresh + 200 + e.olds.length } c f sig 1
    | _ => s

/-- CUBE_OPERAND_FAULT: a global operand line fails to translate; the steps before it complete, the rest is the resume
record, and the local translation fault is due; a walk that reads a poisoned line is logged (R244, R356). Poison that any
operand line of the operation has been read with ends it first. DEDUCED, assumption 34. DESIGN CHOICE, assumption 97. -/
def cubeOperandFault (s : State) (c : CubeId) (f : FrameId) (id : Nat) : State :=
  let r := s.frame c f
  match r.fl.cubeA.find? (·.id = id) with
  | none => s
  | some e =>
    match e.op, operandFailure s c f e with
    | .mma _ a x y h m sig, some (c0, va, reason) =>
      if (s.cube c).camp.trip.isSome || (s.cube c).fab.coreOff || e.barred.isSome
          || (r.fl.cubeA.any fun a => decide (a.id < id) && slotsMeet a e)
          || r.fl.resume.isSome then s
      else
        let s1 := cubeFetchAll s c f id
        match (s1.frame c f).fl.cubeA.find? (·.id = id) with
        | none => s
        | some e =>
          if (e.globals.zip e.glob).any fun (g, l) => decide (g.2 < c0) && l.st = .queued then s
          else
            match operandPoison s1 c f e with
            | some line => cubePoisoned s1 c f e sig line
            | none =>
              (logWalk (s1.setCube c (tileApply s1 c f e (some c0)).1) c f .cube va).modFrame c f fun r => { r with fl := { r.fl with
                cubeA := r.fl.cubeA.filter (·.id ≠ id)
                resume := some { e with
                  c0 := c0, started := none, failVa := w64 va, glob := [], op := .mma false a x y h m sig }
                traps := r.fl.traps ++ [trapAfter10 e.info (w64 va) reason 2 false] } }
    | _, _ => s

end Sys2Proof.Machine
end

