-- ==== Sys2Proof/Machine/Operands.lean ====
section
/-! DEFINITION. The operand forms of the slots: what a slot sees at issue, its effect as one value, scratchpad and global
addresses with their checks (R64, R68, R194, R195), and wait sets (R91). -/

namespace Sys2Proof.Machine

/-- What a slot sees at the issue of its bundle (R118). -/
structure Ctx where
  c    : CubeId
  f    : FrameId
  r    : Frame
  info : OpInfo
  /-- the next bundle in sequence (R109) -/
  next : Word
  /-- taint of the slot's guard (R91, R93) -/
  gt   : Taint

/-- The effect of a slot that issues: state changes at the end of the bundle, applied in slot order, and what the
bundle joins from its slots. -/
structure SlotEff where
  act   : State → State := id
  /-- a taken branch (R120) -/
  taken : Option Word := none
  /-- taint entering `CTAINT` besides guards (R93) -/
  ctAdd : Taint := 0
  /-- `ret` replaces `CTAINT` (R94) -/
  ctSet : Option Taint := none
  /-- `tctl` (R97) -/
  ctClr : Bool := false
  /-- link register of `call`, `calli` (R143) -/
  link  : Option Reg := none
  halts : Bool := false
  sys   : Option (BitVec 16) := none
  rfe   : Bool := false

abbrev SlotRes := Except TrapInfo SlotEff

/-- A trap of the slot at issue (R316, R317). -/
def Ctx.trap (k : Ctx) (cause : Nat) (t2 t3 : Word := 0) (fatal : Bool := false) : TrapInfo :=
  ⟨cause, k.info.slot, fatal, false, k.info.pc, k.info.bits, t2, t3⟩
/-- Illegal operation (R138). -/
def Ctx.illegal (k : Ctx) (t2 : Word := 0) : TrapInfo := k.trap 15 t2 0
/-- `TINFO(3)` of cause 10 (R317). -/
def tinfo10 (reason src : Nat) (write : Bool) : Word := w64 (reason + src <<< 4 + (bnat write) <<< 7)

/-- An effect on the frame. -/
def onFrame (k : Ctx) (g : Frame → Frame) : SlotEff := { act := fun s => s.modFrame k.c k.f g }

/-- One fixed-latency result, its flags and `IDZ` included (R121). -/
def landEff (k : Ctx) (file : FileNo) (reg n : Nat) (v : VReg) (t : Taint) (fl : Flags5 := 0) : SlotEff :=
  onFrame k fun r => r.addLanding (mkLanding k.r file reg n v t fl)
/-- A scalar or address result. -/
def landW (k : Ctx) (file : File3) (reg : Reg) (n : Nat) (v : Word) (t : Taint) (fl : Flags5 := 0) : SlotEff :=
  landEff k (no3 file) reg.toNat n (v.setWidth 2048) t fl
/-- A predicate result (R160). -/
def landP (k : Ctx) (p : Pred) (n : Nat) (v : Bool) (t : Taint) : SlotEff :=
  landEff k 4 p.toNat n (if v then 1 else 0) t
/-- A vector result to the register resolved at issue (R117, R174). -/
def landV (k : Ctx) (d : VSpec) (n : Nat) (v : VRes) (t : Taint) : SlotEff :=
  onFrame k fun r => r.addLanding
    { mkLanding k.r 3 (physV k.r.ctl d) n v.val t v.fl with inc := v.t10 }

def Ctx.rd (k : Ctx) (f : File3) (r : Reg) : Word := k.r.regs.rd f r
def Ctx.tnt (k : Ctx) (f : File3) (r : Reg) : Taint := k.r.taint.rd f r
def Ctx.v (k : Ctx) (v : VSpec) : VReg := k.r.regs.rdV (physV k.r.ctl v)
def Ctx.vt (k : Ctx) (v : VSpec) : Taint := k.r.taint.rdV (physV k.r.ctl v)
/-- The wait set's common part: guard and `CTAINT` at the start of the bundle (R91). -/
def Ctx.wait (k : Ctx) (t : Taint) : Taint := t ||| k.gt ||| k.r.taint.ct

/-- Base plus signed offset (R195). -/
def eaOf (b : Word) {n : Nat} (imm : BitVec n) : Word := b + imm.signExtend 64

/-- R195: ea[63:32] of a scratchpad address. -/
def windowOk (ea : Word) : Bool := bits ea.toNat 32 32 = 0 || bits ea.toNat 32 32 = 0x00FF0000
/-- The scratchpad window: bits [55:48] are 0xFF. An address that has a bit of [63:56] set as well is in no space: it takes
the translation fault of those bits and not the fault of the window (R64, R67). DESIGN CHOICE, assumption 95. -/
def inWindow (va : Word) : Bool := bits va.toNat 48 16 = 0xFF
/-- The form of a scratchpad address, its reservation apart (R68). -/
def spForm (a : Nat) : Bool := spFace a != 3 && !Nat.testBit a 26 && !(spFace a = 2 && Nat.testBit a 25)
/-- Whether n bytes at a scratchpad address lie in the task's reservation (R68). -/
def spInside (r : Frame) (a n : Nat) : Bool :=
  match r.task with
  | some t => spForm a && decide (spOff a + n ≤ t.sizeOf (spFace a))
  | none => false
/-- Whether the bytes lie in a retired bank (R37). -/
def spRetired (r : Frame) (a : Nat) : Bool :=
  match r.task with
  | some t => spForm a && decide (spOff a < t.sizeOf (spFace a)) &&
      bankGone r (spLayer a) (spFace a) (t.baseOf (spLayer a) (spFace a) + spOff a)
  | none => false
def bankInfo (r : Frame) (a : Nat) : Word :=
  match r.task with
  | some t => w64 (spLayer a + 1 <<< 8 + (t.baseOf (spLayer a) (spFace a) + spOff a) / (1 <<< 20) <<< 9 + spFace a <<< 16)
  | none => 0

/-- The checks of one run of scratchpad bytes after alignment, in the order of R194: layer withdrawn, then address. -/
def Ctx.spCheck (k : Ctx) (ea : Word) (n src : Nat) (write : Bool) : Except TrapInfo Nat :=
  let a := bits ea.toNat 0 32
  if !layerIn k.r (spLayer a) then .error (k.trap 13 (w64 (spLayer a)))
  else if windowOk ea && spRetired k.r a then .error (k.trap 13 (bankInfo k.r a))
  else if windowOk ea && spRetired k.r (a + n - 1) then .error (k.trap 13 (bankInfo k.r (a + n - 1)))
  else if !windowOk ea || !spInside k.r a n then .error (k.trap 10 ea (tinfo10 3 src write) true)
  else .ok a

def Ctx.aligned (k : Ctx) (ea : Word) (n : Nat) : Except TrapInfo Unit :=
  if ea.toNat % n = 0 then .ok () else .error (k.trap 14 ea)

/-- The buffer check over runs (R73, R74). -/
def Ctx.bufCheck (k : Ctx) (e : BufEvent) (l : List Run) (adr : Nat) : Except TrapInfo Unit :=
  match bufFault k.r e (touched k.r l) with
  | some i => .error (k.trap 7 (bufInfo k.r i) (w64 adr))
  | none => .ok ()

/-- The run at a scratchpad address; a nonzero bit [26] stays in its offset, where no reservation holds it (R68). -/
def spRun (a n : Nat) : Run := (spLayer a, spFace a, bits a 0 27, n)

/-- The address checks of a global access at issue: window, alignment, bits [63:56] (R64, R67, R194). DESIGN CHOICE,
assumption 95. -/
def Ctx.globalCheck (k : Ctx) (va : Word) (al src : Nat) (write : Bool) : Except TrapInfo Unit :=
  if inWindow va then .error k.illegal
  else if va.toNat % al ≠ 0 then .error (k.trap 14 va)
  else if bits va.toNat 56 8 ≠ 0 then .error (k.trap 10 va (tinfo10 2 src write) true)
  else .ok ()

/-- The record at a scratchpad address (R238): alignment, layer, address and face, without which it cannot be read; its
words. The checks on its values follow, in the order of R194, and its buffer state after those. DEDUCED, assumption 83. -/
def Ctx.record (k : Ctx) (s : State) (ea : Word) (n src : Nat) : Except TrapInfo (Nat × List Word) := do
  k.aligned ea 64
  let a ← k.spCheck ea n src false
  if spFace a ≠ 2 then .error (k.trap 5 (w64 a))
  else
    let key := k.r.key a
    .ok (a, (List.range (n / 8)).map fun i => w64 (leVal (faceBytes (s.cube k.c) (key + 8 * i) 8)))

/-- The buffer-state check of a record of n bytes, as a `ld` is checked (R74, R238). -/
def Ctx.recBuf (k : Ctx) (a n : Nat) : Except TrapInfo Unit := k.bufCheck .load [spRun a n] a

end Sys2Proof.Machine
end

