-- ==== Sys2Proof/Machine/CopyRun.lean ====
section
/-! DEFINITION. Copies and near-memory commands: start, the movement and conversion of elements, completion with
status, signal and barrier arrival (R249 to R256, R265 to R268, R87, R100, R101). -/

namespace Sys2Proof.Machine

def recW (rc : List Word) (i : Nat) : Nat := (rc.getD i 0).toNat

/-! Copy records (R250). -/

structure CopyRec where
  sf : Ty
  df : Ty
  scm : Nat
  rm : RM
  sat : Bool
  stripe : Bool
  snl : Nat
  src : Nat
  dst : Nat
  sca : Nat
  ext : List Nat
  sstr : List Int
  dstr : List Int
deriving DecidableEq, Repr

def copyRec (rc : List Word) : CopyRec :=
  let c := recW rc 0
  { sf := fmtTy (bits c 0 4), df := fmtTy (bits c 4 4), scm := bits c 8 2, rm := rmOf (BitVec.ofNat 2 (bits c 10 2))
    sat := Nat.testBit c 12, stripe := Nat.testBit c 13, snl := bits c 14 3
    src := recW rc 1, dst := recW rc 2, sca := recW rc 3
    ext := (List.range 6).map fun j => recW rc (4 + 4 * j)
    sstr := (List.range 6).map fun j => toSigned 64 (recW rc (5 + 4 * j))
    dstr := (List.range 6).map fun j => toSigned 64 (recW rc (6 + 4 * j)) }

def CopyRec.empty (x : CopyRec) : Bool := x.ext.any (· = 0)
def CopyRec.count (x : CopyRec) : Nat := x.ext.foldl (· * ·) 1
/-- The index tuple of element number n, i0 fastest (R251). -/
def CopyRec.tuple (x : CopyRec) (n : Nat) : List Nat :=
  (x.ext.foldl (fun (acc, n) e => (acc ++ [n % e], n / e)) (([] : List Nat), n)).1
def dotInt (l : List Nat) (m : List Int) : Int := (List.zipWith (fun (i : Nat) (d : Int) => (i : Int) * d) l m).foldl (· + ·) 0
def modW (i : Int) (n : Nat) : Nat := (i % ((1 <<< n : Nat) : Int)).toNat
def CopyRec.srcBit (x : CopyRec) (t : List Nat) : Nat := modW (8 * (x.src : Int) + (x.sf.width : Int) * dotInt t x.sstr) 67
/-- Destination bit address: strided, or the stripe layout of R224 and R225 under R253. -/
def CopyRec.dstBit (x : CopyRec) (t : List Nat) : Nat :=
  if x.stripe then
    let k := t.getD 0 0
    let i := t.getD 1 0
    let w := x.df.width
    let nl := x.snl + 1
    let st := k / 32
    let p := st % nl
    let j := st / nl
    let a := x.dst % (1 <<< 32)
    let s0 := stripesAt (x.ext.getD 0 1) nl 0
    let off := lineOff (spOff a) (banksOf (spFace a)) (slotLen s0 w) i
    let win := x.dst - a
    8 * (win + ((spLayer a + p) <<< 29) + (spFace a <<< 27) + off) + (32 * j + k % 32) * w
  else modW (8 * (x.dst : Int) + (x.df.width : Int) * dotInt t x.dstr) 67
/-- The scale byte's address (R252). -/
def CopyRec.scaleAdr (x : CopyRec) (t : List Nat) : Nat :=
  let l := if x.scm = 1 then 32 else 16
  let e := fun j => x.ext.getD j 1
  let i := fun j => t.getD j 0
  x.sca + i 0 / l + ceilDiv (e 0) l * (i 1 + e 1 * (i 2 + e 2 * (i 3 + e 3 * (i 4 + e 4 * i 5))))

/-- The scratchpad run at a bit address of the window (R64, R251). -/
def winRun (bitA w : Nat) : Option Run :=
  let b := bitA / 8
  if bits b 32 32 = 0x00FF0000 then some (spRun (bits b 0 32) (ceilDiv (bitA % 8 + w) 8)) else none
/-- The scratchpad bytes that a copy reads and those it writes, element by element; of an empty box the byte at each
base (R251, R256). -/
def CopyRec.runs (x : CopyRec) : List Run × List Run :=
  if x.empty then ((winRun (8 * x.src) 8).toList, (winRun (8 * x.dst) 8).toList)
  else
    let ts := (List.range x.count).map x.tuple
    (ts.filterMap (fun t => winRun (x.srcBit t) x.sf.width) ++
       (if x.scm = 0 then [] else ts.filterMap fun t => winRun (8 * x.scaleAdr t) 8),
     ts.filterMap fun t => winRun (x.dstBit t) x.df.width)
/-- The scratchpad bytes that a message reads (R257). -/
def msgRuns (rc : List Word) : List Run :=
  let len := bits (recW rc 2) 32 32
  let b := recW rc 1
  if bits b 48 8 = 0xFF ∧ bits b 56 8 = 0 ∧ len ≠ 0 then [spRun (bits b 0 32) len] else []

/-- A place of memory an engine reads or writes: a byte of the task's faces by key, or of global memory. -/
inductive Place where
  | face (key : Nat)
  | glob (pa : Nat)
deriving DecidableEq, Repr

/-- The model's mark of a place that its target package refuses: no reason of cause 10. -/
def placeRefused : Nat := 16
/-- Where a virtual byte address leads: the scratchpad window, whose bits [47:32] are zero, or a translation; the reason where
it fails (R64), or the mark of a target's refusal (R361). -/
def place (s : State) (c : CubeId) (f : FrameId) (n : Need) (va : Nat) (src : Stream := .copy) : Except Nat Place :=
  if bits va 56 8 ≠ 0 then .error 2
  else if bits va 48 8 = 0xFF then if bits va 32 16 ≠ 0 then .error 3 else .ok (.face ((s.frame c f).key (bits va 0 32)))
  else
    match translateF s c f n va src with
    | .error k => .error k
    | .ok a => if (accessCheck s (s.frame c f).part a n.w).isSome then .error placeRefused else .ok (.glob a)

/-- The face's address of a key: whether its bank or bus fails (R36). DEDUCED, assumption 32. -/
def faceFails (q : Cube) (key : Nat) : Bool :=
  q.fab.busBad.getLsbD (key >>> 28) || q.fab.banks.contains (bankKey (key >>> 28) (bits key 26 2) (bits key 0 26))
def placePoison (s : State) (c : CubeId) (p : Place) : Bool :=
  match p with
  | .face k => facePoisoned (s.cube c) k || faceFails (s.cube c) k
  | .glob a => poisoned s a
/-- An access of a face brings its layer to ACTIVE (R376). -/
def wakePlace (s : State) (c : CubeId) (p : Place) : State :=
  match p with
  | .face k => wakeLayers s c [k >>> 28]
  | .glob _ => s
def poisonPlace (s : State) (c : CubeId) (p : Place) (b : Bool) : State :=
  match p with
  | .face k => s.modCube c fun q => setFacePoison q k b
  | .glob a => setPoison s a b

/-- n bytes of a place inside one word or line, faces as the view shows them (R84, R99). -/
def readPlace (s : State) (c : CubeId) (view : View) (p : Place) (n : Nat) : List Byte :=
  match p with
  | .face k => (List.range n).map fun i => viewByte (s.cube c) view (k + i)
  | .glob a => mergedBytes s a n
/-- A 4-byte word changed under a mask of its bits, at once (R85). -/
def writeWord (s : State) (c : CubeId) (p : Place) (mask val : Nat) : State :=
  let new := fun (old : Nat) => leBytes 4 (Nat.lor (old - Nat.land old mask) (Nat.land val mask))
  match p with
  | .face k => s.modCube c fun q => faceSetList q k (new (leVal (faceBytes q k 4)))
  | .glob a => gWrite s a (new (mergedVal s a 4))

/-! The elements and words of a copy (R85, R251, R252). -/

/-- The aligned 4-byte words that hold w bits at a bit address. -/
def wordsOf (bitA w : Nat) : List Nat := (List.range (ceilDiv (bitA % 32 + w) 32)).map fun i => bitA / 32 + i
/-- The w bits at a bit address, from the words that hold them. -/
def bitsFrom (word : Nat → Nat) (bitA w : Nat) : Nat :=
  bits ((wordsOf bitA w).zipIdx.foldl (fun v (a, i) => v + word a <<< (32 * i)) 0) (bitA % 32) w
def addNew (l : List Nat) (a : Nat) : List Nat := if l.contains a then l else l ++ [a]

def CopyRec.elems (x : CopyRec) : List Nat := if x.empty then [] else List.range x.count
/-- The words that element n is read from, its scale byte's among them, and those it is written to. -/
def CopyRec.srcAt (x : CopyRec) (n : Nat) : List Nat :=
  let t := x.tuple n
  wordsOf (x.srcBit t) x.sf.width ++ if x.scm = 0 then [] else wordsOf (8 * x.scaleAdr t) 8
def CopyRec.dstAt (x : CopyRec) (n : Nat) : List Nat := wordsOf (x.dstBit (x.tuple n)) x.df.width
def CopyRec.srcWords (x : CopyRec) : List Nat := (x.elems.flatMap x.srcAt).foldl addNew []
def CopyRec.dstWords (x : CopyRec) : List Nat := (x.elems.flatMap x.dstAt).foldl addNew []

def CopyProg.word (g : CopyProg) (a : Nat) : Nat := match g.got.find? (·.1 = a) with | some x => x.2.1 | none => 0
def CopyProg.has (g : CopyProg) (a : Nat) : Bool := g.got.any (·.1 = a)
def CopyProg.badWord (g : CopyProg) (a : Nat) : Bool := match g.got.find? (·.1 = a) with | some x => x.2.2 | none => false

/-- One element moved or converted from the words read: its code, flags and codes `10` (R251, R252). -/
def CopyRec.elem (x : CopyRec) (g : CopyProg) (n : Nat) : Nat × Flags5 × Nat :=
  let t := x.tuple n
  let v := bitsFrom g.word (x.srcBit t) x.sf.width
  if x.sf = x.df ∧ x.scm = 0 then (v, 0, 0)
  else if x.scm = 0 then
    let (o, fl) := convertBits x.sf x.df x.rm x.sat v
    (o, fl, tern10 x.sf [v])
  else
    let (sv, f0) := scaledVal (x.scm = 2) (fval x.sf v) (bitsFrom g.word (8 * x.scaleAdr t) 8)
    let (o, f1) := if x.df.isFloat then (tyFmt x.df).ofVal x.rm x.sat sv else fltToInt x.df x.rm sv
    (o, f0 ||| f1, 0)

/-- What a copy writes to a destination word: the mask of the bits written, the bits, whether a word they come from was
poisoned or unreachable; a later element replaces an earlier one (R251). -/
def CopyRec.outWord (x : CopyRec) (g : CopyProg) (w : Nat) : Nat × Nat × Bool :=
  x.elems.foldl (fun (m, v, b) n =>
    if !(x.dstAt n).contains w then (m, v, b)
    else
      let d := x.dstBit (x.tuple n)
      let cut := fun (y : Nat) => (y <<< (d % 32)) >>> (32 * (w - d / 32)) % (1 <<< 32)
      let mask := cut ((1 <<< x.df.width) - 1)
      (Nat.lor m mask, Nat.lor (v - Nat.land v mask) (cut ((x.elem g n).1 % (1 <<< x.df.width))), b || (x.srcAt n).any g.badWord))
    (0, 0, false)

/-! The copy stream (R83). -/

def modCopy (r : Frame) (id : Nat) (g : CopyEnt → CopyEnt) : Frame :=
  { r with fl := { r.fl with copyA := r.fl.copyA.map fun e => if e.id = id then g e else e } }

/-- Global addresses of the accesses that an operation of the copy stream has still to make. -/
def copyRest (s : State) (c : CubeId) (f : FrameId) (e : CopyEnt) : List Nat :=
  let glob := fun (n : Need) (w : Nat) => match place s c f n (4 * w) with | .ok (.glob a) => some a | _ => none
  match e.op, e.line with
  | .copy rc, _ =>
    let x := copyRec rc
    (x.srcWords.filter fun w => !e.prog.has w).filterMap (glob { r := true }) ++
      (x.dstWords.filter fun w => !e.prog.done.contains w).filterMap (glob { w := true })
  | .putf .., some l => if l.st = .performed then [] else l.pa.toList
  | _, _ => []
/-- Lane order of the copy stream: no earlier operation of the task has still to access that home and lane (R83). -/
def copyTurn (s : State) (c : CubeId) (f : FrameId) (id a : Nat) : Bool :=
  (s.frame c f).fl.copyA.all fun e => decide (id ≤ e.id) ||
    (copyRest s c f e).all fun b => homeOf b != homeOf a || laneOf b != laneOf a
def placeTurn (s : State) (c : CubeId) (f : FrameId) (id : Nat) (p : Place) : Bool :=
  match p with | .face _ => true | .glob a => copyTurn s c f id a && laneUp s c a

/-- A `putf` leaves the copy queue (R83, R88, R264), not while the core clock stands (R383). -/
def sendPutf (s : State) (c : CubeId) (f : FrameId) (e : CopyEnt) (adr val : Word) : State :=
  let r := s.frame c f
  match translateF s c f { w := true } adr.toNat .copy with
  | .error _ => s
  | .ok a =>
    if waitOver r e.id e.wait ∧ drainsOpen s c f e.id true ∧ accessCheck s r.part a true = none
        ∧ !earlierPending s c f e.id false (fun h => h.1 = paPkg a) ∧ copyTurn s c f e.id a ∧ laneUp s c a ∧ !clockStands s c then
      wire (s.setFrame c f { r with fl := { r.fl with
        copyQ := r.fl.copyQ.drop 1
        copyA := r.fl.copyA ++ [{ e with started := true, line := some ⟨adr, 8, some a, .sent, val.toNat, [], false⟩ }] } })
        c f a e.info e.id adr (.write (leBytes 8 val.toNat))
    else s

/-- The request that a copy's access makes of another package (R363). -/
def wirePlace (s : State) (c : CubeId) (f : FrameId) (e : CopyEnt) (p : Place) (va : Nat)
    (g : Nat → Nat × RemoteKind) : State :=
  match p with
  | .face _ => s
  | .glob a => wire s c f (g a).1 e.info e.id (w64 va) (g a).2

/-- A started copy of a frame. -/
def activeCopy (s : State) (c : CubeId) (f : FrameId) (id : Nat) : Option (CopyEnt × CopyRec) :=
  match (s.frame c f).fl.copyA.find? (·.id = id) with
  | some e => (match e.op with | .copy rc => some (e, copyRec rc) | _ => none)
  | none => none

/-- A started copy reads one source word (R84, R85, R99); an unreachable one counts as poisoned (R255). -/
def copyRead (s : State) (c : CubeId) (f : FrameId) (id w : Nat) : State :=
  match activeCopy s c f id with
  | none => s
  | some (e, _) =>
    let put := fun (v : Nat) (bad : Bool) =>
      ({ s with fresh := s.fresh + e.olds.length + 1 }).modFrame c f fun r =>
        modCopy r id fun e => { e with prog := { e.prog with got := e.prog.got ++ [(w, v, bad)] } }
    if e.prog.has w then s
    else
      match place s c f { r := true } (4 * w) with
      | .ok p =>
        if !placeTurn s c f id p then s
        else
          let t := wakePlace (put (leVal (readPlace s c (viewOf s.fresh e.olds) p 4)) (placePoison s c p)) c p
          if e.prog.got.any fun x => x.1 / 16 = w / 16 then t else wirePlace t c f e p (4 * w) fun a => (a / 64 * 64, .read 64)
      | .error k => if k = placeRefused then s else logWalk (put 0 true) c f .copy (4 * w)

/-- A destination line that a copy has written whole and clean: its poison is cleared (R77). -/
def CopyRec.lineWhole (x : CopyRec) (g : CopyProg) (w : Nat) : Bool :=
  !g.bad.contains (w / 16) && (List.range 16).all fun i => g.done.contains (w / 16 * 16 + i) &&
    decide ((x.outWord g (w / 16 * 16 + i)).1 = (1 <<< 32) - 1)

/-- A started copy writes one destination word whose source words it has read; a line that meets poison, a failing bank
or bus, or no translation is poisoned where it can be reached, and counted (R76, R77, R85, R255). -/
def copyWrite (s : State) (c : CubeId) (f : FrameId) (id w : Nat) : State :=
  match activeCopy s c f id with
  | none => s
  | some (e, x) =>
    let put := fun (s : State) (bad : Bool) => s.modFrame c f fun r => modCopy r id fun e =>
      { e with prog := { e.prog with
          done := e.prog.done ++ [w], bad := if bad then addNew e.prog.bad (w / 16) else e.prog.bad } }
    if e.prog.done.contains w || x.elems.any (fun n => (x.dstAt n).contains w && !(x.srcAt n).all e.prog.has) then s
    else
      match place s c f { w := true } (4 * w) with
      | .error k => if k = placeRefused then s else logWalk (put s true) c f .copy (4 * w)
      | .ok p =>
        if !placeTurn s c f id p then s
        else
          let (m, v, b) := x.outWord e.prog w
          let bad := b || (match p with | .face k => faceFails (s.cube c) k | .glob _ => false)
          let s := put (writeWord (wakePlace s c p) c p m v) bad
          let s := wirePlace s c f e p (4 * w) fun a => (a, .write (mergedBytes s a 4))
          if bad then poisonPlace s c p true
          else
            match activeCopy s c f id with
            | some (e, _) => if x.lineWhole e.prog w then poisonPlace s c p false else s
            | none => s

/-- One access of a started copy, numbered through its source words and then its destination words. -/
def copyAccess (s : State) (c : CubeId) (f : FrameId) (id n : Nat) : State :=
  match activeCopy s c f id with
  | none => s
  | some (_, x) =>
    match x.srcWords[n]? with
    | some w => copyRead s c f id w
    | none => match x.dstWords[n - x.srcWords.length]? with | some w => copyWrite s c f id w | none => s

/-- The element of a started copy that its target refuses, and whether it is one to be written (R66, R255, R361). -/
def copyRefused (s : State) (c : CubeId) (f : FrameId) (e : CopyEnt) : Option ((Word × Nat × Nat) × Bool) :=
  match e.op with
  | .copy rc =>
    let x := copyRec rc
    let hit := fun (n : Need) (w : Nat) =>
      if bits (4 * w) 48 8 = 0xFF then none else (refusal s c f n (4 * w) .copy).map fun y => (y, n.w)
    ((x.srcWords.filter fun w => !e.prog.has w).findSome? (hit { r := true })) <|>
      ((x.dstWords.filter fun w => !e.prog.done.contains w).findSome? (hit { w := true }))
  | _ => none

/-- The words at an E-face record's STATUS, written before the signal (R238). -/
def writeStatus (s : State) (c : CubeId) (f : FrameId) (recA : BitVec 32) (off : Nat) (v : Word) : State :=
  let key := (s.frame c f).key (recA.toNat + off)
  s.modCube c fun q => faceWrite q key (leBytes 8 v.toNat)

def statusWord (poisonedN : Nat) (fl : Flags5) (code : Nat) : Word := w64 (poisonedN <<< 32 + fl.toNat <<< 22 + code)

def nmcUsesY (op : Nat) : Bool := op = 2 || op = 3 || op = 4 || op = 6

/-- The first lines of a copy or command translate, or the failing address with its reason and side (R255). A command
whose first line lies in another package has no failure (R267). -/
def firstFailure (s : State) (c : CubeId) (f : FrameId) (e : CopyEnt) : Option (Word × Nat × Nat × Bool) :=
  let chk := fun (n : Need) (va : Nat) (st : Stream) (src : Nat) =>
    match place s c f n va st with
    | .error k => if st = .nm ∧ k = placeRefused then none else some (w64 va, k, src, n.w)
    | .ok _ => none
  match e.op with
  | .copy rc =>
    let x := copyRec rc
    if x.empty then none
    else
      let t := x.tuple 0
      (chk { r := true } (x.srcBit t / 8) .copy 1) <|> (chk { w := true } (x.dstBit t / 8) .copy 1)
  | .msend rc _ _ =>
    let dk := Nat.testBit (recW rc 2) 19
    let len := bits (recW rc 2) 32 32
    (if len = 0 then none else chk { r := true } (recW rc 1) .msg 1) <|> (if dk then none else chk { w := true } (recW rc 0) .msg 1)
  | .putf adr _ => chk { w := true } adr.toNat .copy 1
  | .nmc rc _ =>
    let op := bits (recW rc 0) 0 8
    if recW rc 3 = 0 then none
    else
      (chk { r := true, w := true } (recW rc 1) .nm 3) <|>
      (if nmcUsesY op then chk { r := true } (recW rc 2) .nm 3 else none)
  | .wlaunch _ => none

/-- COPY_START: the head of the copy queue starts, at most four copies at once; one of an empty box waits for nothing
(R249, R255, R256). Nothing starts while the core clock stands (R383). -/
def copyStart (s : State) (c : CubeId) (f : FrameId) : State :=
  let r := s.frame c f
  match r.fl.copyQ with
  | [] => s
  | e :: rest =>
    match e.op with
    | .copy rc =>
      let active := (r.fl.copyA.filter fun a => match a.op with | .copy rc => !(copyRec rc).empty | _ => false).length
      let held := 4 ≤ active || !waitOver r e.id e.wait || !drainsOpen s c f e.id false || (firstFailure s c f e).isSome
      if !r.fl.traps.isEmpty || clockStands s c || (!(copyRec rc).empty && held) then s
      else
        s.setFrame c f { r with fl := { r.fl with copyQ := rest, copyA := r.fl.copyA ++ [{ e with started := true }] } }
    | _ => s

/-- COPY_COMPLETE: every word not yet moved moves; STATUS, buffer states, codes `10`, signal and arrival follow (R100,
R251 to R256). A copy that a target refuses does not complete (R255). -/
def copyComplete (s : State) (c : CubeId) (f : FrameId) (id : Nat) : State :=
  match activeCopy s c f id with
  | none => s
  | some (_, x) =>
    let s1 := x.srcWords.foldl (fun s w => copyRead s c f id w) s
    let s1 := x.dstWords.foldl (fun s w => copyWrite s c f id w) s1
    match activeCopy s1 c f id with
    | none => s
    | some (e, _) =>
      if !(x.dstWords.all e.prog.done.contains && x.srcWords.all e.prog.has) then s
      else
        let (fl, tens) := x.elems.foldl (fun ((fl, k) : Flags5 × Nat) n =>
          let y := x.elem e.prog n
          (fl ||| y.2.1, k + y.2.2)) (0, 0)
        let n := e.prog.bad.length
        let s := writeStatus s1 c f (e.recA.setWidth 32) 0xE0 (if x.empty then 0 else statusWord n fl (if n = 0 then 0 else 1))
        let s := s.modCube c fun q => addFmtErr q tens
        let s := s.modFrame c f fun r =>
          let r := fillDone (readDone r e.srcB) e.dstB
          { r with fl := { r.fl with copyA := r.fl.copyA.filter (·.id ≠ id) } }
        engineArrive (signalOwn s c f e.sig 2) c f e.info e.id e.bar

/-! Near-memory commands (R265 to R268, R304). -/

/-- A command record (R265). -/
structure NmCmd where
  op : Nat
  t  : Ty
  rm : RM
  al : Nat
  be : Nat
  xa : Nat
  ya : Nat
  count : Nat
deriving DecidableEq, Repr

def nmCmd (rc : List Word) : NmCmd :=
  let c := recW rc 0
  ⟨bits c 0 8, fmtTy (bits c 8 5), rmOf (BitVec.ofNat 2 (bits c 13 2)), recW rc 4, recW rc 5, recW rc 1, recW rc 2, recW rc 3⟩
def NmCmd.bytes (x : NmCmd) : Nat := x.count * (x.t.width / 8)
/-- The 4-byte words of X, each of which is read at once and written at once (R85). -/
def NmCmd.units (x : NmCmd) : Nat := ceilDiv x.bytes 4
/-- Whether X lines are read: FILL and COPY read none (R304). -/
def NmCmd.readsX (x : NmCmd) : Bool := x.op != 0 && x.op != 4
/-- The words of line i of X that the command covers. -/
def NmCmd.lineUnits (x : NmCmd) (line : Nat) : List Nat :=
  ((List.range 16).map fun i => 16 * line + i).filter fun u => decide (u < x.units)

/-- One element's result (R266); α and β are exact. -/
def nmcElem (op : Nat) (t : Ty) (rm : RM) (al be x y : Nat) : Nat × Flags5 :=
  let av := fval .f64 al
  let bv := fval .f64 be
  let xv := fval t x
  let yv := fval t y
  match op with
  | 0 => (tyFmt t).ofVal rm false av
  | 1 => fround t rm false (av.mul xv)
  | 2 => let (p, f) := av.mul yv; let (r, g) := xv.add rm p; fround t rm false (r, f ||| g)
  | 3 =>
    let (p, f) := bv.mul xv
    let (q, g) := av.mul yv
    let (r, h) := p.add rm q
    fround t rm false (r, f ||| g ||| h)
  | _ => (y, 0)

/-- Translated address of an element, in this package (R267). -/
def nmcPlace (s : State) (c : CubeId) (f : FrameId) (n : Need) (va : Nat) : Option Nat :=
  match translateF s c f n va .nm with
  | .ok a => if paPkg a = s.pkg then some a else none
  | .error _ => none
def NmCmd.xPlace (x : NmCmd) (s : State) (c : CubeId) (f : FrameId) (o : Nat) : Option Nat :=
  nmcPlace s c f { r := true, w := true } (x.xa + o)
def NmCmd.yPlace (x : NmCmd) (s : State) (c : CubeId) (f : FrameId) (o : Nat) : Option Nat :=
  nmcPlace s c f { r := true } (x.ya + o)

/-- Whether the command's range translates outside the task's package (R267). -/
def nmcAway (s : State) (c : CubeId) (f : FrameId) (x : NmCmd) : Bool :=
  let away := fun (n : Need) (va : Nat) => match translateF s c f n va .nm with | .ok a => paPkg a != s.pkg | .error _ => false
  (List.range (ceilDiv x.bytes 64)).any fun i =>
    away { r := true, w := true } (x.xa + 64 * i) || (nmcUsesY x.op && away { r := true } (x.ya + 64 * i))

/-- Places of X that a started command has still to read or write: each line is a command in its own lane (R267). -/
def nmcRest (s : State) (c : CubeId) (f : FrameId) (e : CopyEnt) : List Nat :=
  match e.op with
  | .nmc rc _ =>
    let x := nmCmd rc
    if e.nm.away then []
    else
      (((List.range x.units).filter fun u => !e.nm.done.any (·.1 = u)).filterMap fun u => x.xPlace s c f (4 * u)) ++
        e.nm.out.map fun o => o.2.1
  | _ => []
/-- Commands perform in issue order in each lane (R101). -/
def nmcTurn (s : State) (c : CubeId) (f : FrameId) (id a : Nat) : Bool :=
  (s.frame c f).fl.copyA.all fun e => decide (id ≤ e.id) ||
    (nmcRest s c f e).all fun b => homeOf b != homeOf a || laneOf b != laneOf a

/-- Element i of X or Y, from the words read. -/
def NmCmd.elemAt (x : NmCmd) (done : List (Nat × Nat × Nat)) (g : Nat × Nat → Nat) (i : Nat) : Nat :=
  let w := x.t.width / 8
  let word := fun (u : Nat) => match done.find? (·.1 = u) with | some d => g d.2 | none => 0
  bits (word (w * i / 4) + word (w * i / 4 + 1) <<< 32) (8 * (w * i % 4)) (8 * w)
/-- The bytes that an elementwise command writes to line i of X, and their flags. -/
def NmCmd.lineRes (x : NmCmd) (done : List (Nat × Nat × Nat)) (line : Nat) : List Byte × Flags5 :=
  let w := x.t.width / 8
  let res := (List.range (min 64 (x.bytes - 64 * line) / w)).map fun i =>
    let j := 64 * line / w + i
    nmcElem x.op x.t x.rm x.al x.be (x.elemAt done Prod.fst j) (x.elemAt done Prod.snd j)
  (res.flatMap fun v => leBytes w v.1, res.foldl (fun u v => u ||| v.2) 0)

/-- The lines that a unit finds bad, with their addresses: poisoned, or unreachable, when the address is free (R255, R268). -/
def nmcBad (s : State) (x : NmCmd) (line : Nat) (xp yp : Option Nat) : List (Nat × Nat) :=
  let lost := (Config.free s.fresh).toNat % (1 <<< 52)
  let bad := fun (read : Bool) (key : Nat) (p : Option Nat) =>
    match p with
    | some a => if read && poisoned s a then [(key, a)] else []
    | none => [(key, lost)]
  bad x.readsX (2 * line) xp ++ if nmcUsesY x.op then bad true (2 * line + 1) yp else []

/-- The exact sum of SUM and DOT over the bytes read, rounded once to FP64 (R266). -/
def nmcSum (x : NmCmd) (done : List (Nat × Nat × Nat)) : Nat × Flags5 :=
  let at_ := fun (i : Nat) (g : Nat × Nat → Nat) => fval x.t (x.elemAt done g i)
  let terms := (List.range x.count).map fun i =>
    if x.op = 6 then (at_ i Prod.fst).mul (at_ i Prod.snd) else (at_ i Prod.fst, 0)
  let (v, inv) := exactSum (terms.map Prod.fst)
  let mulInv := terms.any fun y => y.2 != 0
  let nan := (terms.map Prod.fst).any FVal.isNan
  let (code, fl) := fmtF64.ofVal .rn false v
  (code, fl ||| (if inv || mulInv || nan then flINV else 0))

/-- A fetched value is bound at its pending register (R122, R267); a poisoned fetch traps on consumption (R268). -/
def fetchBind (r : Frame) (id : Nat) (v : Word) (bad : Option Nat) : Frame :=
  { r with fl := { r.fl with var := r.fl.var.map fun x =>
      if x.id = id then { x with val := some (v.setWidth 2048, 0, bad) } else x } }

/-- STATUS of a command all of whose units have been read, and the value it fetches: STATUS, or the sum, with the first
line read poisoned (R78, R266, R268, R304). -/
def nmcValue (x : NmCmd) (g : NmProg) : Word × Word × Option Nat :=
  let n := g.bad.length
  let st := fun (fl : Flags5) => statusWord n fl (if n = 0 then 0 else 1)
  if x.op < 5 then (st g.fl, st g.fl, none)
  else
    let (v, fl) := nmcSum x g.done
    (st fl, w64 v, g.bad.head?.map Prod.snd)
/-- Writes that a command read from a merge buffer and that have not performed (R84). -/
def nmcDeps (s : State) (g : NmProg) : Bool := g.deps.any fun d => s.merge.any (·.mid = d)
/-- The fetched value returns once every word has been read, and may land before the command's writes; its tag is given back
when the writes it read have performed (R84, R89, R267, R306). -/
def nmcReturn (s : State) (c : CubeId) (f : FrameId) (id : Nat) : State :=
  match (s.frame c f).fl.copyA.find? (·.id = id) with
  | none => s
  | some e =>
    match e.op with
    | .nmc rc true =>
      let x := nmCmd rc
      if (List.range x.units).all (fun u => e.nm.done.any (·.1 = u)) then
        let v := nmcValue x e.nm
        s.modFrame c f fun r => let r := fetchBind r id v.2.1 v.2.2; if nmcDeps s e.nm then r else releaseTag r id
      else s
    | _ => s

/-- A line of an elementwise command all of whose words have been read is computed, unless it is bad (R266, R307). -/
def nmcSettle (s : State) (c : CubeId) (f : FrameId) (x : NmCmd) (line : Nat) (g : NmProg) : NmProg :=
  if 5 ≤ x.op || !(x.lineUnits line).all (fun u => g.done.any (·.1 = u)) || g.bad.any (fun b => b.1 / 2 = line) then g
  else
    let (b, fl) := x.lineRes g.done line
    { g with
      fl := g.fl ||| fl
      out := g.out ++ (x.lineUnits line).filterMap fun u =>
        (x.xPlace s c f (4 * u)).map fun a => (u, a, (b.drop (4 * (u - 16 * line))).take 4) }

/-- One word of a started command is read, of X and of Y. A bad X or Y line leaves the X line as it is, poisoned and
counted; a sum keeps what it read (R85, R266 to R268, R304, R307). -/
def nmcRead (s : State) (c : CubeId) (f : FrameId) (id u : Nat) : State :=
  match (s.frame c f).fl.copyA.find? (·.id = id) with
  | none => s
  | some e =>
    match e.op with
    | .nmc rc _ =>
      let x := nmCmd rc
      let line := u / 16
      let xp := x.xPlace s c f (4 * u)
      let yp := if nmcUsesY x.op then x.yPlace s c f (4 * u) else none
      if e.nm.away || decide (x.units ≤ u) || e.nm.done.any (·.1 = u) || !(xp.all (nmcTurn s c f id)) then s
      else
        let known := e.nm.bad.any fun b => b.1 / 2 = line
        let bad := nmcBad s x line xp yp
        let n := min 4 (x.bytes - 4 * u)
        let rd := fun (on : Bool) (p : Option Nat) => match p with | some a => if on then (gRead s a n, mergeDeps s a n) else (0, []) | none => (0, [])
        let (xv, xd) := rd x.readsX xp
        let (yv, yd) := rd true yp
        let s := if known then s else
          let s := if xp.isNone then logWalk s c f .nm (x.xa + 4 * u) else s
          if nmcUsesY x.op ∧ yp.isNone then logWalk s c f .nm (x.ya + 4 * u) else s
        let s := match xp with | some a => if x.op < 5 ∧ bad ≠ [] then setPoison s a true else s | none => s
        let new := if 5 ≤ x.op then bad.filter fun b => !e.nm.bad.any fun d => d.1 = b.1
          else if known then [] else (bad.take 1).map fun b => (2 * line, b.2)
        let s : State := { s with fresh := s.fresh + bnat (bad != []) }
        nmcReturn (s.modFrame c f fun r => modCopy r id fun e => { e with nm := nmcSettle s c f x line { e.nm with
          done := e.nm.done ++ [(u, xv, yv)], bad := e.nm.bad ++ new, deps := e.nm.deps ++ xd ++ yd } }) c f id
    | _ => s

/-- One word is written once its line has been computed; a FILL or COPY that has written a whole line clears its poison
(R77, R304). -/
def nmcWrite (s : State) (c : CubeId) (f : FrameId) (id u : Nat) : State :=
  match (s.frame c f).fl.copyA.find? (·.id = id) with
  | none => s
  | some e =>
    match e.op, e.nm.out.find? (·.1 = u) with
    | .nmc rc _, some (_, a, b) =>
      if !nmcTurn s c f id a then s
      else
        let left := e.nm.out.filter (·.1 ≠ u)
        let s := (gWrite s a b).modFrame c f fun r => modCopy r id fun e => { e with nm := { e.nm with out := left } }
        let x := nmCmd rc
        let whole := !x.readsX && decide (64 * (u / 16) + 64 ≤ x.bytes) && !left.any fun o => o.1 / 16 = u / 16
        if whole then setPoison s a false else s
    | _, _ => s
/-- A word's next access: its read, or its write. -/
def nmcUnit (s : State) (c : CubeId) (f : FrameId) (id u : Nat) : State :=
  match (s.frame c f).fl.copyA.find? (·.id = id) with
  | none => s
  | some e => if e.nm.done.any (·.1 = u) then nmcWrite s c f id u else nmcRead s c f id u

/-- NMC_COMPLETE: a started command performs what is left of it, reads first, and returns its fetch (R100, R266 to R268,
R304); the poisoned fetch of a sum names the line it read poisoned (R78, R317). The value that a sum fetches where its range
lies outside the package is free: the spec states none (R267). DESIGN CHOICE, assumption 103. -/
def nmcComplete (s : State) (c : CubeId) (f : FrameId) (id : Nat) : State :=
  match (s.frame c f).fl.copyA.find? (·.id = id) with
  | none => s
  | some e =>
    match e.op with
    | .nmc rc fe =>
      let x := nmCmd rc
      let s1 := if e.nm.away then s else (List.range x.units).foldl (fun s u => nmcRead s c f id u) s
      let s1 := (List.range x.units).foldl (fun s u => nmcWrite s c f id u) s1
      match (s1.frame c f).fl.copyA.find? (·.id = id) with
      | none => s
      | some e =>
        let close := fun (st : Word) (v : Word) (bad : Option Nat) =>
          let s := writeStatus s1 c f (e.recA.setWidth 32) 0x30 st
          let s := s.modFrame c f fun r =>
            let r := if fe then releaseTag (fetchBind r id v bad) id else r
            { r with fl := { r.fl with copyA := r.fl.copyA.filter (·.id ≠ id) } }
          signalOwn { s with fresh := s.fresh + bnat e.nm.away } c f e.sig 2
        if x.count = 0 then close 0 0 none
        else if e.nm.away then close (statusWord 0 0 2) (if x.op < 5 then statusWord 0 0 2 else Config.free s.fresh) none
        else if nmcDeps s1 e.nm || e.nm.out ≠ [] || !(List.range x.units).all (fun u => e.nm.done.any (·.1 = u)) then s
        else
          let v := nmcValue x e.nm
          close v.1 v.2.1 v.2.2
    | _ => s

end Sys2Proof.Machine
end

