-- ==== Sys2Proof/Machine/MsgRun.lean ====
section
/-! DEFINITION. Messages from header to completion, inside the package and between packages: the sending engine,
acceptance, Yarrow's grants, lines, expiry, re-requests, orphans, closing and resuming, completion (R74, R75, R257 to
R263, R328, R367 to R369); `putf` completion; requests of other packages (R361 to R363). -/

namespace Sys2Proof.Machine

/-! The message record (R257). -/

def msgLen (rc : List Word) : Nat := bits (recW rc 2) 32 32
def msgRsig (rc : List Word) : BitVec 6 := BitVec.ofNat 6 (bits (recW rc 2) 26 6)
def msgBuf (rc : List Word) : Nat := bits (recW rc 2) 20 6
def msgToBuffer (rc : List Word) : Bool := Nat.testBit (recW rc 2) 19
def msgHandle (rc : List Word) : Nat := bits (recW rc 2) 0 14
/-- Number of 64-byte lines of a message, bytes of one, and its 4-byte words, numbered through the message. -/
def lineCount (len : Nat) : Nat := ceilDiv len 64
def lineLen (len i : Nat) : Nat := min 64 (len - 64 * i)
def lineWords (len i : Nat) : List Nat := (List.range (ceilDiv (lineLen len i) 4)).map fun k => 16 * i + k
/-- The lines from a byte offset on. -/
def linesFrom (len at_ : Nat) : List Nat := (List.range (lineCount len)).filter fun i => decide (at_ / 64 ≤ i)

def setMsg (s : State) (c : CubeId) (f : FrameId) (msgid : Nat) (g : MsgAct → MsgAct) : State :=
  s.modFrame c f fun r => { r with fl := { r.fl with msgs := r.fl.msgs.map fun m => if m.msgid = msgid then g m else m } }
def dropMsg (s : State) (c : CubeId) (f : FrameId) (msgid : Nat) : State :=
  s.modFrame c f fun r => { r with fl := { r.fl with msgs := r.fl.msgs.filter (·.msgid ≠ msgid) } }

/-- A message as requests name it. -/
def msgKey (t : Task) (msgid : Nat) : MsgKey := ⟨t.part, t.launch, t.gang, t.rank, msgid⟩
def keyOfTask (k : MsgKey) (t : Task) : Bool := k.part = t.part && k.launch = t.launch && k.gang = t.gang && k.rank = t.rank
/-- The active message of this package that a key names. -/
def findMsg (s : State) (k : MsgKey) : Option (CubeId × FrameId × MsgAct) :=
  allFrames.findSome? fun (c, f) =>
    let r := s.frame c f
    match r.task with
    | some t => if keyOfTask k t then (r.fl.msgs.find? fun m : MsgAct => m.msgid = k.msgid).map fun m => (c, f, m) else none
    | none => none
/-- The name of a message in requests between packages. -/
def wireKey (s : State) (k : MsgKey) : MsgKey := { k with launch := wireId s k.launch }
def ownKey (s : State) (k : MsgKey) : MsgKey := { k with launch := ownId s k.launch }

/-! The sender's engine. -/

/-- What another package says of a request by its fabric partition (R361): reason 4 where it is none of the fabric
partition, 1 where it is another partition's. -/
def pkgRefuses (s : State) (part pkg : Nat) : Option Nat :=
  match s.hub.remotes.find? (·.pkg = pkg) with
  | some m => if m.fpid = fpidOf s part then none else some 1
  | none => some 4

/-- The target's refusal of a message before its header is sent: the first source line, a global destination's first
byte, or another package (R66, R260, R361). -/
def msgRefused (s : State) (c : CubeId) (f : FrameId) (rc : List Word) : Option ((Word × Nat × Nat) × Bool) :=
  let r := s.frame c f
  let src := if msgLen rc = 0 ∨ bits (recW rc 1) 48 8 = 0xFF then none else refusal s c f { r := true } (recW rc 1) .msg
  let dst :=
    if !msgToBuffer rc then refusal s c f { w := true } (recW rc 0) .msg true
    else if bits (msgHandle rc) 8 6 = taskSrank r then none
    else
      let pkg := spanPkg s r (bits (msgHandle rc) 8 6)
      if pkg = s.pkg then none else (pkgRefuses s r.part pkg).map fun k => (w64 (recW rc 0), pkg <<< 42, k)
  (src.map fun x => (x, false)) <|> (dst.map fun x => (x, true))

/-- MSGIDs of the task's active messages: those of this level, and below a handler those saved in the block (R261, R328). -/
def msgIds (s : State) (c : CubeId) (f : FrameId) : List Nat :=
  let r := s.frame c f
  let base := ctxBase s r.priv.ctxptr
  r.fl.msgs.map (·.msgid) ++
    if r.priv.lvl then
      (List.range (bits (gRead s (base + offCounts) 8) 32 5)).map fun i => bits (gRead s (base + offMsg + 64 * i + 32) 8) 16 24
    else []
/-- The first MSGID from k on that no active message has. -/
def freeMsgid (l : List Nat) (k : Nat) : Nat :=
  (((List.range (l.length + 1)).map fun i => (k + i) % (1 <<< 24)).find? fun n => !l.contains n).getD k

/-- An `msend` leaves the copy queue: a message is active, at most 16 of a task at once, under a MSGID that no other of them
has (R91, R255, R261, R328). Nothing leaves while the core clock stands (R383). -/
def sendMsend (s : State) (c : CubeId) (f : FrameId) (e : CopyEnt) (rc : List Word) (cls : BitVec 2) (msgid : Nat) : State :=
  let r := s.frame c f
  let pa := if msgToBuffer rc then .ok none else (translateF s c f { w := true } (recW rc 0) .msg).map some
  match pa with
  | .error _ => s
  | .ok pa =>
    if 16 ≤ r.fl.msgs.length ∨ !waitOver r e.id e.wait ∨ !drainsOpen s c f e.id false
        ∨ (firstFailure s c f e).isSome ∨ (msgRefused s c f rc).isSome ∨ clockStands s c then s
    else
      s.setFrame c f { r with fl := { r.fl with
        copyQ := r.fl.copyQ.drop 1
        msgs := r.fl.msgs ++ [⟨freeMsgid (msgIds s c f) msgid, e.id, e.info, rc, e.recA.setWidth 32, e.sig, cls, e.wait, e.srcB, pa, none, 0, 0, none,
          false, e.olds, e.pre, none⟩] } }

/-- An `nmc` leaves the copy queue (R91, R255, R265); one whose range leaves the package does nothing more (R267). -/
def sendNmc (s : State) (c : CubeId) (f : FrameId) (e : CopyEnt) (rc : List Word) : State :=
  let r := s.frame c f
  if !waitOver r e.id e.wait || !drainsOpen s c f e.id false || (firstFailure s c f e).isSome || clockStands s c then s
  else
    s.setFrame c f { r with fl := { r.fl with
      copyQ := r.fl.copyQ.drop 1
      copyA := r.fl.copyA ++ [{ e with started := true, nm := { e.nm with away := nmcAway s c f (nmCmd rc) } }] } }

/-- The place of source line i of a task's message. -/
def srcPlace (s : State) (c : CubeId) (f : FrameId) (m : MsgAct) (i : Nat) : Except Nat Place :=
  place s c f { r := true } (recW m.rc 1 + 64 * i) .msg
/-- The bytes of a source line as it is read, and whether it is poisoned or unreachable (R76, R99, R255).
DEDUCED, assumption 38. -/
def readSource (s : State) (c : CubeId) (f : FrameId) (m : MsgAct) (i : Nat) : List Byte × Bool :=
  let n := lineLen (msgLen m.rc) i
  match srcPlace s c f m i with
  | .ok p => (readPlace s c (viewOf s.fresh m.olds) p n, placePoison s c p)
  | .error _ => (List.replicate n 0, true)
/-- The global address that a message's line goes to, by the translation of that line (R357). -/
def lineDst (s : State) (c : CubeId) (f : FrameId) (m : MsgAct) (i : Nat) : Option Nat :=
  if msgToBuffer m.rc then none else (translateF s c f { w := true } (recW m.rc 0 + 64 * i) .msg).toOption
/-- A declared source buffer is DRAINING until its last byte has been read (R74, R257). -/
def sourceRead (s : State) (c : CubeId) (f : FrameId) (m : MsgAct) : State :=
  setMsg (s.modFrame c f fun r => readDone r m.srcB) c f m.msgid fun m => { m with srcB := [] }

/-! The receiving side. -/

/-- Where line i of a request with a global destination goes: by the sender's translation of that line inside the package,
or the target's refusal of it (R76, R357, R361). An untranslatable line is lost: reason 0. -/
def globalDst (s : State) (c : CubeId) (q : YReq) (i : Nat) : Except Nat Nat :=
  match (if q.srcPkg = s.pkg then findMsg s q.key else none) with
  | some (c', f', m) =>
    (match translateF s c' f' { w := true } (recW m.rc 0 + 64 * i) .msg with
     | .error _ => .error 0
     | .ok a => if (targetCheck s (fpidOf s (s.frame c' f').part) a true).isSome then .error placeRefused else .ok a)
  | none =>
    let a := q.dst + 64 * i
    let fp := match cubePart s c.val with | some p => fpidOf s p | none => 0
    if (targetCheck s fp a true).isSome then .error placeRefused else .ok a

/-- The face key of message line i in a declared buffer, with its layer (R258). -/
def bufKey (t : Task) (b : Buf) (o : Nat) : Nat × Nat :=
  let a := b.base.toNat
  let z := spLayer a + o / b.len
  (faceKey z (spFace a) (t.baseOf z (spFace a) + spOff a + o % b.len), z)

/-- Whether the receiver of a request is resident, or there is none (R263). DEDUCED, assumption 36. -/
def recvHere (s : State) (c : CubeId) (q : YReq) : Bool :=
  match q.recv, q.rtask with
  | some (fr, _), some k =>
    let r := s.frame c (frameOf fr)
    !r.away && (match r.task with | some t => decide ((t.part, t.launch, t.gang, t.rank) = k) | none => false)
  | some _, none => false
  | none, _ => true
/-- Whether a request's buffer has been lost (R75); one that is not resident loses it at its next drain point (R36). -/
def recvLost (s : State) (c : CubeId) (q : YReq) : Bool :=
  recvHere s c q &&
  match q.recv with
  | some (fr, (i, g)) =>
    (match (s.frame c (frameOf fr)).buf i with | some b => b.gen ≠ g || b.st = .lost | none => true)
  | none => false

/-- The place of a line of a request, where it has one: bytes for a lost buffer are discarded (R74, R75, R258). -/
def msgDst (s : State) (c : CubeId) (q : YReq) (i : Nat) : Option Place :=
  match q.recv with
  | none => (globalDst s c q i).toOption.map .glob
  | some (fr, (bi, _)) =>
    let r := s.frame c (frameOf fr)
    match r.buf bi, r.task with
    | some bf, some t => if recvLost s c q ∨ bf.len = 0 then none else some (.face (bufKey t bf (q.dst + 64 * i)).1)
    | _, _ => none
def Place.plus (p : Place) (o : Nat) : Place :=
  match p with | .face k => .face (k + o) | .glob a => .glob (a + o)
/-- Bytes inside one line are written at a place; a whole line clears its poison, poison and a failing bank or bus set it
(R36, R76, R77). -/
def writePlace (s : State) (c : CubeId) (p : Place) (b : List Byte) (bad : Bool) : State :=
  match p with
  | .glob a =>
    let s := clearFull (gWrite s a b) a b.length
    if bad then setPoison s a true else s
  | .face key =>
    let bad := bad || faceFails (s.cube c) key
    wakePlace (s.modCube c fun q => let q := faceWrite q key b; if bad then setFacePoison q key true else q) c p
/-- A line not written is poisoned at its destination (R76, R263). -/
def poisonMsgLine (s : State) (c : CubeId) (q : YReq) (i : Nat) : State :=
  match q.recv with
  | none => (match globalDst s c q i with | .ok a => setPoison s a true | .error _ => s)
  | some (fr, (bi, _)) =>
    let r := s.frame c (frameOf fr)
    match r.buf bi, r.task with
    | some bf, some t =>
      if bf.len = 0 then s else s.modCube c fun cu => setFacePoison cu (bufKey t bf (q.dst + 64 * i)).1 true
    | _, _ => s

/-- The member that a handle names, seen from a member of this package (R217). -/
inductive MsgDest where
  | away
  | frame (c : CubeId) (f : FrameId)
  | notResident
  | completed
deriving DecidableEq, Repr

def memberDest (s : State) (m : Member) : MsgDest :=
  match m with
  | .frame c f => if (s.frame c f).away then .notResident else .frame c f
  | .block _ => .notResident
  | .finished => .completed
def handleDest (s : State) (c : CubeId) (f : FrameId) (h : Nat) : MsgDest :=
  let r := s.frame c f
  match r.task with
  | none => .completed
  | some t => if bits h 8 6 ≠ taskSrank r then .away else memberDest s (findMember s t.part t.launch t.gang (bits h 0 2))

/-- Whether a receiver refuses a message (R258, R260). -/
def refusesMsg (r : Frame) (buf dst len : Nat) : Bool :=
  match r.buf buf with
  | none => true
  | some b =>
    b.st = .draining || b.st = .lost || (b.st = .filling && decide (255 ≤ b.fill))
      || decide ((b.nl + 1) * b.len < dst + len)

/-- A buffer's fill for an accepted message (R74). -/
def acceptFill (r : Frame) (buf : Nat) : Frame :=
  match r.buf buf with
  | some b => r.setBuf buf (some (if b.st = .filling then { b with fill := b.fill + 1 } else { b with st := .filling, fill := 1 }))
  | none => r


def addReq (s : State) (c : CubeId) (q : YReq) : State :=
  s.modCube c fun cu => { cu with reqs := cu.reqs ++ [{ q with num := cu.nextReq }], nextReq := cu.nextReq + 1 }
def modReq (s : State) (c : CubeId) (n : Nat) (g : YReq → YReq) : State :=
  s.modCube c fun cu => { cu with reqs := cu.reqs.map fun q => if q.num = n then g q else q }
def dropReq (s : State) (c : CubeId) (n : Nat) : State :=
  s.modCube c fun cu => { cu with reqs := cu.reqs.filter (·.num ≠ n), toks := cu.toks.filter (·.req ≠ n) }
def findReq (s : State) (c : CubeId) (n : Nat) : Option YReq := (s.cube c).reqs.find? (·.num = n)
/-- The request of a message, open or closed. -/
def reqOf (s : State) (pkg : Nat) (k : MsgKey) : Option (CubeId × YReq) :=
  allCubes.findSome? fun c => ((s.cube c).reqs.find? fun q => q.srcPkg = pkg && q.key = k).map fun q => (c, q)
/-- A cube that holds 256 open requests accepts no header (R368). -/
def reqsFull (s : State) (c : CubeId) : Bool := decide (256 ≤ ((s.cube c).reqs.filter fun q => !q.closed).length)

/-- Bytes of a request not owed any more: performed at the destination. -/
def YReq.performed (q : YReq) : Nat := q.owed.foldl (fun n i => n - lineLen q.len i) q.len
/-- Whether its sender owes anything now: a token is outstanding, or returned lines await a re-request (R369). -/
def YReq.owes (q : YReq) (l : List Tok) : Bool := q.returned ≠ [] || l.any fun t => t.req = q.num && !t.expired

/-- The orphan timers of a cube run while something is owed and the receiver is resident, and stand otherwise (R369). -/
def retime (s : State) (c : CubeId) : State :=
  s.modCube c fun cu => { cu with reqs := cu.reqs.map fun q =>
    let run := !q.closed && q.owes cu.toks && recvHere s c q
    match q.since with
    | none => if run then { q with since := some s.now } else q
    | some t => if run then q else { q with idle := q.idle + (s.now - t), since := none } }
/-- A timer begins again (R369). -/
def YReq.restart (q : YReq) (now : Nat) : YReq := { q with idle := 0, since := q.since.map fun _ => now }
def YReq.elapsed (q : YReq) (now : Nat) : Nat := q.idle + (match q.since with | some t => now - t | none => 0)

/-- An open request; `ORPHTO` is taken as it stands (R367). -/
def newReq (s : State) (rc : CubeId) (pkg cube : Nat) (k : MsgKey) (cls : BitVec 2) (recv : Option (Nat × BufRef))
    (rsig : BitVec 6) (dst len : Nat) : YReq :=
  let rt := match recv with
    | some (fr, _) => (s.frame rc (frameOf fr)).task.map fun t => (t.part, t.launch, t.gang, t.rank)
    | none => none
  ⟨0, pkg, cube, k, cls, recv, rt, rsig, dst, len, [], [], [], [], [], s.now, s.now, 0, none,
    usCycles (s.cube rc).ctl.orphto, false⟩

/-- The lines of a message after its first `pre`, which are its prefix. -/
def linesPast (len sent pre : Nat) : List Nat := (linesFrom len sent).filter fun i => decide (pre ≤ i)
/-- A header of a task of this package is accepted for an open request: its prefix moves as lines under tokens do, without a
token (R258, R259). -/
def openHere (s : State) (rc : CubeId) (q : YReq) (sent pre : Nat) : State :=
  addReq s rc { q with owed := linesFrom q.len sent, ungranted := linesPast q.len sent pre, pref := List.range pre }
/-- The place of a line that another package sent. -/
def farDst (s : State) (rc : CubeId) (q : YReq) (i : Nat) (x : MsgLine) : Option Place :=
  if q.recv.isSome then msgDst s rc q i else x.pa.map .glob
/-- A line that another package sent is written. -/
def writeFar (s : State) (rc : CubeId) (q : YReq) (i : Nat) (x : MsgLine) : State :=
  match farDst s rc q i x with
  | some p => writePlace s rc p ((x.data ++ List.replicate 64 0).take (lineLen q.len i)) x.bad
  | none => s
/-- A header of another package is accepted; its prefix came with it and is written (R258, R259). -/
def openFar (s : State) (rc : CubeId) (q : YReq) (sent : Nat) (head : List MsgLine) : State :=
  let rest := linesPast q.len sent head.length
  addReq (head.zipIdx.foldl (fun s x => writeFar s rc q x.2 x.1) s) rc { q with owed := rest, ungranted := rest }
/-- A closed request opens again at the saved offset: every line from there on, and every one not yet written, is to move
under tokens (R262). -/
def reopen (s : State) (rc : CubeId) (q : YReq) (sent : Nat) : State :=
  let rest := (List.range (lineCount q.len)).filter fun i => decide (sent / 64 ≤ i) || q.owed.contains i
  retime (modReq s rc q.num fun q => { q with
    closed := false, owed := rest, ungranted := rest, returned := [], pref := [], moved := [], accepted := s.now, lastGrant := s.now, idle := 0
    since := none }) rc

/-- The end of a message at its sender is known: in this package, or told to another's (R261, R363). -/
def tellSender (s : State) (c : CubeId) (q : YReq) (code bytes : Nat) : State :=
  if q.srcPkg = s.pkg then
    match findMsg s q.key with
    | some (c', f', m) =>
      if m.acc = some (c.val, q.num) then setMsg s c' f' m.msgid fun m => { m with ended := some code, perf := bytes } else s
    | none => s
  else sendFar s ((cubePart s c.val).getD 0) c q.srcPkg 0 (.msgEnd q.key code bytes)

/-- A message without data begins and completes its fill at once (R260). -/
def fillEmpty (s : State) (rc : CubeId) (rf : FrameId) (b : Nat) (rsig : BitVec 6) : State :=
  let gen := match (s.frame rc rf).buf b with | some x => x.gen | none => 0
  signal (s.modFrame rc rf fun r => fillDone (acceptFill r b) [(b, gen)]) rc rf rsig 3

/-- MSG_COMPLETE: the sender's STATUS is written and its signal given; a message whose buffer has been lost ends refused
(R74, R75, R261). Of the sources of a refused addition R317 names no sender's completion: the model reports source 3 for it,
and source 2 for `putf`, `nmc` and `wlaunch` as for a copy. DESIGN CHOICE, assumption 98. -/
def msgCompleteRun (s : State) (c : CubeId) (f : FrameId) (msgid : Nat) : State :=
  let r := s.frame c f
  match r.fl.msgs.find? (·.msgid = msgid) with
  | none => s
  | some m =>
    let lost := match m.acc with
      | some (rc, n) => (match findReq s (cubeOf rc) n with
          | some q => if recvLost s (cubeOf rc) q then some q else none
          | none => none)
      | none => none
    let fin : Option (Nat × Nat) :=
      match m.ended, lost with
      | some k, _ => some (k, m.perf)
      | none, some q => some (1, q.performed)
      | none, none => none
    match fin with
    | none => s
    | some (k, bytes) =>
      let s := match m.acc, lost with
        | some (rc, n), some _ => dropReq s (cubeOf rc) n
        | _, _ => s
      let s := writeStatus s c f m.recA 0x18 (w64 (bytes <<< 32 + (msgid % (1 <<< 24)) <<< 8 + k))
      signalOwn (dropMsg (sourceRead s c f m) c f msgid) c f m.sig 3
def endMsg (s : State) (c : CubeId) (f : FrameId) (msgid code bytes : Nat) : State :=
  msgCompleteRun (setMsg s c f msgid fun m => { m with ended := some code, perf := bytes }) c f msgid

/-! Lines that a sender may move. -/

/-- Lines of the prefix of a message whose header is to be sent: none of a resume request (R259, R262). -/
def msgPre (m : MsgAct) : Nat := if m.sent = 0 then lineCount (min (msgLen m.rc) m.pre) else 0
/-- Whether a token's lines are refused by time or mark (R369). -/
def Tok.past (t : Tok) (now : Nat) : Bool := t.expired || decide (t.life ≤ now - t.granted)
/-- The granted lines of a message to another package that have not left. -/
def MsgAct.granted (m : MsgAct) : List Nat := match m.far with | some g => g.grants.flatMap Prod.snd | none => []
/-- Lines of an accepted message that may move: of its prefix, and under its live tokens, in that order. -/
def msgGranted (s : State) (m : MsgAct) : List Nat :=
  match m.acc with
  | some (rc, n) =>
    (match findReq s (cubeOf rc) n with
     | some q => if q.closed then [] else q.pref ++ ((s.cube (cubeOf rc)).toks.filter fun t => t.req = n && !t.past s.now).flatMap (·.lines)
     | none => [])
  | none => m.granted
/-- The lines that a message may access now, those of a prefix that is about to leave among them. -/
def msgMay (s : State) (m : MsgAct) : List Nat :=
  if m.acc.isNone && m.far.isNone && m.ended.isNone then List.range (msgPre m) else msgGranted s m

/-- A source or destination line of an active message that its target refuses, past the checks of its start (R66, R67, R255,
R361). -/
def lineRefused (s : State) (c : CubeId) (f : FrameId) (m : MsgAct) (i : Nat) : Option ((Word × Nat × Nat) × Bool) :=
  let src := recW m.rc 1 + 64 * i
  ((if bits src 48 8 = 0xFF then none else refusal s c f { r := true } src .msg).map fun x => (x, false)) <|>
  ((if msgToBuffer m.rc then none else refusal s c f { w := true } (recW m.rc 0 + 64 * i) .msg true).map fun x => (x, true))
def msgLineRefused (s : State) (c : CubeId) (f : FrameId) (m : MsgAct) : Option ((Word × Nat × Nat) × Bool) :=
  (msgMay s m).findSome? (lineRefused s c f m)

/-- The global addresses that a line of a message is read from and written to. -/
def lineHomes (s : State) (c : CubeId) (f : FrameId) (m : MsgAct) (i : Nat) : List Nat :=
  (match srcPlace s c f m i with | .ok (.glob a) => [a] | _ => []) ++ (lineDst s c f m i).toList
/-- Lane order of a task's message stream (R83): of the lines that may move, those of an earlier message, and of the same
message the earlier, have moved where they share home and lane. DEDUCED, assumption 82. -/
def lineTurn (s : State) (c : CubeId) (f : FrameId) (m : MsgAct) (i : Nat) : Bool :=
  let mine := lineHomes s c f m i
  let clear := fun (x : MsgAct) (l : List Nat) => l.all fun j =>
    (lineHomes s c f x j).all fun b => mine.all fun a => homeOf a != homeOf b || laneOf a != laneOf b
  (s.frame c f).fl.msgs.all (fun x => !decide (x.id < m.id) || clear x (msgGranted s x)) &&
    clear m ((msgGranted s m).takeWhile (· ≠ i))

/-- Walks of a line's source and destination that read a poisoned table line are logged (R356). -/
def logLine (s : State) (c : CubeId) (f : FrameId) (m : MsgAct) (i : Nat) : State :=
  let src := recW m.rc 1 + 64 * i
  let s := if bits src 48 8 = 0xFF then s else logWalk s c f .msg src
  if msgToBuffer m.rc then s else logWalk s c f .msg (recW m.rc 0 + 64 * i)

/-- A line as it travels to another package. -/
def farLine (s : State) (c : CubeId) (f : FrameId) (m : MsgAct) (i : Nat) : MsgLine :=
  let x := readSource s c f m i
  ⟨x.1, x.2, lineDst s c f m i⟩

/-- The header of a task's message leaves for another package, with its prefix (R258, R259, R363); sent again, it carries what
it carried. -/
def farHeader (s : State) (c : CubeId) (f : FrameId) (t : Task) (m : MsgAct) (pkg lane : Nat) : State :=
  let len := msgLen m.rc
  let pre := msgPre m
  let g : FarMsg := match m.far with
    | some g => g
    | none => ⟨false, (List.range pre).map (farLine s c f m), [], linesPast len m.sent pre, []⟩
  let h := msgHandle m.rc
  let s := if m.far.isSome then s else
    { (List.range pre).foldl (fun s i => logLine s c f m i) s with fresh := s.fresh + m.olds.length + 1 }
  let s := sendFar s t.part c pkg lane (.msgHeader (wireKey s (msgKey t m.msgid)) m.cls (msgToBuffer m.rc) (wireId s t.launch)
    (bits h 8 6) (bits h 0 2) (BitVec.ofNat 6 (msgBuf m.rc)) (msgRsig m.rc)
    (if msgToBuffer m.rc then recW m.rc 0 else m.pa.getD 0) len m.sent g.head)
    (reqTag (s.frame c f) m.info m.id (w64 (recW m.rc 0)))
  setMsg s c f m.msgid fun m => { m with far := some g }
/-- It leaves once, on the port of its lane, with a prefix that no target refuses and whose turn it is (R66, R83). -/
def leaveFar (s : State) (c : CubeId) (f : FrameId) (t : Task) (m : MsgAct) (pkg lane : Nat) : State :=
  if m.far.isNone ∧ portUp s c pkg lane ∧ (msgLineRefused s c f m).isNone ∧ (List.range (msgPre m)).all (lineTurn s c f m) then
    let s := farHeader s c f t m pkg lane
    if msgLen m.rc ≤ 64 * msgPre m then sourceRead s c f m else s
  else s

/-- The header of a task's message reaches its destination (R258, R260, R262, R368). -/
def acceptTask (s : State) (c : CubeId) (f : FrameId) (m : MsgAct) : State :=
  let r := s.frame c f
  match r.task with
  | none => s
  | some t =>
    let key := msgKey t m.msgid
    let len := msgLen m.rc
    let take := fun (s : State) (rc : CubeId) (recv : Option (Nat × BufRef)) (dst : Nat) (rsig : BitVec 6) =>
      let num := (s.cube rc).nextReq
      let s := openHere s rc (newReq s rc s.pkg c.val key m.cls recv rsig dst len) m.sent (msgPre m)
      setMsg s c f m.msgid fun m => { m with acc := some (rc.val, num), closed := false }
    if r.issue.swapped then s
    else
      match reqOf s s.pkg key with
      | some (rc, q) =>
        if q.closed ∧ recvHere s rc q ∧ !reqsFull s rc then
          setMsg (reopen s rc q m.sent) c f m.msgid fun m => { m with acc := some (rc.val, q.num), closed := false }
        else s
      | none =>
        if msgToBuffer m.rc then
          match handleDest s c f (msgHandle m.rc) with
          | .frame rc rf =>
            let b := msgBuf m.rc
            if refusesMsg (s.frame rc rf) b (recW m.rc 0) len then setMsg s c f m.msgid fun m => { m with ended := some 1 }
            else if reqsFull s rc then s
            else if len = 0 then endMsg (fillEmpty s rc rf b (msgRsig m.rc)) c f m.msgid 0 0
            else
              let gen := match (s.frame rc rf).buf b with | some x => x.gen | none => 0
              take (s.modFrame rc rf fun r => acceptFill r b) rc (some (rf.val, (b, gen))) (recW m.rc 0) (msgRsig m.rc)
          | .completed => setMsg s c f m.msgid fun m => { m with ended := some 1 }
          | .away => leaveFar s c f t m (spanPkg s r (bits (msgHandle m.rc) 8 6)) 0
          | .notResident => s
        else
          match m.pa with
          | none => s
          | some a =>
            if paPkg a ≠ s.pkg then leaveFar s c f t m (paPkg a) (laneOf a)
            else if reqsFull s (cubeOf (paCube a)) then s
            else if len = 0 then endMsg s c f m.msgid 0 0
            else take s (cubeOf (paCube a)) none a 63

/-- The member of a span or gang of this package that a request of another names: by its fabric partition, the launch, and
span and gang rank (R217, R361). -/
def remoteMember (s : State) (fpid : BitVec 12) (launch srank rank : Nat) : Option Member :=
  (partOfFpid s fpid).map fun p => findMember s p (ownId s launch) srank rank

/-- An answer to a request of another package, from the cube that received it; answers keep no order (R18, R363, R365). -/
def replyTo (q : RemoteReq) (pkg : Nat) (at_ : CubeId) (m : RemoteKind) : RemoteReq :=
  ⟨pkg, at_, q.fpid, q.srcPkg, q.local_, q.lane, q.tag, m⟩
def answer (s : State) (q : RemoteReq) (at_ : CubeId) (m : RemoteKind) : State :=
  s.modHub fun h => { h with outbox := h.outbox ++ [replyTo q s.pkg at_ m] }
/-- A request of another package that fails a check: it is logged here and answered with an error (R361, R362). Kind 3 is a
vendor-defined request. -/
def refuseRemote (s : State) (q : RemoteReq) (at_ : CubeId) (l reason kind : Nat) : State :=
  let s := logEvent s 0x31 at_.val (refusedPayload q.srcPkg q.srcCube.val q.fpid l reason kind)
  answer s q at_ (.refused (BitVec.ofNat 42 l) reason)
/-- The cube that receives a vendor-defined request which names none: the lowest of the partition of its fabric identifier. -/
def gateCube (s : State) (fpid : BitVec 12) : CubeId := match partOfFpid s fpid with | some p => partCube s p | none => 0
/-- Whether a cube's partition has a request's fabric identifier (R361, R372). -/
def fpidMeets (s : State) (c : CubeId) (fpid : BitVec 12) : Bool :=
  (cubePart s c.val).any fun p => fpidOf s p = fpid

/-- The full address of a local one of this package. -/
def homePa (s : State) (l : Nat) : Nat := s.pkg <<< 42 + l

/-- The header of a message of another package is accepted, refused, or left to be sent again, and answered (R258, R260 to
R262, R361, R363, R368). -/
def acceptRemote (s : State) (r : RemoteReq) (key : MsgKey) (cls : BitVec 2)
    (toBuf : Bool) (launch srank rank : Nat) (buf rsig : BitVec 6) (dst len sent : Nat) (head : List MsgLine) : State :=
  let tell := fun (s : State) (rc : CubeId) (m : RemoteKind) => sendFar s ((cubePart s rc.val).getD 0) rc r.srcPkg 0 m
  let take := fun (s : State) (rc : CubeId) (recv : Option (Nat × BufRef)) (d : Nat) (rs : BitVec 6) =>
    tell (openFar s rc (newReq s rc r.srcPkg r.srcCube.val key cls recv rs d len) sent head) rc (.msgAnswer key true)
  match reqOf s r.srcPkg key with
  | some (rc, q) =>
    if !fpidMeets s rc r.fpid then refuseRemote s r rc r.local_.toNat 1 3
    else if q.closed then
      if recvHere s rc q ∧ !reqsFull s rc then tell (reopen s rc q sent) rc (.msgAnswer key true) else s
    else tell s rc (.msgAnswer key true)
  | none =>
    if toBuf then
      match remoteMember s r.fpid launch srank rank with
      | none => refuseRemote s r (gateCube s r.fpid) 0 1 3
      | some mb =>
        match memberDest s mb with
        | .frame rc rf =>
          if refusesMsg (s.frame rc rf) buf.toNat dst len then tell s rc (.msgAnswer key false)
          else if reqsFull s rc then s
          else if len = 0 then tell (fillEmpty s rc rf buf.toNat rsig) rc (.msgEnd key 0 0)
          else
            let gen := match (s.frame rc rf).buf buf.toNat with | some x => x.gen | none => 0
            take (s.modFrame rc rf fun r => acceptFill r buf.toNat) rc (some (rf.val, (buf.toNat, gen))) dst rsig
        | .completed => tell s (gateCube s r.fpid) (.msgAnswer key false)
        | _ => s
    else
      let a := homePa s r.local_.toNat
      match (a :: head.filterMap (·.pa)).findSome? fun b => (targetCheck s r.fpid b true).map fun k => (b, k) with
      | some (b, k) => refuseRemote s r (cubeOf (paCube b)) (paLocal b) k 3
      | none =>
        let rc := cubeOf (paCube a)
        if reqsFull s rc then s
        else if len = 0 then tell s rc (.msgEnd key 0 0)
        else take s rc none a 63

/-- MSG_ACCEPT: a header reaches its destination: of a task's message not yet accepted, the oldest; or of another
package. -/
def msgAcceptRun (s : State) (src : MsgSrc) : State :=
  match src with
  | .task c f =>
    (match (s.frame c f).fl.msgs.find? fun m => m.acc.isNone && m.ended.isNone && m.far.isNone with
     | some m => acceptTask s c f m
     | none => s)
  | .remote p sc fpid key cls tb l launch srank rank buf rsig dst len sent head =>
    acceptRemote s ⟨p, sc, fpid, s.pkg, l, 0, none, .msgHeader key cls tb launch srank rank buf rsig dst len sent head⟩
      key cls tb launch srank rank buf rsig dst len sent head

/-- HEADER_RETRY: the header of one message that was not accepted is sent again, while its lane has a port (R366, R368). -/
def headerRetryRun (s : State) (c : CubeId) (f : FrameId) (msgid : Nat) : State :=
  let r := s.frame c f
  match r.fl.msgs.find? (fun m => m.msgid = msgid && m.acc.isNone && m.ended.isNone), r.task with
  | some m, some t =>
    (match m.far with
     | some g =>
       if g.accepted then s
       else
         let pkg := match m.pa with | some a => paPkg a | none => spanPkg s r (bits (msgHandle m.rc) 8 6)
         let lane := match m.pa with | some a => laneOf a | none => 0
         if portUp s c pkg lane then farHeader s c f t m pkg lane else s
     | none => acceptTask s c f m)
  | _, _ => s

/-! Yarrow (R368, R369). -/

def YReq.bytesUngranted (q : YReq) : Nat := q.ungranted.foldl (fun n i => n + lineLen q.len i) 0
def YReq.agedNow (q : YReq) (now : Nat) : Bool := decide (usCycles 50 ≤ now - q.lastGrant)
/-- The keys of R368 in order, lower first. -/
def YReq.rank (now : Nat) (q : YReq) : List Nat :=
  let aged := q.agedNow now
  [q.cls.toNat, bnat (!aged), if aged then q.lastGrant else q.bytesUngranted, q.accepted, q.srcPkg, q.srcCube, q.key.msgid]
def lexLt : List Nat → List Nat → Bool
  | a :: l, b :: m => decide (a < b) || (a = b && lexLt l m)
  | _, _ => false
def bestReq (now : Nat) (l : List YReq) : Option YReq :=
  l.foldl (fun best q => match best with
    | none => some q
    | some b => if lexLt (q.rank now) (b.rank now) then some q else some b) none

/-- GRANT_TOKEN: one token of at most GRANTQ bytes to the request that ranks first; another package's sender is told
(R35, R75, R259, R363, R368). The token lives as `TOKEXP` stands now (R367). -/
def grantRun (s : State) (c : CubeId) : State :=
  let cu := s.cube c
  let live := (cu.toks.filter fun t => !t.expired).length
  match bestReq s.now (cu.reqs.filter fun q => !q.closed && q.ungranted ≠ [] && !recvLost s c q && recvHere s c q) with
  | none => s
  | some q =>
    if cu.ctl.grantmax ≤ live then s
    else
      let n := cu.ctl.grantq / 64
      let s := s.modCube c fun cu => { cu with
        toks := cu.toks ++ [⟨cu.nextReq, q.num, q.ungranted.take n, s.now, usCycles cu.ctl.tokexp, false⟩], nextReq := cu.nextReq + 1 }
      let s := retime (modReq s c q.num fun q => { q.restart s.now with ungranted := q.ungranted.drop n, lastGrant := s.now }) c
      if q.srcPkg = s.pkg then s
      else sendFar s ((cubePart s c.val).getD 0) c q.srcPkg 0 (.msgGrant q.key cu.nextReq (q.ungranted.take n))

/-- A 4-byte word of a line moves from its source to its destination (R76, R84, R85, R99). -/
def moveWord (s : State) (c : CubeId) (q : YReq) (c' : CubeId) (f' : FrameId) (m : MsgAct) (k : Nat) : State :=
  let o := 4 * (k % 16)
  let n := min 4 (q.len - 4 * k)
  let src := (srcPlace s c' f' m (k / 16)).toOption
  let (b, bad) := match src with
    | some p => (readPlace s c' (viewOf s.fresh m.olds) (p.plus o) n, placePoison s c' p)
    | none => (List.replicate n 0, true)
  let s := match src with | some p => wakePlace s c' p | none => s
  let s := match msgDst s c q (k / 16) with | some p => writePlace s c (p.plus o) b bad | none => s
  modReq { s with fresh := s.fresh + m.olds.length + 1 } c q.num fun q => { q with moved := q.moved ++ [(k, bad)] }
/-- A line whose words have moved, clean and whole, is a whole write of it: its poison goes (R77). -/
def cleanLine (s : State) (c : CubeId) (q : YReq) (i : Nat) : State :=
  let bad : Bool := match findReq s c q.num with | some q => q.moved.any fun x => x.1 / 16 = i && x.2 | none => true
  match msgDst s c q i with
  | some (.glob a) => if bad ∨ lineLen q.len i ≠ 64 then s else setPoison s a false
  | some (.face k) =>
    if bad ∨ lineLen q.len i ≠ 64 ∨ faceFails (s.cube c) k then s else s.modCube c fun u => setFacePoison u k false
  | none => s
/-- A line has arrived: it is owed no more, and its number is used up (R369). -/
def lineDone (s : State) (c : CubeId) (q : YReq) (num i : Nat) : State :=
  let s := modReq s c q.num fun q => { q.restart s.now with
    owed := q.owed.erase i, pref := q.pref.erase i, moved := q.moved.filter fun x => x.1 / 16 ≠ i }
  retime (s.modCube c fun cu => { cu with toks := (cu.toks.map fun x =>
    if x.num = num then { x with lines := x.lines.erase i } else x).filter fun x => x.expired || x.lines ≠ [] }) c

/-- The request and lines that stand under a number: a live token's, or a request's own, of its prefix. -/
def linesUnder (s : State) (c : CubeId) (num : Nat) : Option (YReq × List Nat) :=
  match (s.cube c).toks.find? (·.num = num) with
  | some t => if t.past s.now then none else (findReq s c t.req).map fun q => (q, t.lines)
  | none => (findReq s c num).map fun q => (q, q.pref)

/-- MSG_LINE_ARRIVE: a line sent under a token, or of a prefix, is written, or discarded where the token has expired (R259,
R369). A line of a sender of this package is read at its source by 4-byte words; another package's comes with the event and
is checked here (R361). -/
def lineArriveRun (s : State) (c : CubeId) (num line : Nat) (x : MsgLine) (from_ : Option RemoteReq := none) : State :=
  match linesUnder s c num with
  | none => s
  | some (q, lines) =>
    if q.closed ∨ !lines.contains line ∨ !q.owed.contains line then s
    else if q.srcPkg = s.pkg then
      match findMsg s q.key with
      | none => s
      | some (c', f', m) =>
        if !lineTurn s c' f' m line ∨ (lineRefused s c' f' m line).isSome then s
        else
          let rest := (lineWords q.len line).filter fun k => !q.moved.any (·.1 = k)
          let s := rest.foldl (fun s k => moveWord s c q c' f' m k) (logLine s c' f' m line)
          let s := lineDone (cleanLine s c q line) c q num line
          if q.owed.erase line = [] then sourceRead s c' f' m else s
    else
      let fp := match from_ with | some r => r.fpid | none => fpidOf s ((cubePart s c.val).getD 0)
      match (if q.recv.isSome then none else x.pa.bind fun a => (targetCheck s fp a true).map fun k => (a, k)) with
      | some (a, k) =>
        refuseRemote s (from_.getD ⟨q.srcPkg, cubeOf q.srcCube, fp, s.pkg, 0, 0, none, .msgData q.key num line x⟩)
          (cubeOf (paCube a)) (paLocal a) k 3
      | none => lineDone (writeFar s c q line x) c q num line

/-- A word of a line that may move does so ahead of the rest (R85). -/
def sendMsgWord (s : State) (c : CubeId) (f : FrameId) (m : MsgAct) (k : Nat) : State :=
  match m.acc with
  | some (rc, n) =>
    (match findReq s (cubeOf rc) n with
     | some q =>
       if (msgGranted s m).contains (k / 16) ∧ q.owed.contains (k / 16) ∧ (lineWords q.len (k / 16)).contains k
           ∧ !q.moved.any (·.1 = k) ∧ lineTurn s c f m (k / 16) ∧ (lineRefused s c f m (k / 16)).isNone then
         moveWord s (cubeOf rc) q c f m k
       else s
     | none => s)
  | none => s

/-- TOKEN_EXPIRE: at the end of its lifetime a token's missing lines return to the request; another package's sender is
told (R363, R369). -/
def expireRun (s : State) (c : CubeId) (tok : Nat) : State :=
  match (s.cube c).toks.find? (fun t => t.num = tok && !t.expired) with
  | none => s
  | some t =>
    if s.now - t.granted < t.life then s
    else
      let s := s.modCube c fun cu => { cu with toks := cu.toks.map fun x => if x.num = tok then { x with expired := true } else x }
      let s := retime (modReq s c t.req fun q => { q with returned := q.returned ++ t.lines }) c
      match findReq s c t.req with
      | some q => if q.srcPkg = s.pkg then s else sendFar s ((cubePart s c.val).getD 0) c q.srcPkg 0 (.msgExpire q.key tok t.lines)
      | none => s

/-- RE_REQUEST: the sender asks again for the returned lines, another package's for those it names (R259, R369). -/
def reRequestRun (s : State) (c : CubeId) (n : Nat) (asked : Nat → Bool := fun _ => true) : State :=
  match findReq s c n with
  | none => s
  | some q =>
    if q.returned.filter asked = [] ∨ q.closed then s
    else retime (modReq s c n fun q => { q.restart s.now with
      ungranted := q.ungranted ++ q.returned.filter asked, returned := q.returned.filter fun i => !asked i }) c

/-- MSG_FILL_COMPLETE: every byte has performed; the fill completes and RSIG is signalled (R74, R100, R259). A request whose
buffer has been lost ends refused, without a signal (R75). -/
def fillCompleteRun (s : State) (c : CubeId) (n : Nat) : State :=
  match findReq s c n with
  | none => s
  | some q =>
    if q.closed ∨ !recvHere s c q then s
    else if recvLost s c q then dropReq (tellSender s c q 1 q.performed) c n
    else if q.owed ≠ [] then s
    else
      let s := match q.recv with
        | some (fr, b) => signal (s.modFrame c (frameOf fr) fun r => fillDone r [b]) c (frameOf fr) q.rsig 3
        | none => s
      dropReq (tellSender s c q 0 q.len) c n

/-- Event 0x34: an orphaned message at its sender (R362). -/
def logOrphan (s : State) (c : CubeId) (f : FrameId) (pkg cube msgid bytes : Nat) : State :=
  let r := s.frame c f
  logEvent s 0x34 c.val [w64 ((match r.task with | some t => t.launch | none => 0) + pkg <<< 32 + cube <<< 48), r.ctl.taskid, w64 msgid, w64 bytes]

/-- ORPHAN: the orphan timer of a request reaches ORPHTO (R75, R76, R263, R362, R369). -/
def orphanRun (s : State) (c : CubeId) (n : Nat) : State :=
  match findReq s c n with
  | none => s
  | some q =>
    if q.closed ∨ q.len = 0 ∨ recvLost s c q ∨ !q.owes (s.cube c).toks ∨ !recvHere s c q ∨ q.elapsed s.now < q.orphto then s
    else
      let bytes := q.performed
      let s := q.owed.foldl (fun s i => poisonMsgLine s c q i) s
      let s := match q.recv with
        | some (fr, b) => s.modFrame c (frameOf fr) fun r => fillDone r [b]
        | none => s
      let s := logEvent s 0x33 c.val [w64 q.srcPkg, w64 q.srcCube, w64 q.key.msgid, w64 bytes, w64 q.len]
      let s := match (if q.srcPkg = s.pkg then findMsg s q.key else none) with
        | some (c', f', _) => logOrphan s c' f' s.pkg c.val q.key.msgid bytes
        | none => s
      dropReq (tellSender s c q 2 bytes) c n

/-- The first byte of a message not known to have moved. -/
def firstOwed (len : Nat) (l : List Nat) : Nat := match l with | [] => len | i :: l => 64 * l.foldl min i

/-- A request closes without completing, its tokens surrendered (R262). -/
def closeReq (s : State) (rc : CubeId) (n : Nat) : State :=
  retime ((modReq s rc n fun q => { q with closed := true, ungranted := [], returned := [], pref := [], moved := [] }).modCube rc fun cu =>
    { cu with toks := cu.toks.filter (·.req ≠ n) }) rc

/-- The engine of the task's messages stops for a save: those that have ended complete, the requests of the others close
and wait for the resume request (R262). -/
def closeMsgs (s : State) (c : CubeId) (f : FrameId) : State :=
  let s := ((s.frame c f).fl.msgs.map (·.msgid)).foldl (fun s i => msgCompleteRun s c f i) s
  let r := s.frame c f
  r.fl.msgs.foldl (fun s m =>
    match m.acc, m.far, r.task with
    | some (rc, n), _, _ =>
      (match findReq s (cubeOf rc) n with
       | some q =>
         setMsg (closeReq s (cubeOf rc) n) c f m.msgid fun m => { m with acc := none, sent := firstOwed q.len q.owed, closed := true }
       | none => s)
    | none, some g, some t =>
      let pkg := match m.pa with | some a => paPkg a | none => spanPkg s r (bits (msgHandle m.rc) 8 6)
      let sent := if g.accepted then firstOwed (msgLen m.rc) g.left else m.sent
      setMsg (sendFar s t.part c pkg 0 (.msgClose (wireKey s (msgKey t m.msgid)) sent)) c f m.msgid fun m =>
        { m with far := none, sent := sent, closed := true }
    | none, _, _ => s) s

/-- The port lane of a message's line to another package: that of the address it goes to, 0 for a declared buffer (R365). -/
def farLane (s : State) (c : CubeId) (f : FrameId) (m : MsgAct) (i : Nat) : Nat := ((lineDst s c f m i).map laneOf).getD 0
def farPkg (s : State) (r : Frame) (m : MsgAct) : Nat :=
  match m.pa with | some a => paPkg a | none => spanPkg s r (bits (msgHandle m.rc) 8 6)
/-- A granted line leaves for another package, in its turn; one that was lost is sent again as it was read (R83, R259, R363,
R369). -/
def sendFarLine (s : State) (c : CubeId) (f : FrameId) (m : MsgAct) (i : Nat) : State :=
  let r := s.frame c f
  match m.far, r.task with
  | some g, some t =>
    (match g.grants.find? fun x => x.2.contains i with
     | some (tok, _) =>
       let (pkg, lane) := (farPkg s r m, farLane s c f m i)
       if (lineRefused s c f m i).isSome ∨ !lineTurn s c f m i ∨ !portUp s c pkg lane then s
       else
         let line := match g.kept.find? (·.1 = i) with | some x => x.2 | none => farLine s c f m i
         let s := if g.kept.any (·.1 = i) then s else { logLine s c f m i with fresh := s.fresh + m.olds.length + 1 }
         let s := sendFar s t.part c pkg lane (.msgData (wireKey s (msgKey t m.msgid)) tok i line)
           (reqTag r m.info m.id (w64 (recW m.rc 0 + 64 * i)))
         let g := { g with
           grants := (g.grants.map fun x => (x.1, if x.1 = tok then x.2.erase i else x.2)).filter fun x => x.2 ≠ []
           left := g.left.erase i, kept := if g.kept.any (·.1 = i) then g.kept else g.kept ++ [(i, line)] }
         let s := setMsg s c f m.msgid fun m => { m with far := some g }
         if g.left = [] then sourceRead s c f m else s
     | none => s)
  | _, _ => s
/-- An access of a message: a line to another package, or a word inside this one. -/
def msgSend (s : State) (c : CubeId) (f : FrameId) (id n : Nat) : State :=
  match (s.frame c f).fl.msgs.find? (·.id = id) with
  | some m => if m.far.isSome then sendFarLine s c f m n else sendMsgWord s c f m n
  | none => s

/-- PUTF_COMPLETE: the flag has performed; the signal is given (R100, R264). -/
def putfCompleteRun (s : State) (c : CubeId) (f : FrameId) (id : Nat) : State :=
  let r := s.frame c f
  match r.fl.copyA.find? (·.id = id) with
  | none => s
  | some e =>
    match e.op, e.line with
    | .putf _ _, some l =>
      if l.st = .performed then
        signalOwn (s.setFrame c f { r with fl := { r.fl with copyA := r.fl.copyA.filter (·.id ≠ id) } }) c f e.sig 2
      else s
    | _, _ => s

/-! Requests of other packages (R361, R363). -/

/-- A write of another package enters the merge buffer; it is answered when it has performed (R79, R363).
DESIGN CHOICE, assumption 15. -/
def pushRemote (s : State) (q : RemoteReq) (a : Nat) (b : List Byte) : State :=
  pushMerge s ⟨0, a, b, (q.srcPkg, q.srcCube.val, 2, .ls), q.lane.toNat, none,
    some (replyTo q s.pkg (cubeOf (paCube a)) (.writeDone q.local_))⟩
/-- The value that a read or an atomic of another package returns (R363). -/
def answerData (s : State) (q : RemoteReq) (a n : Nat) : State :=
  answer s q (cubeOf (paCube a)) (.readData q.local_ (mergedBytes s a n) (poisoned s a))

/-- The sender of a message stands in its block: a handler runs, or the task has no frame (R35). -/
def senderSaved (s : State) (k : MsgKey) : Bool :=
  allFrames.any (fun (c, f) => let r := s.frame c f; r.away && r.task.any (keyOfTask k)) ||
    allCubes.any fun c => (s.cube c).parked.any fun p => keyOfTask k p.task
/-- What another package's Yarrow says to a message of this one (R259, R261, R263, R362, R369). The end of a message whose
sender is saved waits for its return (R35). -/
def senderHears (s : State) (q : RemoteReq) : State :=
  let act := fun (key : MsgKey) (g : CubeId → FrameId → MsgAct → State) (gone : State) =>
    match findMsg s (ownKey s key) with
    | some (c, f, m) => if fpidMeets s c q.fpid then g c f m else refuseRemote s q c 0 1 3
    | none => gone
  let far := fun (c : CubeId) (f : FrameId) (m : MsgAct) (g : FarMsg → FarMsg) =>
    setMsg s c f m.msgid fun m => { m with far := m.far.map g }
  let ends := fun (c : CubeId) (f : FrameId) (m : MsgAct) (code bytes : Nat) =>
    setMsg s c f m.msgid fun m => { m with ended := some code, perf := bytes }
  let keep := fun (key : MsgKey) (code bytes : Nat) =>
    if senderSaved s (ownKey s key) then s.modHub fun h => { h with ends := h.ends ++ [(ownKey s key, code, bytes)] } else s
  match q.kind with
  | .msgAnswer key true => act key (fun c f m => far c f m fun x => { x with accepted := true }) s
  | .msgAnswer key false => act key (fun c f m => ends c f m 1 0) (keep key 1 0)
  | .msgGrant key tok lines => act key (fun c f m => far c f m fun x => { x with grants := x.grants ++ [(tok, lines)] }) s
  | .msgExpire key tok lines => act key (fun c f m =>
      let s := far c f m fun x => { x with
        grants := x.grants.filter fun y => y.1 ≠ tok, left := x.left ++ lines.filter fun i => !x.left.contains i }
      sendFar s (s.frame c f).part c q.srcPkg 0 (.msgReRequest key lines)) s
  | .msgEnd key code bytes => act key (fun c f m =>
      let s := ends c f m code bytes
      if code = 2 then logOrphan s c f q.srcPkg q.srcCube.val m.msgid bytes else s) (keep key code bytes)
  | _ => s

/-- What a message's sender in another package says to Yarrow here (R262, R361, R369, R372). -/
def yarrowHears (s : State) (q : RemoteReq) : State :=
  let act := fun (key : MsgKey) (g : CubeId → YReq → State) =>
    match reqOf s q.srcPkg key with
    | some (c, x) => if fpidMeets s c q.fpid then g c x else refuseRemote s q c 0 1 3
    | none => s
  match q.kind with
  | .msgData key tok line x => act key fun c y =>
      if (s.cube c).toks.any fun t => t.num = tok && t.req = y.num then lineArriveRun s c tok line x (some q) else s
  | .msgReRequest key lines => act key fun c y => reRequestRun s c y.num lines.contains
  | .msgClose key _ => act key fun c y => if y.closed then s else closeReq s c y.num
  | _ => s

/-- An operation of a task leaves every list that holds it. -/
def dropOp (r : Frame) (id : Nat) : Frame :=
  let r := releaseTag r id
  { r with fl := { r.fl with
      ls := r.fl.ls.filter (·.id ≠ id), fly := r.fl.fly.filter (·.id ≠ id), var := r.fl.var.filter (·.id ≠ id)
      copyA := r.fl.copyA.filter (·.id ≠ id), cubeA := r.fl.cubeA.filter (·.id ≠ id), msgs := r.fl.msgs.filter (·.id ≠ id) } }
/-- A request of this package comes back refused: a remote access fault at the issuing context, wherever that stands now
(R320, R361, R362). -/
def hearRefusal (s : State) (q : RemoteReq) (l reason : Nat) : State :=
  match q.tag with
  | none => s
  | some g =>
    let pa := q.srcPkg <<< 42 + l
    let mine := fun (t : Task) => t.part = g.part && t.launch = g.launch && t.gang = g.gang && t.rank = g.rank
    let trap := trap11 ⟨g.pc, g.bits, g.slot, 0⟩ g.va pa reason
    let log := fun (s : State) (c : CubeId) => logEvent s 0x32 c.val [w64 g.launch, g.taskid, g.va, w64 pa, w64 reason]
    match allFrames.find? fun (c, f) => (s.frame c f).task.any mine with
    | some (c, f) =>
      (log s c).modFrame c f fun r =>
        if r.away && !g.lvl then { r with fl := { r.fl with heldTraps := r.fl.heldTraps ++ [trap] } }
        else let r := dropOp r g.op; { r with fl := { r.fl with traps := r.fl.traps ++ [trap] } }
    | none =>
      match allCubes.find? fun c => (s.cube c).parked.any fun p => mine p.task with
      | some c =>
        let note := fun (p : Parked) => if mine p.task then { p with traps := p.traps ++ [trap] } else p
        (log s c).modCube c fun u => { u with parked := u.parked.map note }
      | none => log s (partCube s g.part)

/-- REMOTE_REQUEST_ARRIVE: a request is checked at this package and performed, or refused, answered and logged (R361 to
R363). -/
def remoteArriveRun (s : State) (q : RemoteReq) : State :=
  let a := homePa s q.local_.toNat
  let acc := fun (write : Bool) (kind : Nat) (act : State → State) =>
    match targetCheck s q.fpid a write with
    | some k => refuseRemote s q (cubeOf (paCube a)) (paLocal a) k kind
    | none => act s
  let gate := fun (act : State) => if (partOfFpid s q.fpid).isNone then refuseRemote s q 0 0 1 3 else act
  match q.kind with
  | .read n => acc false 0 fun s => answerData s q a (min n (64 - a % 64))
  | .write b => acc true 1 fun s => pushRemote s q a (b.take (64 - a % 64))
  | .atomic op sz cmp src =>
    acc true 2 fun s =>
      let n := 1 <<< sz.toNat
      let s' := answerData s q a n
      if poisoned s a then s' else pushRemote s' q a (leBytes n (atomValue op sz.toNat (gRead s a n) cmp.toNat src.toNat))
  | .sems launch srank rank sem n =>
    (match remoteMember s q.fpid launch srank rank with
     | some m => semAddMember s m sem n.toNat 4
     | none => refuseRemote s q 0 0 1 3)
  | .spanArrive launch bid ph srank rank =>
    gate (match (partOfFpid s q.fpid).bind fun p => findRec s p (ownId s launch) with
     | some r => arrive (takePhase s r.part r.id 0 .span bid.toNat ph (srank, rank)) r.part r.id 0 .span bid.toNat ph (srank, rank)
     | none => s)
  | .msgHeader key cls tb launch srank rank buf rsig dst len sent head =>
    acceptRemote s q key cls tb launch srank rank buf rsig dst len sent head
  | .msgAnswer .. | .msgGrant .. | .msgExpire .. | .msgEnd .. => gate (senderHears s q)
  | .msgData .. | .msgReRequest .. | .msgClose .. => gate (yarrowHears s q)
  | .readData .. | .writeDone .. => s
  | .refused l k => hearRefusal s q l.toNat k
  | .spanHold .. | .spanHeld .. | .spanAdmit .. | .spanRelease .. | .spanPreempt .. | .spanDone .. => gate s
  | .spanStopped .. | .spanFailed .. | .spanMemberDone .. => gate s

/-- REMOTE_ACCESS_FAULT: an access that its target refuses becomes a remote access fault at the issuing context, whatever
made it: a load or store, the head of the copy queue, a started copy, a cube operation or a message (R66, R244, R255,
R361). -/
def remoteFault (s : State) (c : CubeId) (f : FrameId) (id : Nat) : State :=
  let x := (s.frame c f).fl
  match x.ls.find? (·.id = id), x.copyA.find? (·.id = id), x.cubeA.find? (·.id = id), x.msgs.find? (·.id = id) with
  | some e, _, _, _ =>
    (match refusedLs s c f e with
     | some y => refuseAccess s c f e.info y e.op.kind fun r =>
         let r := releaseTag r id
         { r with fl := { r.fl with ls := r.fl.ls.filter (·.id ≠ id) } }
     | none => s)
  | none, some e, _, _ =>
    (match copyRefused s c f e with
     | some (y, w) => refuseAccess s c f e.info y (bnat w) fun r =>
         { r with fl := { r.fl with copyA := r.fl.copyA.filter (·.id ≠ id) } }
     | none => s)
  | none, none, some e, _ =>
    (match operandRefused s c f e with
     | some y => refuseAccess s c f e.info y 0 fun r =>
         { r with fl := { r.fl with cubeA := r.fl.cubeA.filter (·.id ≠ id) } }
     | none => s)
  | none, none, none, some m =>
    (match msgLineRefused s c f m with
     | some (y, _) =>
       let s := match m.acc with | some (rc, n) => closeReq s (cubeOf rc) n | none => s
       refuseAccess s c f m.info y 3 fun r =>
         { r with fl := { r.fl with msgs := r.fl.msgs.filter (·.msgid ≠ m.msgid) } }
     | none => s)
  | none, none, none, none =>
    match copyHead (s.frame c f) id with
    | some e =>
      let hit : Option ((Word × Nat × Nat) × Nat) := match e.op with
        | .putf adr _ => (refusal s c f { w := true } adr.toNat .copy).map fun y => (y, 1)
        | .copy _ => (copyRefused s c f e).map fun y => (y.1, bnat y.2)
        | .msend rc _ _ => (msgRefused s c f rc).map fun y => (y.1, 3)
        | _ => none
      (match hit with
       | some (y, k) => refuseAccess s c f e.info y k fun r =>
           { r with fl := { r.fl with copyQ := r.fl.copyQ.filter (·.id ≠ id) } }
       | none => s)
    | none => s

/-- ACCESS_SEND (R83 to R91): a line of the load/store queue; the head of the copy queue; a word of a started copy, a unit
of a near-memory command, a global line of a cube operation, a word of a message, or a line of one to another package. -/
def accessSendRun (s : State) (c : CubeId) (f : FrameId) (id line : Nat) : State :=
  let r := s.frame c f
  if r.task.isNone || r.issue.swapped then s
  else
    match r.fl.ls.find? (·.id = id), copyHead r id with
    | some e, _ => sendLs s c f e line
    | none, some e =>
      (match e.op with
       | .putf adr v => sendPutf s c f e adr v
       | .msend rc cls msgid => sendMsend s c f e rc cls msgid
       | .nmc rc _ => sendNmc s c f e rc
       | _ => s)
    | none, none =>
      match r.fl.copyA.find? (·.id = id) with
      | some e => (match e.op with | .nmc .. => nmcUnit s c f id line | _ => copyAccess s c f id line)
      | none => if r.fl.cubeA.any (·.id = id) then cubeFetch s c f id line else msgSend s c f id line

end Sys2Proof.Machine
end

