-- ==== Sys2Proof/Machine/Context.lean ====
section
/-! DEFINITION. Landing of results (R121, R123, R323), queue entries built from their slot fields (R326), and the context
block: what a save writes and what a load reads, checks and puts back (R35, R321 to R330). -/

namespace Sys2Proof.Machine

/-! Landing. -/

/-- One fixed-latency result is written: value, live taint, flags (R61, R89, R121, R123). -/
def landOne (r : Frame) (l : Landing) : Frame :=
  let r := { r with ctl := (r.ctl.orFlags l.flags).orIdz l.idz, issue := r.issue.orLanded l.flags l.idz }
  match l.file with
  | 5 => { r with ctl := { r.ctl with fmt := l.val.setWidth 16 &&& fmtMask } }
  | 6 => { r with ctl := { r.ctl with fid := l.val.setWidth 6 } }
  | _ => { r with regs := r.regs.wr l.file l.reg l.val, taint := r.taint.wr l.file l.reg (liveTaint r l.taint) }

/-- Landing of one result in the machine: a poisoned one leaves its destination and makes its trap due at this bundle
(R78); codes `10` count (R63). -/
def landIn (c : CubeId) (f : FrameId) (s : State) (l : Landing) : State :=
  match l.poison with
  | some (line, info) =>
    s.modFrame c f fun r => { r with fl := { r.fl with traps := r.fl.traps ++ [poisonTrap info line] } }
  | none => (s.modFrame c f fun r => landOne r l).modCube c fun q => addFmtErr q l.inc

/-- Every result whose landing bundle is the one at the PC or earlier, in issue order (R121, R123). -/
def landDue (s : State) (c : CubeId) (f : FrameId) : State :=
  let r := s.frame c f
  let now := r.fl.land.filter fun l => decide (l.due ≤ r.issue.nb)
  let s := s.setFrame c f { r with fl := { r.fl with land := r.fl.land.filter fun l => !decide (l.due ≤ r.issue.nb) } }
  now.foldl (landIn c f) s

/-! Queue entries. -/

/-- A load/store entry from its instruction and operand values; `dst` is the physical destination (R117, R326). A vector
access is one of 32 words of 8 bytes, single-copy atomic each (R85). -/
def mkLs (id : Nat) (info : OpInfo) (wait : Taint) (tag : Option Nat) (ins : Instr) (ab sv cv : Word) (data : VReg)
    (dst : Nat) : Option LsEnt :=
  let e := fun (op : LsOp) (ea : Word) (d : VReg) (l : List Line) => some ⟨id, info, op, wait, tag, ea, d, l⟩
  let words := fun (ea : Word) => (List.range 32).map fun i => lineAt (ea + w64 (8 * i)) 8
  match ins with
  | .gld f t _ _ imm => let ea := eaOf ab imm; e (.gld (no3 f) t dst) ea 0 [lineAt ea (t.width / 8)]
  | .gst _ t _ _ imm => let ea := eaOf ab imm; e .gst ea (sv.setWidth 2048) [lineAt ea (t.width / 8)]
  | .gvld _ _ imm => let ea := eaOf ab imm; e (.gvld dst) ea 0 (words ea)
  | .gvst _ _ imm => let ea := eaOf ab imm; e .gvst ea data (words ea)
  | .gpf _ imm => e .gpf (eaOf ab imm) 0 []
  | .atom op sco fe sz f _ _ _ _ => e (.atom op sco fe sz.toNat (no3 f) dst cv sv) ab 0 [lineAt ab (1 <<< sz.toNat)]
  | .drain k => e (.drain k) 0 0 []
  | _ => none

/-- File and register of the result an entry will deliver (R122). -/
def LsOp.dest : LsOp → Option (FileNo × Nat)
  | .gld f _ d => some (f, d)
  | .gvld d => some (3, d)
  | .atom _ _ true _ f d _ _ => some (f, d)
  | _ => none

/-- A copy-queue entry from its instruction, address, value and record. -/
def mkCopy (id : Nat) (info : OpInfo) (wait : Taint) (tag : Option Nat) (ins : Instr) (ab av : Word) (rc : List Word) :
    Option CopyEnt :=
  let e := fun (op : CopyOp) (sig : BitVec 6) =>
    some (⟨id, info, op, sig, ab, wait, tag, [], [], none, false, none, [], CopyProg.zero, NmProg.zero, 0⟩ : CopyEnt)
  match ins with
  | .copy _ sig => e (.copy rc) sig
  | .msend _ cls sig => e (.msend rc cls (id % (1 <<< 24))) sig
  | .putfImm _ imm sig => e (.putf ab (imm.setWidth 64)) sig
  | .putfReg _ _ sig => e (.putf ab av) sig
  | .nmc _ fe _ sig => e (.nmc rc fe) sig
  | .wlaunch _ sig => e (.wlaunch rc) sig
  | _ => none

/-- A cube-queue entry from its instruction and operand values. -/
def mkCube (id : Nat) (info : OpInfo) (wait : Taint) (ins : Instr) (fmt : BitVec 16) (fid : BitVec 6) (form : Nat)
    (a b sh : Word) (data : VReg) (dst : Nat) : Option CubeEnt :=
  let e := fun (op : CubeOp) => some (⟨id, info, op, fmt, fid, form, wait, [], 0, none, [], none, 0, []⟩ : CubeEnt)
  match ins with
  | .cmma acc _ _ _ m sig => e (.mma false acc.toNat a b sh m sig)
  | .cmmz acc _ _ _ m sig => e (.mma true acc.toNat a b sh m sig)
  | .accrd t acc row cg _ => e (.rd t acc.toNat row.toNat cg.toNat dst)
  | .accwr t acc row cg _ => e (.wr t acc.toNat row.toNat cg.toNat data)
  | _ => none

def mkSync (id : Nat) (info : OpInfo) (ins : Instr) (at_ : Word) : Option SyncEnt :=
  match ins with
  | .semi sem ceil count => some ⟨id, info, .semi sem ceil.toNat count.toNat⟩
  | .sems sem n rmt _ => some ⟨id, info, .sems sem n.toNat (if rmt then some at_ else none)⟩
  | .pleave cls dur => some ⟨id, info, .pleave cls.toNat dur.toNat⟩
  | _ => none

/-- The instruction of a saved slot field. -/
def insLS (b : Word) : Option Instr := match decodeLS (b.setWidth 48) with | .ok i => some i | .error _ => none
def insCC (b : Word) : Option Instr := match decodeCC (b.setWidth 48) with | .ok i => some i | .error _ => none

/-! The block's fields: offset, bytes, value; a field not listed is zero (R330). -/

abbrev Fld := Nat × Nat × Nat

def offPc : Nat := 8
def offSeq : Nat := 0x80
def offBar : Nat := 0x400
def offRegs : Nat := 0x480
def offBufs : Nat := 0x780
def offResume : Nat := 0xF80
def offCube : Nat := 0xFC0
def offCopy : Nat := 0x19C0
def offLs : Nat := 0x2DC0
def offLand : Nat := 0x55C0
def offSync : Nat := 0x99C0
def offV : Nat := 0xA000
def blockBytes : Nat := 0x22000

/-- The common head of a saved entry (R326). -/
def entHead (o : Nat) (info : OpInfo) : List Fld :=
  [(o, 8, info.bits.toNat % (1 <<< 48)), (o + 8, 8, info.guard.toNat + info.slot <<< 4)]

def lsFlds (o : Nat) (e : LsEnt) : List Fld :=
  let ins := insLS (info64 e.info)
  let imm : Word := match ins with
    | some (.gld _ _ _ _ i) => i.signExtend 64
    | some (.gst _ _ _ _ i) => i.signExtend 64
    | some (.gvld _ _ i) => i.signExtend 64
    | some (.gvst _ _ i) => i.signExtend 64
    | some (.gpf _ i) => i.signExtend 64
    | _ => 0
  let (sv, cv) : Word × Word := match e.op with
    | .atom _ _ _ _ _ _ cv sv => (sv, cv)
    | .gst => (e.data.setWidth 64, 0)
    | _ => (0, 0)
  let dst := match e.op.dest with | some (f, d) => d + f <<< 9 | none => 0
  entHead o e.info ++ [(o + 16, 8, (e.ea - imm).toNat), (o + 32, 8, sv.toNat), (o + 40, 8, cv.toNat), (o + 48, 8, dst)]
    ++ (match e.op with | .gvst => [(o + 64, 256, e.data.toNat)] | _ => [])
where
  info64 (i : OpInfo) : Word := i.bits.setWidth 64

def recBytes (rc : List Word) : Nat := leVal (rc.flatMap fun w => leBytes 8 w.toNat)

def copyFlds (o : Nat) (e : CopyEnt) : List Fld :=
  match e.op with
  | .putf a v => entHead o e.info ++ [(o + 16, 8, a.toNat), (o + 24, 8, v.toNat)]
  | .copy rc | .msend rc _ _ | .nmc rc _ | .wlaunch rc =>
    entHead o e.info ++ [(o + 16, 8, e.recA.toNat), (o + 64, 256, recBytes rc)]

def cubeFlds (o : Nat) (e : CubeEnt) : List Fld :=
  let tail : List Fld := [(o + 40, 8, e.fmt.toNat), (o + 48, 8, e.fid.toNat), (o + 56, 8, e.form)]
  match e.op with
  | .mma _ _ a b sh _ _ => entHead o e.info ++ [(o + 16, 8, a.toNat), (o + 24, 8, b.toNat), (o + 32, 8, sh.toNat)] ++ tail
  | .rd _ _ _ _ d => entHead o e.info ++ [(o + 16, 8, d)] ++ tail
  | .wr _ _ _ _ d => entHead o e.info ++ [(o + 64, 256, d.toNat)] ++ tail

def syncFlds (o : Nat) (e : SyncEnt) : List Fld :=
  entHead o e.info ++ (match e.op with | .sems _ _ (some t) => [(o + 16, 8, t.toNat)] | _ => [])

/-- R327. -/
def resumeFlds (e : CubeEnt) : List Fld :=
  match e.op with
  | .mma _ acc a b sh m sig =>
    let o := offResume
    [(o, 8, a.toNat), (o + 8, 8, b.toNat), (o + 16, 8, sh.toNat), (o + 24, 8, acc + m.toNat <<< 8 + sig.toNat <<< 16),
     (o + 32, 8, e.fmt.toNat), (o + 40, 8, e.fid.toNat), (o + 48, 8, e.c0), (o + 56, 8, e.failVa.toNat)]
  | _ => []

/-- R328. -/
def msgFlds (o : Nat) (m : MsgAct) : List Fld :=
  [(o, 8, recW m.rc 0), (o + 8, 8, recW m.rc 1), (o + 16, 8, recW m.rc 2), (o + 24, 8, m.recA.toNat),
   (o + 32, 8, m.sig.toNat + m.cls.toNat <<< 8 + (m.msgid % (1 <<< 24)) <<< 16), (o + 40, 8, m.sent)]

/-- R322: REMAIN counts from the bundle at the saved PC. -/
def landFlds (nb o : Nat) (l : Landing) : List Fld :=
  [(o, 8, l.reg + l.file <<< 9 + l.flags.toNat <<< 16 + bnat l.idz <<< 21 + bnat l.arm <<< 22 + (l.due - nb) <<< 24
      + l.inc <<< 32), (o + 16, 256, l.val.toNat)]

def woffWord (k : Ctl) : Nat := k.woff + k.wstep.toNat <<< 8 + k.wsize <<< 16
def predWord (r : Frame) : Nat := (r.regs.p ||| 1).toNat + r.sync.df.toNat <<< 16

def seqFlds (o : Nat) (l : SeqLevel) : List Fld :=
  [(o, 8, bnat l.active + 2 * bnat l.first), (o + 8, 8, l.start.toNat), (o + 16, 8, l.remain), (o + 24, 8, l.pairs.length)]
  ++ (l.pairs.zipIdx.flatMap fun ((a, st), i) => [(o + 32 + 16 * i, 8, a.toNat), (o + 40 + 16 * i, 8, st.toNat)])

def bufFlds (o : Nat) (b : Option Buf) : List Fld :=
  match b with
  | none => []
  | some b => [(o, 4, b.base.toNat), (o + 4, 4, b.len), (o + 8, 1, b.nl), (o + 9, 1, b.st.code), (o + 10, 1, b.fill), (o + 11, 1, b.rd)]

/-- Number, width and step of an area's entries written one after another. -/
def area {α : Type} (o step : Nat) (g : Nat → α → List Fld) (l : List α) : List Fld :=
  l.zipIdx.flatMap fun (x, i) => g (o + step * i) x

/-- The counts word (R330). -/
def countsWord (r : Frame) : Nat :=
  let x := r.fl
  x.land.length + (x.ls ++ x.wdLs).length <<< 8 + x.copyQ.length <<< 16 + x.cubeQ.length <<< 24
    + bnat x.resume.isSome <<< 28 + x.msgs.length <<< 32 + x.syncQ.length <<< 40

/-- The time left of a held leave, in µs (R269, R330). -/
def leaveWord (now : Nat) (r : Frame) : Nat :=
  match r.leave with
  | some (k, till) => if now < till then k + ((till - now + 2699) / 2700) <<< 16 else 0
  | none => 0

/-- Every field of the block of a quiesced frame (R330). -/
def blockFlds (now : Nat) (r : Frame) (reason : Nat) : List Fld :=
  let g := r.regs
  [(0, 8, 1 + 1 <<< 16 + reason <<< 24), (offPc, 8, r.issue.pc.toNat), (0x10, 8, r.ctl.taskid.toNat),
   (0x18, 8, r.priv.tcause.toNat)]
  ++ area 0x20 8 (fun o (w : Word) => [(o, 8, w.toNat)]) r.priv.tinfo.toList
  ++ [(0x40, 8, r.ctl.fmt.toNat), (0x48, 8, r.ctl.fid.toNat), (0x50, 8, r.ctl.fstat.toNat), (0x58, 8, r.ctl.cstat.toNat),
      (0x60, 8, woffWord r.ctl), (offFlags, 8, predWord r), (offCounts, 8, countsWord r), (0x78, 8, leaveWord now r)]
  ++ area offSeq 96 seqFlds r.seq.toList
  ++ area offSem 8 (fun o (x : BitVec 16 × BitVec 16) => [(o, 8, x.1.toNat + x.2.toNat <<< 16)])
      (r.sync.semc.toList.zip r.sync.semx.toList)
  ++ (match r.sync.refusal with
      | some (a, b) => [(offRefusal, 8, 1), (offRefusal + 8, 8, a.toNat), (offRefusal + 16, 8, b.toNat)]
      | none => [])
  ++ area offBar 4 (fun o (x : Nat × Option Nat) => [(o, 4, x.1 % 65536 + bnat x.2.isSome <<< 16)])
      (r.sync.phase.toList.zip r.sync.stalled.toList)
  ++ area offRegs 8 (fun o (w : Word) => [(o, 8, w.toNat)]) (g.x.toList ++ g.y.toList ++ g.a.toList)
  ++ area offBufs 16 bufFlds r.bufs.toList
  ++ area offMsg 64 msgFlds r.fl.msgs
  ++ (match r.fl.resume with | some e => resumeFlds e | none => [])
  ++ area offCube 320 cubeFlds r.fl.cubeQ
  ++ area offCopy 320 copyFlds r.fl.copyQ
  ++ area offLs 320 lsFlds (r.fl.ls ++ r.fl.wdLs)
  ++ area offLand 272 (landFlds r.issue.nb) r.fl.land
  ++ area offSync 64 syncFlds r.fl.syncQ
  ++ area offV 256 (fun o (i : Nat) => [(o, 256, (g.rdV i).toNat)]) (List.range 384)

/-- n bytes set to zero at every storage and merge buffer that holds them, and their lines clean (R77). -/
def clearRange (s : State) (a n : Nat) : State :=
  let hit := fun (p : Nat) => decide (a ≤ p) && decide (p < a + n)
  { s with
    mem := s.mem.filter fun e => !hit e.1
    merge := s.merge.map fun w =>
      { w with bytes := (List.range w.bytes.length).map fun i => if hit (w.pa + i) then 0 else w.bytes.getD i 0 }
    poison := s.poison.filter fun e => !(decide (a ≤ 64 * e.1) && decide (64 * e.1 + 64 ≤ a + n)) }

/-- The context block written (R330). -/
def writeBlock (s : State) (base : Nat) (l : List Fld) : State :=
  l.foldl (fun s (o, n, v) => if v = 0 then s else gWriteVal s (base + o) n v) (clearRange s base blockBytes)

/-! Reading it back. -/

def blk (s : State) (base o : Nat) : Word := w64 (gRead s (base + o) 8)
def blkV (s : State) (base o : Nat) : VReg := BitVec.ofNat 2048 (gRead s (base + o) 256)

def bufStOf (n : Nat) : Option BufSt :=
  match n with | 1 => some .empty | 2 => some .filling | 3 => some .full | 4 => some .draining | 5 => some .lost | _ => none

/-- One buffer's entry; the declaration keeps its mark where index, base and length are unchanged (R213). -/
def readBuf (s : State) (base : Nat) (r : Frame) (i : Nat) : Option Buf :=
  let o := base + offBufs + 16 * i
  match bufStOf (gRead s (o + 9) 1) with
  | none => none
  | some st =>
    let b := BitVec.ofNat 32 (gRead s o 4)
    let len := gRead s (o + 4) 4
    let gen := match r.buf i with | some x => if x.base = b ∧ x.len = len then x.gen else x.gen + 1 | none => r.issue.nid
    some ⟨b, len, gRead s (o + 8) 1 % 8, st, gRead s (o + 10) 1, gRead s (o + 11) 1, gen⟩

def readSeq (s : State) (base l : Nat) : SeqLevel :=
  let o := offSeq + 96 * l
  let w := (blk s base o).toNat
  { active := Nat.testBit w 0, start := blk s base (o + 8), remain := (blk s base (o + 16)).toNat, first := Nat.testBit w 1
    pairs := (List.range (min 4 (blk s base (o + 24)).toNat)).map fun i =>
      ((blk s base (o + 32 + 16 * i)).setWidth 5, blk s base (o + 40 + 16 * i)) }

def readLand (s : State) (base nb i : Nat) : Landing :=
  let o := offLand + 272 * i
  let d := (blk s base o).toNat
  { file := bits d 9 3, reg := bits d 0 9, val := blkV s base (o + 16), taint := 0, flags := BitVec.ofNat 5 (bits d 16 5)
    idz := Nat.testBit d 21, inc := bits d 32 11, arm := Nat.testBit d 22, due := nb + bits d 24 5, poison := none }

/-- Guard, slot and field of a saved entry. -/
def readInfo (s : State) (base o : Nat) (pc : Word) : OpInfo :=
  let g := (blk s base (o + 8)).toNat
  ⟨pc, (blk s base o).setWidth 56, bits g 4 4, BitVec.ofNat 4 (bits g 0 4)⟩

def readLs (s : State) (base : Nat) (pc : Word) (id i : Nat) : Option LsEnt :=
  let o := offLs + 320 * i
  match insLS (blk s base o) with
  | none => none
  | some ins => mkLs id (readInfo s base o pc) 0 none ins (blk s base (o + 16)) (blk s base (o + 32)) (blk s base (o + 40))
      (blkV s base (o + 64)) (bits (blk s base (o + 48)).toNat 0 9)

def readCopy (s : State) (base : Nat) (pc : Word) (id i : Nat) : Option CopyEnt :=
  let o := offCopy + 320 * i
  match insCC (blk s base o) with
  | none => none
  | some ins => mkCopy id (readInfo s base o pc) 0 none ins (blk s base (o + 16)) (blk s base (o + 24))
      ((List.range 32).map fun j => blk s base (o + 64 + 8 * j))

/-- The codes of an `FMT` and the order of an `FID` that their maps allow (R222, R232). -/
def fmtOk (v : BitVec 16) : Bool := decide (fmtAF v < 12) && decide (fmtBF v < 12) && decide (fmtACM v < 2) && decide (fmtSCM v < 3)
def fidOk (v : Nat) : Bool := decide (bits v 4 2 ≤ bits v 2 2) && decide (bits v 2 2 ≤ bits v 0 2)

def readCube (s : State) (base : Nat) (pc : Word) (id i : Nat) : Option CubeEnt :=
  let o := offCube + 320 * i
  match insCC (blk s base o) with
  | none => none
  | some ins =>
    if !fmtOk ((blk s base (o + 40)).setWidth 16) || !fidOk (blk s base (o + 48)).toNat then none
    else mkCube id (readInfo s base o pc) 0 ins ((blk s base (o + 40)).setWidth 16) ((blk s base (o + 48)).setWidth 6)
      (bits (blk s base (o + 56)).toNat 0 2) (blk s base (o + 16)) (blk s base (o + 24)) (blk s base (o + 32))
      (blkV s base (o + 64)) (bits (blk s base (o + 16)).toNat 0 9)

def readSync (s : State) (base : Nat) (pc : Word) (id i : Nat) : Option SyncEnt :=
  let o := offSync + 64 * i
  match insCC (blk s base o) with
  | none => none
  | some ins => mkSync id (readInfo s base o pc) ins (blk s base (o + 16))

def readResume (s : State) (base : Nat) (pc : Word) (id : Nat) : CubeEnt :=
  let o := offResume
  let w := (blk s base (o + 24)).toNat
  ⟨id, ⟨pc, 0, 8, 0⟩, .mma false (bits w 0 4) (blk s base o) (blk s base (o + 8)) (blk s base (o + 16))
     (BitVec.ofNat 8 (bits w 8 8)) (BitVec.ofNat 6 (bits w 16 6)), (blk s base (o + 32)).setWidth 16,
   (blk s base (o + 40)).setWidth 6, formOfAF (bits (blk s base (o + 32)).toNat 0 4), 0, [], (blk s base (o + 48)).toNat, none, [], none, blk s base (o + 56), []⟩

def readMsg (s : State) (base : Nat) (pc : Word) (id i : Nat) : MsgAct :=
  let o := offMsg + 64 * i
  let w := (blk s base (o + 32)).toNat
  { msgid := bits w 16 24, id := id, info := ⟨pc, 0, 8, 0⟩
    rc := [blk s base o, blk s base (o + 8), blk s base (o + 16)], recA := (blk s base (o + 24)).setWidth 32
    sig := BitVec.ofNat 6 (bits w 0 6), cls := BitVec.ofNat 2 (bits w 8 2), wait := 0, srcB := [], pa := none, acc := none
    sent := (blk s base (o + 40)).toNat, perf := 0, ended := none, closed := true, olds := [], pre := 0, far := none }

/-- A landing entry keeps its limits: the register lies in its file, the value in the register's width and map (R322). -/
def landOk (l : Landing) (nb : Nat) : Bool :=
  let v := l.val.toNat
  (match l.file with
   | 0 | 1 | 2 => decide (l.reg < 32) && decide (v < 1 <<< 64)
   | 3 => decide (l.reg < 384)
   | 4 => decide (l.reg < 16) && decide (v < 2)
   | 5 => decide (v < 1 <<< 16) && fmtOk (l.val.setWidth 16)
   | 6 => decide (v < 64) && fidOk v
   | _ => false) && decide (nb < l.due) && decide (l.due ≤ nb + 19) && decide (l.inc ≤ 1024)

def seqOk (l : SeqLevel) (n : Nat) : Bool :=
  (!l.active || (decide (1 ≤ l.remain) && decide (l.remain < 1 <<< 32))) && decide (n ≤ 4)

/-- The limits on the block's words (R319, and the register maps of R60, R117, R144, R222, R232, R314). Bits that a map
marks "—" are ignored, as in any write of the register (R6). DEDUCED, assumption 23. -/
def blockOk (s : State) (base : Nat) : Bool :=
  let ctrl := (blk s base 0).toNat
  let fmt := (blk s base 0x40).toNat
  let fid := (blk s base 0x48).toNat
  let wo := (blk s base 0x60).toNat
  let cnt := (blk s base 0x70).toNat
  let size := bits wo 16 9
  let f16 := BitVec.ofNat 16 fmt
  decide (bits ctrl 0 16 = 1) && Nat.testBit ctrl 16 && decide (bits ctrl 24 8 ≤ 2)
  && fmtOk f16 && fidOk fid
  && decide (size % 8 = 0) && decide (8 ≤ size) && decide (size ≤ 256) && decide (bits wo 0 8 % 8 = 0) && decide (bits wo 0 8 < size)
  && decide (bits wo 8 2 < 3)
  && decide (bits cnt 0 7 ≤ 64) && decide (bits cnt 8 6 ≤ 32) && decide (bits cnt 16 5 ≤ 16) && decide (bits cnt 24 4 ≤ 8)
  && decide (bits cnt 32 5 ≤ 16) && decide (bits cnt 40 4 ≤ 8)
  && (!Nat.testBit cnt 28 || (fmtOk ((blk s base (offResume + 32)).setWidth 16) && fidOk (blk s base (offResume + 40)).toNat))
  && (List.range 64).all (fun i => decide (gRead s (base + offBufs + 16 * i + 9) 1 ≤ 5) && decide (gRead s (base + offBufs + 16 * i + 8) 1 ≤ 7))
  && (List.range 6).all (fun l => seqOk (readSeq s base l) (blk s base (offSeq + 96 * l + 24)).toNat)
  && (List.range 32).all (fun i =>
      let w := (blk s base (offSem + 8 * i)).toNat
      decide (bits w 0 16 ≤ bits w 16 16) && decide (1 ≤ bits w 16 16) && decide (w < 1 <<< 32))

def allSome {α : Type} : List (Option α) → Option (List α)
  | [] => some []
  | none :: _ => none
  | some x :: l => (allSome l).map (x :: ·)

/-- A pending result of a restored operation (R122, R204). -/
def varOf (id : Nat) (info : OpInfo) (tag : Option Nat) (d : FileNo × Nat) : VarRes := ⟨id, info, d.1, d.2, none, tag⟩

/-- Tracked loads among restored entries take fresh tags (R204). -/
def retag (r : Frame) : Frame :=
  let r := r.fl.ls.foldl (fun r e =>
    if e.op.isLoad || e.op.isAtom then
      let (tag, r) := takeTag r e.id
      modLs r e.id fun e => { e with tag := some tag }
    else r) r
  r.fl.copyQ.foldl (fun r e =>
    match e.op with
    | .nmc _ true => (takeTag r e.id).2
    | _ => r) r

/-- Buffers in a state that a run of bytes touches: what a restored operation still counts in (R255, R326). -/
def refsIn (r : Frame) (st : BufSt) (l : List Run) : List BufRef :=
  bufRefs r ((touched r l).filter fun i => match r.buf i with | some b => b.st = st | none => false)

/-- Buffer counts and barrier phases of a restored copy-queue entry (R220, R255). -/
def reattach (r : Frame) (phases : Nat × Nat → List Nat) (e : CopyEnt) (used : List (Nat × Nat)) : CopyEnt × List (Nat × Nat) :=
  match e.op with
  | .copy rc =>
    let (a, b) := (copyRec rc).runs
    let ctl := recW rc 0
    let bar : Option (Nat × Nat) :=
      if Nat.testBit ctl 17 then
        let i := (if Nat.testBit ctl 22 then 16 else 0) + bits ctl 18 4
        ((phases (i, 0)).find? fun ph => !used.contains (i, ph)).map fun ph => (i, ph)
      else none
    ({ e with srcB := refsIn r .draining a, dstB := refsIn r .filling b, bar := bar }, bar.toList ++ used)
  | .msend rc _ _ => ({ e with srcB := refsIn r .draining (msgRuns rc) }, used)
  | _ => (e, used)

/-- The phases a member has taken and not arrived in, ascending. -/
def takenPhases (s : State) (r : Frame) (i : Nat) : List Nat :=
  match r.task with
  | none => []
  | some t =>
    let l := (s.hub.phases.filter fun p =>
      p.same t.part t.launch t.gang (if i < 16 then .gang else .span) (i % 16) && p.taken.contains (taskSrank r, t.rank)).map (·.phase)
    (List.range (1 + l.foldl max 0)).filter fun p => l.contains p

/-- The frame as a block describes it; `none` where a value breaks a limit (R319, R323, R330).
Flags that had landed at the saved boundary before a trap count as there before the reissued bundle, whose `crw` of `FSTAT`
may clear them: the block has no place that tells them apart (R61, R330). DEDUCED, assumption 23. DESIGN CHOICE,
assumption 94. -/
def readBlock (s : State) (base : Nat) (r : Frame) : Option Frame :=
  if !blockOk s base then none
  else
    let cnt := (blk s base 0x70).toNat
    let pc := blk s base offPc
    let nb := r.issue.nb
    let n0 := 16 * r.issue.nid
    let nLs := bits cnt 8 6
    let nCube := bits cnt 24 4
    let nCopy := bits cnt 16 5
    let nSync := bits cnt 40 4
    let nMsg := bits cnt 32 5
    let land := (List.range (bits cnt 0 7)).map (readLand s base nb)
    match allSome ((List.range nLs).map fun i => readLs s base pc (n0 + i) i),
          allSome ((List.range nCube).map fun i => readCube s base pc (n0 + nLs + 1 + i) i),
          allSome ((List.range nCopy).map fun i => readCopy s base pc (n0 + nLs + nCube + 1 + i) i),
          allSome ((List.range nSync).map fun i => readSync s base pc (n0 + nLs + nCube + nCopy + 1 + i) i) with
    | some ls, some cubeQ, some copyQ, some syncQ =>
      if !(land.all fun l => landOk l nb) then none
      else
        let wo := (blk s base 0x60).toNat
        let pw := (blk s base offFlags).toNat
        let w := fun i => blk s base (offRegs + 8 * i)
        let sem := fun (i : Nat) => (blk s base (offSem + 8 * i)).toNat
        let bar := fun (i : Nat) => gRead s (base + offBar + 4 * i) 4
        let phase := fun (i : Nat) =>
          let old := r.sync.phase.toList.getD i 0
          let low := bar i % 65536
          old - old % 65536 + low
        let stalled := Vector.ofFn fun (i : Fin 32) => if Nat.testBit (bar i.val) 16 then some (phase i.val - 1) else none
        let msgs := (List.range nMsg).map fun i => readMsg s base pc (n0 + nLs + nCube + nCopy + nSync + 1 + i) i
        let resume := if Nat.testBit cnt 28 then some (readResume s base pc (n0 + nLs)) else none
        let fl : Flight := { r.fl with
          land := land
          var := ls.filterMap (fun e => e.op.dest.map (varOf e.id e.info none))
            ++ cubeQ.filterMap (fun e => match e.op with | .rd _ _ _ _ d => some (varOf e.id e.info none (3, d)) | _ => none)
            ++ copyQ.filterMap (fun e => match e.op with
                | .nmc _ true => some (varOf e.id e.info none (0, bits e.info.bits.toNat 19 5))
                | _ => none)
          ls := ls, fly := [], wdLs := [], cubeQ := cubeQ, cubeA := [], copyQ := [], copyA := [], syncQ := syncQ, msgs := [], resume := resume }
        let r1 : Frame := { r with
          regs := { x := Vector.ofFn fun i => w i.val, y := Vector.ofFn fun i => w (32 + i.val)
                    a := Vector.ofFn fun i => w (64 + i.val), p := BitVec.ofNat 16 (bits pw 0 16) ||| 1
                    v := (List.range 384).foldr (fun i m => let x := blkV s base (offV + 256 * i); if x = 0 then m else (i, x) :: m) [] }
          taint := Taints.none
          seq := Vector.ofFn fun l => readSeq s base l.val
          ctl := { r.ctl with
            fmt := (blk s base 0x40).setWidth 16 &&& fmtMask, fid := (blk s base 0x48).setWidth 6, fstat := (blk s base 0x50).setWidth 5
            cstat := (blk s base 0x58).setWidth 2, wsize := bits wo 16 9, woff := bits wo 0 8
            wstep := BitVec.ofNat 2 (bits wo 8 2) }
          sync := { df := BitVec.ofNat 8 (bits pw 16 8)
                    semc := Vector.ofFn fun i => BitVec.ofNat 16 (bits (sem i.val) 0 16)
                    semx := Vector.ofFn fun i => BitVec.ofNat 16 (bits (sem i.val) 16 16)
                    refusal := if Nat.testBit (blk s base offRefusal).toNat 0 then
                        some (blk s base (offRefusal + 8), blk s base (offRefusal + 16)) else none
                    phase := Vector.ofFn fun i => phase i.val
                    stalled := stalled }
          bufs := Vector.ofFn fun i => readBuf s base r i.val
          -- the PC of a block counts as reached in sequence (R110): DESIGN CHOICE, assumption 88
          issue := { r.issue with pc := pc, nid := r.issue.nid + 8, from_ := 0, seq := true
                                  barred := stalled.toList.any (·.isSome) }
          fl := fl }
        let (cq, _) := copyQ.foldl (fun (acc, used) e =>
          let (e, used) := reattach r1 (fun x => takenPhases s r1 x.1) e used
          (acc ++ [e], used)) (([] : List CopyEnt), ([] : List (Nat × Nat)))
        let cuQ := cubeQ.map fun e => { e with bufs := refsIn r1 .draining e.runs }
        let ms := msgs.map fun m => { m with srcB := if msgLen m.rc ≤ m.sent then [] else refsIn r1 .draining (msgRuns m.rc) }
        some (retag { r1 with fl := { r1.fl with
          copyQ := cq, cubeQ := cuQ, msgs := ms
          resume := resume.map fun e => { e with bufs := refsIn r1 .draining e.runs } } })
    | _, _, _, _ => none

/-- Messages of a restored frame translate their global destinations again (R262), and those whose end another package told
meanwhile have ended (R35, R261); the block does not hold the prefix limit that stood at an issue, so the present one is
taken (R328, R367). -/
def repin (s : State) (c : CubeId) (f : FrameId) : State :=
  let pre := (s.cube c).ctl.unsched
  let again := fun (m : MsgAct) =>
    let pa := if msgToBuffer m.rc then none
      else match translateF s c f { w := true } (recW m.rc 0) .msg with | .ok a => some a | .error _ => none
    { m with pa := pa, pre := pre }
  let mine := fun (k : MsgKey) => (s.frame c f).task.any (keyOfTask k)
  let settle := fun (m : MsgAct) =>
    match s.hub.ends.find? fun x => mine x.1 && x.1.msgid = m.msgid with
    | some (_, code, bytes) => { m with ended := some code, perf := bytes }
    | none => m
  (s.modFrame c f fun r => { r with fl := { r.fl with
    msgs := (r.fl.msgs.map again).map settle, copyQ := r.fl.copyQ.map fun e => { e with pre := pre } } }).modHub fun h =>
      { h with ends := h.ends.filter fun x => !mine x.1 }

end Sys2Proof.Machine
end

