-- ==== Sys2Proof/Machine/Fetch.lean ====
section
/-! DEFINITION. Fetch of a bundle: packet, code word, dictionary or literal, the next bundle in sequence, and the
traps of R107 to R111. -/

namespace Sys2Proof.Machine

/-- A fetched bundle. -/
structure Fetched where
  lit  : Bool
  b    : Bundle
  /-- the next bundle in sequence (R109) -/
  next : Word
deriving DecidableEq, Repr

/-- A trap with no instruction (R317). -/
def plainTrap (cause : Nat) (pc t2 t3 : Word) (fatal after : Bool) : TrapInfo := ⟨cause, 15, fatal, after, pc, 0, t2, t3⟩

/-- Halfword i of a packet as a number. -/
def halfword (p : Nat) (i : Nat) : Nat := bits p (16 * i) 16
/-- Start bit of halfword i: header bit i. -/
def startBit (p : Nat) (i : Nat) : Bool := decide (2 ≤ i) && Nat.testBit p i

/-- The packet that holds an address, under X permission (R107, R110, R357), or the trap of the fetch: a local
translation fault, of reason 0 in the scratchpad window, or a remote access fault where another package refuses the read
(R66, R361). DESIGN CHOICE, assumption 13. DESIGN CHOICE, assumption 80. DESIGN CHOICE, assumption 100. -/
def fetchPacket (s : State) (c : CubeId) (f : FrameId) (va : Nat) : Except TrapInfo Nat :=
  let r := s.frame c f
  let pc := r.issue.pc
  let local_ := fun (k : Nat) => Except.error (plainTrap 10 pc pc (tinfo10 k 4 false) false false)
  if bits va 48 8 = 0xFF then local_ 0
  else
    match translateF s c f { x := true } (va / 64 * 64) .fetch with
    | .error k => local_ k
    | .ok a =>
      match accessCheck s r.part a false with
      | some k => .error (plainTrap 11 pc pc (w64 (paPkg a + k <<< 10)) true true)
      | none => .ok (gRead s a 64)

/-- The next bundle in sequence after one at halfword h of L halfwords (R109). DEDUCED, assumption 20. -/
def nextInSeq (p : Nat) (pc : Word) (h len : Nat) : Word :=
  let base := w64 (pc.toNat / 64 * 64)
  let n := h + len
  if 32 ≤ n then base + 68
  else if startBit p n then base + w64 (2 * n)
  else if (List.range (32 - n)).all fun i => halfword p (n + i) = 0xFFFF && !startBit p (n + i) then base + 68
  else base + w64 (2 * n)

/-- The size of a frame's dictionary and one of its bundles (R25, R111). -/
def dictOf (s : State) (c : CubeId) (r : Frame) : DictHalf :=
  match r.task with
  | some t => (s.cube c).dict.toList.getD (t.half % 2) ⟨none, 0, false, []⟩
  | none => ⟨none, 0, false, []⟩

/-- A fetch that another package refuses is logged at both ends (R362), and a walk that reads a poisoned line (R356). -/
def logFetch (s : State) (c : CubeId) (f : FrameId) (t : TrapInfo) : State :=
  let r := s.frame c f
  let va := r.issue.pc.toNat / 64 * 64
  if t.cause = 11 then
    match translateF s c f { x := true } va .fetch with
    | .ok a => logRemote s r c r.issue.pc a (bits t.t3.toNat 10 3) 0
    | .error _ => s
  else if t.cause = 10 then logWalk s c f .fetch va
  else s

/-- The bundle at the PC of a frame, or the trap that stands there (R107 to R111, R138). -/
def fetchAt (s : State) (c : CubeId) (f : FrameId) : Except TrapInfo Fetched :=
  let r := s.frame c f
  let pc := r.issue.pc
  let a := pc.toNat
  if a % 2 = 1 ∨ a % 64 / 2 < 2 then .error (plainTrap 3 pc pc r.issue.from_ false false)
  else if bits a 56 8 ≠ 0 then .error (plainTrap 10 pc pc (tinfo10 2 4 false) true false)
  else
    match fetchPacket s c f a with
    | .error t => .error t
    | .ok p =>
      let h := a % 64 / 2
      let dict := dictOf s c r
      let illegal := fun (w : Nat) => Except.error (plainTrap 1 pc (w64 w) (w64 dict.dsize) false false)
      if !startBit p h then
        if r.issue.seq ∧ h ≠ 2 then .error (plainTrap 2 pc 0 0 false false)
        else .error (plainTrap 3 pc pc r.issue.from_ false false)
      else
        let w := halfword p h
        match codeWord (BitVec.ofNat 16 w) with
        | .reserved => illegal w
        | .padding => illegal w
        | .index i =>
          if r.priv.lvl ∨ dict.dsize ≤ i then illegal w
          else if p % 4 ≠ 0 then .error (plainTrap 2 pc 0 0 false false)
          else .ok ⟨false, Bundle.ofBits (fget 0 dict.words i), nextInSeq p pc h 1⟩
        | .escape =>
          if p % 4 ≠ 0 ∨ 7 < h ∨ (List.range 24).any (fun i => startBit p (h + 1 + i)) then
            .error (plainTrap 2 pc 0 0 false false)
          else .ok ⟨true, Bundle.ofBits (BitVec.ofNat 384 (bits p (16 * (h + 1)) 384)), nextInSeq p pc h 25⟩

end Sys2Proof.Machine
end

