-- ==== Sys2Proof/Machine/Trap.lean ====
section
/-! DEFINITION. The sync queue (R105, R216, R217, R269), the quiesce, taking a trap and returning from one (R310, R318 to
R320), drain points (R29), saves and loads of a frame for pre-emption and switches (R28, R324, R325). -/

namespace Sys2Proof.Machine

/-! The sync queue. -/

/-- A semaphore set by `semi` where the task's semaphores stand (R103, R216, R329). -/
def semSet (s : State) (c : CubeId) (f : FrameId) (sem : BitVec 5) (ceil count : Nat) : State :=
  let r := s.frame c f
  if r.away then gWriteVal s (ctxBase s r.priv.ctxptr + offSem + 8 * sem.toNat) 8 (count + ceil <<< 16)
  else
    s.setFrame c f { r with sync := { r.sync with
      semc := r.sync.semc.set sem.toFin (BitVec.ofNat 16 count), semx := r.sync.semx.set sem.toFin (BitVec.ofNat 16 ceil) } }

def popSync (s : State) (c : CubeId) (f : FrameId) : State :=
  s.modFrame c f fun r => { r with fl := { r.fl with syncQ := r.fl.syncQ.drop 1 } }

/-- The head of the sync queue acts once its release is met; `none` while it is not (R103, R105, R269). Class 0 also drops
the task's requests that wait for a grant. DESIGN CHOICE, assumption 104. -/
def syncHead (s : State) (c : CubeId) (f : FrameId) : Option State :=
  let r := s.frame c f
  match r.fl.syncQ with
  | [] => none
  | e :: _ =>
    match e.op with
    | .semi sem ceil count => some (semSet (popSync s c f) c f sem ceil count)
    | .sems sem n tgt =>
      let h := match tgt with | some w => w.toNat | none => 0
      let own : Bool := tgt.all (ownHandle r)
      let here : Bool := own || bits h 8 6 = taskSrank r
      let pkg := if here then s.pkg else spanPkg s r (bits h 8 6)
      if earlierPending s c f e.id true (fun x => x.1 = pkg) then none
      else
        let s := popSync s c f
        if own then some (semAdd s c f sem n 0)
        else
          match r.task with
          | none => some s
          | some t =>
            if here then some (semAddMember s (findMember s t.part t.launch t.gang (bits h 0 2)) sem n 4)
            else
              some (sendFar s t.part c pkg 0 (.sems (wireId s t.launch) (bits h 8 6) (bits h 0 2) sem (BitVec.ofNat 16 n))
                (reqTag r e.info e.id (tgt.getD 0)))
    | .pleave cls dur =>
      let s := popSync s c f
      if cls = 0 then
        some ((s.modFrame c f fun r => { r with leave := none }).modCube c fun q =>
          { q with camp := { q.camp with reqs := q.camp.reqs.filter (·.frame ≠ f.val) } })
      else some (s.modCube c fun q => { q with camp := { q.camp with reqs := q.camp.reqs ++ [⟨f.val, cls, dur, s.now⟩] } })

/-- The sync queue runs as far as it can. -/
def syncRun : Nat → State → CubeId → FrameId → State
  | 0, s, _, _ => s
  | n + 1, s, c, f => match syncHead s c f with | some s' => syncRun n s' c f | none => s

/-! The quiesce (R318, step 3). -/

/-- The lines of an entry part of which has been sent go on being sent: the entry has left the queue as one (R318). -/
def sendRest (s : State) (c : CubeId) (f : FrameId) (e : LsEnt) (i : Nat) : State :=
  if e.lines.any (·.st != .queued) then accessSendRun s c f e.id i else s

/-- Every accepted write performs. -/
def performWrites (s : State) : State := (s.merge.map (·.mid)).foldl performWrite s

/-- One pass over the load/store entries and the merge buffers: what has been sent is accepted and performs; an entry
none of which has been sent stays for the block (R318). -/
def lsPass (s : State) (c : CubeId) (f : FrameId) : State :=
  let ents := (s.frame c f).fl.ls ++ (s.frame c f).fl.fly
  let s := ents.foldl (fun s e =>
    (List.range (max 1 e.lines.length)).foldl (fun s i =>
      performAtom (acceptWrite (sendRest s c f e i) c f e.id i) c f e.id) s) s
  let puts := (s.frame c f).fl.copyA.map (·.id)
  let s := puts.foldl (fun s id => acceptWrite s c f id 0) s
  let s := performWrites s
  ents.foldl (fun s e => loadPerform s c f e.id) s

def lsPasses : Nat → State → CubeId → FrameId → State
  | 0, s, _, _ => s
  | n + 1, s, c, f => lsPasses n (lsPass s c f) c f

/-- Started cube operations land or stop, started copies, flags and commands complete, or take the fault of a target that
refuses them (R66, R318). -/
def enginesFinish (s : State) (c : CubeId) (f : FrameId) : State :=
  let ids := (s.frame c f).fl.cubeA.map (·.id)
  let s := performWrites (ids.foldl (fun s id => cubeFetchAll s c f id) s)
  let s := ids.foldl (fun s id => cubeOperandFault (cubeLand s c f id) c f id) s
  let s := ((s.frame c f).fl.copyA.map (·.id)).foldl (fun s id =>
    putfCompleteRun (nmcComplete (copyComplete s c f id) c f id) c f id) s
  let x := (s.frame c f).fl
  let left := (x.ls.filter fun e => e.lines.any (·.st != .queued)).map (·.id) ++ x.cubeA.map (·.id) ++ x.copyA.map (·.id)
  left.foldl (fun s id => remoteFault s c f id) s

/-- The lines of the task's messages that may move are sent, in issue order (R29, R83, R262). -/
def sendGranted (s : State) (c : CubeId) (f : FrameId) : State :=
  (s.frame c f).fl.msgs.foldl (fun s m =>
    match m.acc with
    | some (rc, n) =>
      let rc := cubeOf rc
      let nums := n :: ((s.cube rc).toks.filter fun t => t.req = n).map (·.num)
      nums.foldl (fun s k => (match linesUnder s rc k with | some x => x.2 | none => []).foldl (fun s i =>
        lineArriveRun s rc k i ⟨[], false, none⟩) s) s
    | none => m.granted.foldl (fun s i => msgSend s c f m.id i) s) s

/-- What has started and cannot complete, since its reads are held behind an entry that stays unsent or a port that is down,
has not started for the save: it stands at the head of its queue again (R318). DESIGN CHOICE, assumption 22. -/
def restart (r : Frame) : Frame :=
  { r with fl := { r.fl with
      cubeQ := r.fl.cubeA.map (fun e => { e with started := none, barred := none, glob := [] }) ++ r.fl.cubeQ, cubeA := []
      copyQ := r.fl.copyA.map (fun e => { e with started := false, line := none, prog := .zero, nm := .zero })
        ++ r.fl.copyQ, copyA := [] } }

/-- The frame's operations in flight brought to rest (R98, R318). DESIGN CHOICE, assumption 22. -/
def quiesce (s : State) (c : CubeId) (f : FrameId) : State :=
  let x := (s.frame c f).fl
  let s := lsPasses (2 * (x.ls.length + x.fly.length + x.copyA.length)) s c f
  let s := enginesFinish s c f
  let s := closeMsgs (sendGranted s c f) c f
  let s := syncRun (s.frame c f).fl.syncQ.length s c f
  let s := s.modFrame c f fun r => restart (landArrived r)
  landDue s c f

/-! Traps. -/

def TrapInfo.tcause (t : TrapInfo) : Word := w64 (t.cause + bnat t.fatal <<< 8 + t.slot <<< 12 + bnat t.after <<< 16)
/-- `TINFO(1)`: the slot field and the slot, zero with slot 15 (R317). -/
def TrapInfo.t1 (t : TrapInfo) : Word := if t.slot = 15 then w64 (15 <<< 56) else w64 (t.bits.toNat + t.slot <<< 56)

/-- The gang of a frame ends with an error (R34, R342, R343): cause, `TINFO(2)`, `TASKID`; gang and record keep the first,
and a span's other packages are told. -/
def failGang (s : State) (c : CubeId) (f : FrameId) (cause : Nat) (t2 : Word) : State :=
  let r := s.frame c f
  match r.task with
  | some t =>
    let e := (cause, t2, r.ctl.taskid)
    let s := modRec (modGang s t.part t.launch t.gang fun g => { g with err := g.err <|> some e }) t.part t.launch fun k =>
      { k with err := k.err <|> some e }
    (match findRec s t.part t.launch with
     | some k => tellSpan s t.part (partCube s t.part) k (.spanFailed (wireId s t.launch) e)
     | none => s)
  | none => s

/-- A handler fault: the frame stops, Teasel logs it, the gang ends with an error (R34, R310).
DESIGN CHOICE, assumption 18. -/
def handlerFault (s : State) (c : CubeId) (f : FrameId) (cause : Nat) (t2 : Word) : State :=
  let r := s.frame c f
  let s := logEvent s 0x70 c.val [w64 cause, t2, r.ctl.taskid]
  let s := failGang s c f cause t2
  s.modFrame c f fun r => { r with issue := { r.issue with stopped := true } }

/-- The address at which a handler's first bundle stands: halfword 2 of the vector's packet (R107, R313).
DEDUCED, assumption 8. DEDUCED, assumption 67. -/
def vectorPc (tvec : Word) (cause : Nat) : Word := w64 (bits tvec.toNat 6 50 <<< 6 + 64 * cause + 4)

/-- What stands in the frame once its state is in the block: queues and pending results empty, no taint (R98, R318). The
landing record has no form for a poisoned result in flight: it stays beside the conditions held for the context, counted
from the saved bundle `nb`, and traps where it would land (R78, R320). DEDUCED, assumption 24. -/
def Flight.saved (x : Flight) (nb : Nat) : Flight :=
  { x with
    land := [], var := [], ls := [], fly := [], wdLs := [], cubeQ := [], cubeA := [], copyQ := [], copyA := [], syncQ := []
    msgs := [], resume := Option.none, due := [], traps := []
    heldDue := x.heldDue ++ x.due, heldTraps := x.heldTraps ++ x.traps
    heldLand := x.heldLand ++ (x.land.filter (·.poison.isSome)).map fun l => { l with due := l.due - nb } }

/-- The landing record as saved: live results only. -/
def Frame.forBlock (r : Frame) : Frame := { r with fl := { r.fl with land := r.fl.land.filter (·.poison.isNone) } }

/-- A frame's state saved in its context block (R318 step 4, R324, R28): `LANDREC` copies the counts word (R313), a
leave is released with its time in the block (R269), and the frame's queues are empty. Of flags that landed at this
boundary nothing is kept but their effect on `FSTAT` and `CSTAT` (R61, R144). DEDUCED, assumption 75. DESIGN CHOICE,
assumption 94. -/
def saveFrame (s : State) (c : CubeId) (f : FrameId) (reason : Nat) : State :=
  let r := s.frame c f
  let s := writeBlock s (ctxBase s r.priv.ctxptr) (blockFlds s.now r.forBlock reason)
  s.setFrame c f { r with
    fl := r.fl.saved r.issue.nb, taint := Taints.none, leave := none, issue := { r.issue with lflags := 0 }
    priv := { r.priv with landrec := w64 (countsWord r.forBlock) } }

/-- TAKING A TRAP (R318): the frame is quiesced, the block written with REASON 1, the cause registers set, level S
entered at the vector of the cause. At level S every trap is a handler fault (R310). -/
def enterTrap (s : State) (c : CubeId) (f : FrameId) (t : TrapInfo) : State :=
  if (s.frame c f).priv.lvl then handlerFault s c f t.cause t.t2
  else
    let s := quiesce s c f
    let set := fun (r : Frame) =>
      { r with priv := { r.priv with tcause := t.tcause, tinfo := #v[t.pc0, t.t1, t.t2, t.t3] } }
    let s := saveFrame (s.modFrame c f set) c f 1
    let pc := vectorPc (s.cube c).ctl.tvec t.cause
    retime (s.modFrame c f fun r => { r with
      priv := { r.priv with lvl := true, disp := 0 }
      regs := { r.regs with a := r.regs.a.set 0 r.priv.ctxva }
      issue := { r.issue with pc := pc, from_ := 0, seq := false, barred := false, halted := false, haltedU := r.issue.halted, dbgCode := none } }) c

/-- Whether the handler's own operations are over, as `rfe` and `halt` at level S wait for (R319). -/
def handlerQuiet (s : State) (c : CubeId) (f : FrameId) : Bool :=
  let x := (s.frame c f).fl
  x.ls.isEmpty && x.fly.isEmpty && x.copyQ.isEmpty && x.copyA.isEmpty && x.cubeQ.isEmpty && x.cubeA.isEmpty
    && x.syncQ.isEmpty && x.msgs.isEmpty && x.var.isEmpty

/-- A held leave is requested again for the time that the block records (R269). -/
def askLeave (s : State) (c : CubeId) (f : FrameId) (base : Nat) : State :=
  let w := (blk s base 0x78).toNat
  if bits w 0 4 = 0 ∨ bits w 16 16 = 0 then s
  else s.modCube c fun q => { q with camp := { q.camp with reqs := q.camp.reqs ++ [⟨f.val, bits w 0 4, bits w 16 16, s.now⟩] } }

/-- The frame loaded from its block; the conditions held for it are in force again (R319, R320). -/
def loadFrame (s : State) (c : CubeId) (f : FrameId) : Option State :=
  let r := s.frame c f
  let base := ctxBase s r.priv.ctxptr
  match readBlock s base r with
  | none => none
  | some r' =>
    let s := s.setFrame c f { r' with
      priv := { r'.priv with lvl := false }
      issue := { r'.issue with swapped := false, halted := r.issue.haltedU, haltedU := false }
      fl := { r'.fl with
        due := r.fl.heldDue, traps := r.fl.heldTraps, heldDue := [], heldTraps := [], heldLand := []
        land := r'.fl.land ++ r.fl.heldLand.map fun l => { l with due := r'.issue.nb + l.due } } }
    some (retime (repin s c f) c)

/-- RETURN FROM A TRAP (R319): the block is read, the frame loaded and level U entered; a handler fault under
TCAUSE.FATAL or where the block breaks a limit. -/
def returnTrap (s : State) (c : CubeId) (f : FrameId) : State :=
  let r := s.frame c f
  if Nat.testBit r.priv.tcause.toNat 8 then handlerFault s c f (bits r.priv.tcause.toNat 0 5) 0
  else
    match loadFrame s c f with
    | some s' => askLeave s' c f (ctxBase s r.priv.ctxptr)
    | none => handlerFault s c f (bits r.priv.tcause.toNat 0 5) 0

/-- A pre-emption request for every member of a gang that has not completed (R31, R32). -/
def requestPreempt (s : State) (part launch gang : Nat) : State :=
  let s := modGang s part launch gang fun g => { g with pre := true }
  (gangFrames s part launch gang).foldl (fun s (c, f) =>
    s.modFrame c f fun r =>
      if r.issue.preempt.isNone then { r with issue := { r.issue with preempt := some (0, 0) } } else r) s

/-- The same, told to the other packages of a span: its gangs are pre-empted on all of them (R32, R351). -/
def preemptGang (s : State) (part launch gang : Nat) : State :=
  match findRec s part launch with
  | some k => tellSpan (requestPreempt s part launch gang) part (partCube s part) k (.spanPreempt (wireId s launch))
  | none => s

/-- `halt` at level S acts on PRIV.DISP (R319). -/
def haltS (s : State) (c : CubeId) (f : FrameId) : State :=
  let r := s.frame c f
  let cause := bits r.priv.tcause.toNat 0 5
  if r.priv.disp = 0 then
    (failGang s c f cause (r.priv.tinfo.toList.getD 2 0)).modFrame c f fun r =>
      { r with issue := { r.issue with stopped := true } }
  else if Nat.testBit r.priv.tcause.toNat 8 then handlerFault s c f cause 0
  else if r.priv.disp = 2 then returnTrap s c f
  else
    let s := match r.task with
      | some t =>
        (match (findRec s t.part t.launch).bind (·.gang t.gang) with
         | some g => if g.pre then s else preemptGang s t.part t.launch t.gang
         | none => s)
      | none => s
    s.modFrame c f fun r => { r with
      priv := { r.priv with lvl := false }, issue := { r.issue with swapped := true, preempt := none } }

/-! Conditions due before the next bundle (R320). -/

/-- The trap of a refused addition (R104, R317). -/
def semTrap (s : State) (c : CubeId) (f : FrameId) (info : OpInfo) : Option TrapInfo :=
  (refusalOf s c f).map fun (a, b) => ⟨8, info.slot, false, false, info.pc, info.bits, a, b⟩

/-- The drain-point-overdue trap where it is due (R325). DEDUCED, assumption 48. -/
def overdue (s : State) (c : CubeId) (f : FrameId) : Option TrapInfo :=
  let r := s.frame c f
  match r.issue.preempt with
  | some (n, ign) =>
    if (s.cube c).ctl.dplimit.toNat ≤ n ∧ !r.priv.lvl then
      some (plainTrap 9 r.issue.pc ((s.cube c).ctl.dplimit.setWidth 64) (w64 ign) false true)
    else none
  | none => none

/-- The first of the conditions due at a boundary (R320), after the causes of the bundle's own issue: remote,
translation, poison, a refused addition, overdue, `sys`. `due` and `ceil` are the poison and the refusal that fall due at
this boundary by their own rules (R78, R104). DEDUCED, assumption 73. -/
def firstDue (s : State) (c : CubeId) (f : FrameId) (due ceil : Option TrapInfo) : Option TrapInfo :=
  let l := (s.frame c f).fl.traps
  let pick := fun (k : Nat) => l.find? (·.cause = k)
  pick 11 <|> pick 10 <|> pick 12 <|> pick 13 <|> due <|> ceil <|> overdue s c f <|> pick 16

/-- The first of the traps found after issue that are due at any boundary (R320). -/
def afterTrap (s : State) (c : CubeId) (f : FrameId) : Option TrapInfo := firstDue s c f none none

/-- A trap found after issue leaves the list as it is taken. -/
def dropTrap (r : Frame) (t : TrapInfo) : Frame := { r with fl := { r.fl with traps := r.fl.traps.erase t } }

/-! Drain points. -/

/-- What a drain point waits for, fixed-latency results apart (R29). -/
def drained (s : State) (c : CubeId) (f : FrameId) : Bool :=
  let r := s.frame c f
  let x := r.fl
  x.var.isEmpty && r.taint.out.isEmpty && x.ls.isEmpty && x.fly.isEmpty && x.cubeQ.isEmpty && x.cubeA.isEmpty
    && x.copyQ.isEmpty && x.copyA.isEmpty && x.syncQ.isEmpty && x.resume.isNone
    && x.msgs.all fun m => (msgGranted s m).isEmpty

/-- Whether the bundle at the PC of a frame is a drain point now (R29). -/
def atDrainPoint (s : State) (c : CubeId) (f : FrameId) : Bool :=
  let r := s.frame c f
  r.task.isSome && !r.issue.swapped && !r.issue.halted && r.fl.land.isEmpty && drained s c f
    && (match fetchAt s c f with | .ok x => x.b.dp | .error _ => false)

/-- Traps taken at a drain point: poison and withdrawals not yet taken, then a refused addition (R78, R104, R320). -/
def drainTrap (s : State) (c : CubeId) (f : FrameId) : Option TrapInfo :=
  let r := s.frame c f
  firstDue s c f (r.fl.due.head?.map (·.info)) (semTrap s c f ⟨r.issue.pc, 0, 15, 0⟩)

def dropDue (r : Frame) (t : TrapInfo) : Frame :=
  { r with
    fl := { r.fl with due := r.fl.due.filter (·.info ≠ t), traps := r.fl.traps.erase t }
    sync := if t.cause = 8 then { r.sync with refusal := none } else r.sync }

/-- A trap taken at a drain point. -/
def takeDrainTrap (s : State) (c : CubeId) (f : FrameId) (t : TrapInfo) : State :=
  enterTrap (s.modFrame c f fun r => dropDue r t) c f t

/-! Switches (R28). -/

/-- A gang in admission, or one whose members stop for a pre-emption, issues nothing (R27, R32, R111). -/
def gangHolds (s : State) (r : Frame) : Bool :=
  match r.task with
  | some t => (match (findRec s t.part t.launch).bind (·.gang t.gang) with
      | some g => (g.pre && r.issue.swapped && r.issue.preempt.isNone) || g.st != .running
      | none => false)
  | none => true

def otherF (f : FrameId) : FrameId := 1 - f

/-! Pre-emption (R324). -/

/-- A frame released: its accumulator forms and conditions not taken stay with the cube (R35, R248).
DEDUCED, assumption 42. -/
def freeFrame (s : State) (c : CubeId) (f : FrameId) (park : Bool) : State :=
  let r := s.frame c f
  retime (s.modCube c fun q =>
    let parked := match r.task with
      | some t =>
        if park then
          ⟨t, r.ctl.form, r.fl.heldDue ++ r.fl.due, r.fl.heldTraps ++ r.fl.traps, r.fl.heldLand, r.issue.haltedU,
            q.spill.filter fun e => spillOwner e.1 = f.val, q.shadow.filter fun e => spillOwner e.1 = f.val,
            r.issue.yielded, r.priv, r.bufs, r.issue.nid, r.sync.phase⟩ :: q.parked
        else q.parked
      | none => q.parked
    let free := { Frame.free with ctl := { Ctl.zero with layers := q.fab.insvc }, banks := q.fab.banks }
    { q.setFrame f free with
      parked := parked, camp := { q.camp with reqs := q.camp.reqs.filter (·.frame ≠ f.val) } }) c

/-- The gangs of a record that stop together: its own gang of a wave, and all of a span, each of which has stopped for the
pre-emption or has completed (R32). -/
def allStopped (s : State) (k : Rec) : Bool :=
  bits (k.word 0) 0 2 ≠ 1 ||
  (List.range (spanPkgs k).length).all fun i =>
    k.stops.contains i || k.doneAt.contains i || ((spanPkgs k).getD i s.pkg = s.pkg && k.gangs = [] && decide (0 < k.doneN))

/-- Whether every member of a gang that holds a frame has stopped for a pre-emption. -/
def membersOff (s : State) (part launch gang : Nat) : Bool :=
  let l := gangFrames s part launch gang
  l ≠ [] && l.all fun (c, f) => let r := s.frame c f; r.issue.swapped && r.issue.preempt.isNone

/-- A gang whose members have all stopped is pre-empted as a whole and its frames are released; one of a span says so to
the other packages and keeps its frames until every gang of the span has stopped (R32). -/
def settlePreempted (s : State) (part launch gang : Nat) : State :=
  match findRec s part launch with
  | none => s
  | some k =>
    match k.gang gang with
    | none => s
    | some g =>
      if !g.pre || !membersOff s part launch gang then s
      else
        let s := if bits (k.word 0) 0 2 ≠ 1 ∨ k.stops.contains gang then s
          else tellSpan (modRec s part launch fun k => { k with stops := gang :: k.stops }) part (partCube s part) k
            (.spanStopped (wireId s launch) gang)
        if (findRec s part launch).any (allStopped s) then
          let s := (gangFrames s part launch gang).foldl (fun s (c, f) => freeFrame s c f true) s
          modGang s part launch gang fun g => { g with st := .preempted, pre := false }
        else s

/-- A task at a drain point is saved with REASON 0; its leave is released with its time saved (R269, R324). -/
def savePreempted (s : State) (c : CubeId) (f : FrameId) : State :=
  let r := s.frame c f
  match r.task with
  | none => s
  | some t =>
    let s := saveFrame (closeMsgs s c f) c f 0
    let s := retime (s.modFrame c f fun r => { r with issue := { r.issue with swapped := true, preempt := none } }) c
    settlePreempted s t.part t.launch t.gang

/-- PREEMPTION: a request is taken at a drain point where no trap is due (R320, R324); a gang whose members have all
stopped gives up its frames (R32). -/
def preemptionRun (s : State) (c : CubeId) (f : FrameId) : State :=
  let r := s.frame c f
  match r.task with
  | none => s
  | some t =>
    if r.issue.preempt.isSome ∧ !r.priv.lvl ∧ !r.issue.dbg.held ∧ atDrainPoint s c f ∧ (drainTrap s c f).isNone then savePreempted s c f
    else settlePreempted s t.part t.launch t.gang

/-- ASYNC_INTERRUPT: a waiting interrupt is taken at a drain point: the PC names that bundle and nothing else of the
frame changes, since the spec describes no entry of its own (R30). DEDUCED, assumption 29. -/
def asyncRun (s : State) (c : CubeId) (f : FrameId) : State :=
  let r := s.frame c f
  if r.issue.irq ∧ !r.priv.lvl ∧ atDrainPoint s c f ∧ (drainTrap s c f).isNone then
    s.setFrame c f { r with issue := { r.issue with irq := false } }
  else s

/-! Faults found after issue. -/

/-- The head of the copy queue whose first lines do not translate; it and the later entries stay, unsent (R255). -/
def copyFault (s : State) (c : CubeId) (f : FrameId) : State :=
  let r := s.frame c f
  match r.fl.copyQ with
  | [] => s
  | e :: _ =>
    if !r.fl.traps.isEmpty ∨ !waitOver r e.id e.wait then s
    else
      match firstFailure s c f e with
      | some (va, k, src, w) =>
        if k = placeRefused then s
        else
          let st : Stream := match e.op with | .msend .. => .msg | .nmc .. => .nm | _ => .copy
          logWalk (s.setFrame c f { r with fl := { r.fl with traps := [trapAfter10 e.info va k src w] } }) c f st va.toNat
      | none => s

/-- QUEUED_TRANSLATION_FAULT of a stream (R204, R244, R255). -/
def queuedFaultRun (s : State) (c : CubeId) (f : FrameId) (src : Stream) : State :=
  match src with
  | .ls => withdrawLs (match lsFailure s c f with | some (_, va, _) => logWalk s c f .ls va.toNat | none => s) c f
  | .copy | .msg | .nm => copyFault s c f
  | .cube => (s.frame c f).fl.cubeA.foldl (fun s e => cubeOperandFault s c f e.id) s
  | .fetch => s

/-- PAGE_WALK: a source's address is looked up and, where no TLB holds it, walked; the entry fills the source's first
level and the last level; a walk that reads a poisoned line is logged (R356, R358). -/
def pageWalkRun (s : State) (c : CubeId) (f : FrameId) (src : Stream) (va : Word) : State :=
  let r := s.frame c f
  match lookup s c r.part r.asid va.toNat src with
  | .ok e => s.modCube c fun q => tlbFill q src e
  | .error _ => logWalk s c f src va.toNat

end Sys2Proof.Machine
end

