-- ==== Sys2Proof/Machine/Shape.lean ====
section
/-! DEFINITION. What a slot instruction names: the registers it reads and writes, the level of a control slot, the queue
it enters (R116, R119, R121, R122, R125). -/

namespace Sys2Proof.Machine

/-- A register by file number and specifier (R317, cause 4; R322): 0 X, 1 Y, 2 A, 3 V, 4 predicate, 5 `FMT`, 6 `FID`. -/
abbrev RegName := FileNo × Nat

def rX (u : XY) (r : Reg) : RegName := (no3 (xyFile u), r.toNat)
def rF (f : File3) (r : Reg) : RegName := (no3 f, r.toNat)
def rA (r : Reg) : RegName := (2, r.toNat)
def rV (v : VSpec) : RegName := (3, v.toNat)
def rP (p : Pred) : RegName := (4, p.toNat)

/-- The address registers a `loop` of a level strides: its pairs as attached now (R119, R148). -/
def strideRegs (r : Frame) (lv : BitVec 3) : List RegName :=
  match r.seq[lv.toNat]? with | some l => l.pairs.map fun p => rA p.1 | none => []

/-- Destinations (R119); `p0` is none. -/
def destsOf (r : Frame) : Instr → List RegName
  | .call _ => [(2, 31)]
  | .calli lk _ => [rA lk]
  | .loop lv => strideRegs r lv
  | .setfmt .. => [(5, 0)]
  | .setfid .. => [(6, 0)]
  | .add u _ _ d _ _ | .sub u _ _ d _ _ => [rX u d]
  | .addi u d _ _ => [rX u d]
  | .mul u _ d _ _ | .mulh u _ d _ _ | .mulhz u _ d _ _ | .div u _ d _ _ | .rem u _ d _ _ | .and u _ d _ _
  | .andn u _ d _ _ | .or u _ d _ _ | .xor u _ d _ _ | .sll u _ d _ _ | .srl u _ d _ _ | .sra u _ d _ _
  | .rol u _ d _ _ | .min u _ d _ _ | .max u _ d _ _ | .minz u _ d _ _ | .maxz u _ d _ _ => [rX u d]
  | .cmp _ _ _ pd _ _ | .fcmp _ _ _ pd _ _ | .cmpi _ _ pd _ _ | .pand _ pd _ _ | .por _ pd _ _ | .pxor _ pd _ _
  | .pnot _ pd _ | .acmp _ pd _ _ => if pd = 0 then [] else [rP pd]
  | .sel u _ d _ _ => [rX u d]
  | .clz u _ d _ | .ctz u _ d _ | .popc u _ d _ | .sext u _ d _ | .zext u _ d _ => [rX u d]
  | .mov u d _ | .movi u d _ | .movhi u d _ _ => [rX u d]
  | .xmov _ dc d _ => [rF dc d]
  | .fadd u _ _ d _ _ | .fsub u _ _ d _ _ | .fmul u _ _ d _ _ | .fma u _ _ d _ _ => [rX u d]
  | .fmin u _ d _ _ | .fmax u _ d _ _ => [rX u d]
  | .fcvt u _ _ _ _ d _ | .fsgn u _ _ d _ _ => [rX u d]
  | .frcp u _ _ d _ | .frsq u _ _ d _ => [rX u d]
  | .aadd d _ _ | .aaddi d _ _ | .asub d _ _ | .aidx d _ _ _ | .amov d _ | .amovi d _ | .amod d _ _ _ => [rA d]
  | .vadd _ _ _ d _ _ | .vsub _ _ _ d _ _ | .vmul _ _ _ d _ _ | .vfma _ _ _ d _ _ => [rV d]
  | .vmin _ d _ _ | .vmax _ d _ _ | .vabs _ _ d _ | .vneg _ _ d _ | .vand _ d _ _ | .vor _ d _ _ | .vxor _ d _ _
  | .vshl _ d _ _ | .vshr _ d _ _ | .vcmp _ _ d _ _ | .vsel _ d _ _ _ | .vperm _ d _ _ | .vshuf _ _ d _ _ => [rV d]
  | .vcvt _ _ _ _ _ d _ _ | .vpack _ _ _ _ d _ _ | .vunpack _ _ d _ _ | .vscale _ _ _ _ d _ _ => [rV d]
  | .vbcast _ _ d _ | .vrot _ _ d _ | .vlane _ _ d _ | .vins _ _ d _ | .vext _ _ d _ _ => [rV d]
  | .vscan _ _ _ _ _ _ d _ _ | .vred _ _ _ _ d _ _ => [rV d]
  | .vpart _ d s1 s2 _ => [rV d, rV s1, rV s2]
  | .vexp2 _ d _ | .vlog2 _ d _ | .vtanh _ d _ | .vrcp _ _ d _ | .vrsqrt _ _ d _ | .vmov d _ | .vmovi _ _ d => [rV d]
  | .ld f _ d _ _ | .gld f _ d _ _ => [rF f d]
  | .vld v _ _ | .gvld v _ _ | .vgath _ _ _ _ v => [rV v]
  | .atom _ _ fe _ f d _ _ _ => if fe then [rF f d] else []
  | .tget d _ => [(0, d.toNat)]
  | .ldt f reg _ _ => if f = .p ∧ reg = 0 then [] else [(no5 f, reg.toNat)]
  | .accrd _ _ _ _ v => [rV v]
  | .nmc _ fe fd _ => if fe then [(0, fd.toNat)] else []
  | .crr x _ => [(0, x.toNat)]
  | _ => []

/-- Registers read as operands; `tclr` and `tget` read no register value (R208, R210). -/
def readsOf (r : Frame) : Instr → List RegName
  | .bri tg | .calli _ tg | .ret tg => [rA tg]
  | .lsetReg _ cl c => [rF cl c]
  | .lstride _ _ st => [(0, st.toNat)]
  | .loop lv => strideRegs r lv
  | .add u _ _ _ a b | .sub u _ _ _ a b => [rX u a, rX u b]
  | .addi u _ a _ => [rX u a]
  | .mul u _ _ a b | .mulh u _ _ a b | .mulhz u _ _ a b | .div u _ _ a b | .rem u _ _ a b | .and u _ _ a b
  | .andn u _ _ a b | .or u _ _ a b | .xor u _ _ a b | .sll u _ _ a b | .srl u _ _ a b | .sra u _ _ a b
  | .rol u _ _ a b | .min u _ _ a b | .max u _ _ a b | .minz u _ _ a b | .maxz u _ _ a b => [rX u a, rX u b]
  | .cmp u _ _ _ a b | .fcmp u _ _ _ a b => [rX u a, rX u b]
  | .cmpi u _ _ a _ => [rX u a]
  | .sel u ps _ a b => [rP ps, rX u a, rX u b]
  | .clz u _ _ a | .ctz u _ _ a | .popc u _ _ a | .sext u _ _ a | .zext u _ _ a => [rX u a]
  | .mov u _ a => [rX u a]
  | .movhi u d _ _ => [rX u d]
  | .pand _ _ a b | .por _ _ a b | .pxor _ _ a b => [rP a, rP b]
  | .pnot _ _ a => [rP a]
  | .xmov u _ _ a => [rX u a]
  | .fadd u _ _ _ a b | .fsub u _ _ _ a b | .fmul u _ _ _ a b => [rX u a, rX u b]
  | .fma u _ _ d a b => [rX u a, rX u b, rX u d]
  | .fmin u _ _ a b | .fmax u _ _ a b => [rX u a, rX u b]
  | .fcvt u _ _ _ _ _ a => [rX u a]
  | .fsgn u _ _ _ a b => [rX u a, rX u b]
  | .frcp u _ _ _ a | .frsq u _ _ _ a => [rX u a]
  | .aadd _ a b | .asub _ a b | .aidx _ a b _ | .acmp _ _ a b => [rA a, rA b]
  | .aaddi _ a _ | .amov _ a => [rA a]
  | .amod _ a b c => [rA a, rA b, rA c]
  | .vadd _ _ _ _ a b | .vsub _ _ _ _ a b | .vmul _ _ _ _ a b => [rV a, rV b]
  | .vfma _ _ _ d a b => [rV a, rV b, rV d]
  | .vmin _ _ a b | .vmax _ _ a b | .vand _ _ a b | .vor _ _ a b | .vxor _ _ a b | .vshl _ _ a b | .vshr _ _ a b
  | .vcmp _ _ _ a b | .vperm _ _ a b | .vext _ _ _ a b => [rV a, rV b]
  | .vshuf pat _ _ a b => if pat = .rev ∨ pat = .swp then [rV a] else [rV a, rV b]
  | .vabs _ _ _ a | .vneg _ _ _ a => [rV a]
  | .vsel _ _ a b c => [rV a, rV b, rV c]
  | .vcvt td ts _ _ _ d a _ => if td.width < ts.width then [rV a, rV d] else [rV a]
  | .vpack _ _ _ _ d a _ => [rV a, rV d]
  | .vunpack _ _ _ a _ => [rV a]
  | .vscale _ _ _ _ _ a b => [rV a, rV b]
  | .vbcast _ _ _ a | .vrot _ _ _ a | .vlane _ _ _ a => [rV a]
  | .vins _ _ d a => [rV a, rV d]
  | .vscan _ _ seg _ _ _ _ a b => if seg then [rV a, rV b] else [rV a]
  | .vred _ _ _ _ _ a _ => [rV a]
  | .vpart _ _ _ _ c => [rV c]
  | .vexp2 _ _ a | .vlog2 _ _ a | .vtanh _ _ a | .vrcp _ _ _ a | .vrsqrt _ _ _ a | .vmov _ a => [rV a]
  | .ld _ _ _ b _ | .gld _ _ _ b _ => [rA b]
  | .st f _ d b _ | .gst f _ d b _ => [rA b, rF f d]
  | .vld _ b _ | .gvld _ b _ | .gpf b _ => [rA b]
  | .vst v b _ | .gvst v b _ => [rA b, rV v]
  | .vgath _ _ ix b _ => [rA b, rV ix]
  | .vscat _ _ ix b v => [rA b, rV ix, rV v]
  | .atom op _ _ _ f _ b a c => [rA b, rF f a] ++ (if op = .cas then [rF f c] else [])
  | .spt f reg _ _ => [(no5 f, reg.toNat)]
  | .bdecl _ base len _ => [rA base, rA len]
  | .sems _ _ rmt tgt => if rmt then [rA tgt] else []
  | .cmma _ a b sh _ _ | .cmmz _ a b sh _ _ => [rA a, rA b, rA sh]
  | .accwr _ _ _ _ v => [rV v]
  | .copy a _ | .msend a _ _ | .putfImm a _ _ | .nmc a _ _ _ | .wlaunch a _ => [rA a]
  | .putfReg a v _ => [rA a, (0, v.toNat)]
  | .crw x _ => [(0, x.toNat)]
  | .tlbi kind a => if kind.toNat % 4 < 2 then [rA a] else []
  | _ => []

/-- The physical register of a name (R117). -/
def physName (k : Ctl) (n : RegName) : RegName := if n.1 = 3 then (3, physV k (BitVec.ofNat 9 n.2)) else n

/-- The sequencer level that a control instruction names (R119). -/
def levelOf : Instr → Option (BitVec 3)
  | .lsetImm lv _ | .lsetReg lv _ _ | .lstride lv _ _ | .loop lv | .lexit lv _ => some lv
  | _ => none

/-- The queues of R125. -/
inductive QueueNo where
  | ls | cube | copy | sync
deriving DecidableEq, Repr

def queueOf : Instr → Option QueueNo
  | .gld .. | .gst .. | .gvld .. | .gvst .. | .gpf .. | .atom .. | .drain .. => some .ls
  | .cmma .. | .cmmz .. | .accrd .. | .accwr .. => some .cube
  | .copy .. | .msend .. | .putfImm .. | .putfReg .. | .nmc .. | .wlaunch .. => some .copy
  | .semi .. | .sems .. | .pleave .. => some .sync
  | _ => none

def queueFull (r : Frame) : QueueNo → Bool
  | .ls => decide (32 ≤ r.fl.ls.length)
  | .cube => decide (8 ≤ r.fl.cubeQ.length)
  | .copy => decide (16 ≤ r.fl.copyQ.length)
  | .sync => decide (8 ≤ r.fl.syncQ.length)

/-- The semaphore of the task's own that an instruction names for R104; `sems.rmt` names one only by the task's own
handle (R217). -/
def semOf (r : Frame) : Instr → Option (BitVec 5)
  | .semi sem _ _ | .semw sem _ => some sem
  | .sems sem _ rmt tgt => if rmt && !ownHandle r (r.regs.rd .a tgt) then none else some sem
  | _ => none

/-- The operand taint of a scratchpad store or `spt`, whose bundle waits for it (R91, R199, R212). -/
def storeSrc (r : Frame) : Instr → Option Taint
  | .st f _ d b _ => some (r.taint.rd .a b ||| r.taint.rd f d)
  | .vst v b _ => some (r.taint.rd .a b ||| r.taint.rdV (physV r.ctl v))
  | .vscat _ _ ix b v => some (r.taint.rd .a b ||| r.taint.rdV (physV r.ctl ix) ||| r.taint.rdV (physV r.ctl v))
  | .spt _ _ _ _ => some 0
  | _ => none
/-- Its wait set, with guard and `CTAINT`. -/
def storeWait (r : Frame) (gt : Taint) (i : Instr) : Option Taint := (storeSrc r i).map fun t => t ||| gt ||| r.taint.ct

/-- Whether an instruction's queue has no room (R125). -/
def entersFull (r : Frame) (i : Instr) : Bool :=
  match queueOf i with | some q => queueFull r q | none => false
/-- What a `semw` waits for (R218). -/
def semwOf : Instr → Option (BitVec 5 × BitVec 16)
  | .semw k n => some (k, n)
  | _ => none
/-- The barrier that a `bar` names (R219). -/
def barOf : Instr → Option (BarKind × BitVec 4)
  | .bar k bid => some (k, bid)
  | _ => none
/-- The record register of a `copy`. -/
def copyOf : Instr → Option Reg
  | .copy a _ => some a
  | _ => none
/-- The code of a `dbg` (R276). -/
def dbgOf : Instr → Option (BitVec 16)
  | .dbg code => some code
  | _ => none
/-- Instructions that at level S wait for the handler's own operations (R319). -/
def leavesS : Instr → Bool
  | .rfe | .halt => true
  | _ => false
def isRfe : Instr → Bool
  | .rfe => true
  | _ => false
def isSys : Instr → Bool
  | .sys _ => true
  | _ => false
def isYield : Instr → Bool
  | .yield => true
  | _ => false
def isHalt : Instr → Bool
  | .halt => true
  | _ => false

end Sys2Proof.Machine
end

