-- ==== Sys2Proof/Machine/Issue.lean ====
section
/-! DEFINITION. The issue of a bundle: static checks, guards, stalls, dynamic checks, drain points, and the commit
(R29, R30, R36, R93, R94, R113, R114, R118 to R124, R138, R220, R320). -/

namespace Sys2Proof.Machine

/-- A bundle as the core judges it: header fields, slots that hold an instruction, next bundle in sequence. -/
structure BundleIn where
  dp    : Bool
  wait  : BitVec 8
  lvl   : BitVec 3
  /-- header bits [15:12] are not zero (R113) -/
  bad   : Bool
  slots : List SlotIns
  next  : Word

/-- The meaning of a slot instruction. -/
abbrev Meaning := Instr → Ctx → State → SlotRes

def slotTrap (pc : Word) (x : SlotIns) (cause : Nat) (t2 t3 : Word) : TrapInfo :=
  ⟨cause, x.slot.code, false, false, pc, x.raw, t2, t3⟩

/-- Two slots that write one register: the first pair in slot order, with the register (R119).
DEDUCED, assumption 66. -/
def doubleWrite (r : Frame) (l : List SlotIns) : Option (SlotIns × SlotIns × RegName) :=
  l.findSome? fun x => l.findSome? fun y =>
    if x.slot.code < y.slot.code then
      ((destsOf r x.ins).find? fun d => (destsOf r y.ins).contains d).map fun d => (x, y, d)
    else none

/-- The causes that depend on no register value: illegal encoding, then double write (R113, R119, R138). Of two control slots
that name one sequencer level the second is reported. DESIGN CHOICE, assumption 99. -/
def staticTrap (r : Frame) (b : BundleIn) : Option TrapInfo :=
  let pc := r.issue.pc
  if b.bad ∨ (6 ≤ b.lvl.toNat ∧ b.slots.any fun x => x.first || x.last) then some (plainTrap 2 pc 0 0 false false)
  else
    let named := b.slots.filterMap fun x => (levelOf x.ins).map fun l => (x, l)
    match named with
    | [(_, l), (y, m)] =>
      if l = m then some (slotTrap pc y 2 0 0)
      else dw pc
    | _ => dw pc
where
  dw (pc : Word) : Option TrapInfo :=
    match doubleWrite r b.slots with
    | some (x, y, (file, reg)) => some (slotTrap pc x 4 (w64 (reg + (min file 5) <<< 9 + y.slot.code <<< 12)) 0)
    | none => none

/-- Whether a slot issues under its guard and the sequencer (R114). -/
def slotIssues (r : Frame) (lvl : BitVec 3) (x : SlotIns) : Bool :=
  let l := r.seq.toList.getD lvl.toNat SeqLevel.idle
  let first := !l.active || l.first
  let last := !l.active || l.remain = 1
  r.regs.pred x.guard && (!x.first || first) && (!x.last || last)

/-- The physical registers that a bundle reads or writes: guards of every slot, operands of those that issue.
DEDUCED, assumption 37. -/
def usedRegs (r : Frame) (all iss : List SlotIns) : List RegName :=
  (all.filterMap fun x => if x.guard = 0 then none else some (rP x.guard)) ++
  iss.flatMap fun x => (readsOf r x.ins ++ destsOf r x.ins).map (physName r.ctl)

/-- What the core finds at a bundle. -/
inductive Verdict where
  | trap (t : TrapInfo)
  | bubble
  /-- nothing issues; whether the stall is on a WAIT mask, a `semw` or a `bar` (R28) -/
  | stall (waits : Bool)
  | arrive (k : BarKind) (bid : BitVec 4) (info : OpInfo)
  | go (l : List (SlotIns × SlotEff))

def ctxOf (s : State) (c : CubeId) (f : FrameId) (b : BundleIn) (x : SlotIns) : Ctx :=
  let r := s.frame c f
  ⟨c, f, r, ⟨r.issue.pc, x.raw, x.slot.code, x.guard⟩, b.next, r.taint.pred x.guard⟩

/-- A poison or withdrawal trap that this bundle meets: its WAIT or `semw` names the operation's signal, or, once its
stalls have cleared, it reads the register (R78, R388). -/
def dueHere (r : Frame) (b : BundleIn) (iss : List SlotIns) (clear : Bool) : Option TrapInfo :=
  let waits := fun (sig : Nat) =>
    (decide (sig < 8) && b.wait.getLsbD sig) ||
    iss.any fun x => (semwOf x.ins).any fun w => sig = 8 + w.1.toNat
  let reads := iss.flatMap fun x => (readsOf r x.ins).map (physName r.ctl)
  let guards := b.slots.map fun x => rP x.guard
  (r.fl.due.find? fun d => waits d.sig || (clear && d.reg.any (reads ++ guards).contains)).map (·.info)

/-- Why a `semw` holds its bundle, or that it breaks the ceiling, which no other stall holds back (R103, R138, R218). -/
def semwHold (s : State) (k : Ctx) (sem : BitVec 5) (n : Nat) : Except TrapInfo Bool :=
  let r := k.r
  let queued := r.fl.syncQ.any fun e => match e.op with
    | .semi m _ _ => m = sem
    | .sems m _ tgt => m = sem && tgt.all (ownHandle r)
    | _ => false
  if queued then .ok true
  else
    let (count, ceil) := semRead s k.c k.f sem
    if ceil < n then .error k.illegal else .ok (decide (count < n))

/-- The trap of a refused addition to a semaphore that the bundle names: in a `semw` even while it waits, in a `sems` or
`semi` once the bundle's stalls have cleared (R104, R138). -/
def semNamed (s : State) (c : CubeId) (f : FrameId) (iss : List SlotIns) (clear : Bool) : Option TrapInfo :=
  let r := s.frame c f
  match refusalOf s c f with
  | some (a, _) =>
    (iss.find? fun x => (clear || (semwOf x.ins).isSome) && (semOf r x.ins).any fun m => m.toNat = bits a.toNat 0 5).bind
      fun x => semTrap s c f ⟨r.issue.pc, x.raw, x.slot.code, x.guard⟩
  | none => none

/-- Stalls of R138 other than interlocks: queue, WAIT, store taint, drain point, `semw`, `bar`, level-S returns. -/
def holdOf (s : State) (c : CubeId) (f : FrameId) (b : BundleIn) (iss : List SlotIns) : Option Bool :=
  let r := s.frame c f
  if iss.any fun x => entersFull r x.ins then some false
  else if r.sync.df &&& b.wait ≠ b.wait then some true
  else if iss.any fun x => (storeWait r (r.taint.pred x.guard) x.ins).any fun w => !waitOver r (16 * r.issue.nid + 15) w then
    some false
  else if b.dp ∧ r.fl.land.isEmpty ∧ !drained s c f then some false
  else if r.priv.lvl ∧ (iss.any fun x => leavesS x.ins) ∧ !handlerQuiet s c f then some false
  else none

/-- What a `bar` of the bundle asks: to wait, to arrive, or nothing more (R105, R219, R220, R405). -/
def barState (s : State) (c : CubeId) (f : FrameId) (k : BarKind) (bid : BitVec 4) : Option Bool :=
  let r := s.frame c f
  match r.task with
  | none => some false
  | some t =>
    match r.sync.stalled.toList.getD (barIdx k bid.toNat) none with
    | some ph => if phaseEnded s t.part t.launch t.gang k bid.toNat ph then none else some false
    | none =>
      let sc := match k with | .gang => Scope.pkg | .span => Scope.span
      if earlierPending s c f (16 * r.issue.nid) true (inScope s r c sc) then some false
      else if 4 ≤ heldPhases s t.part t.launch t.gang k bid.toNat (taskSrank r, t.rank) then some false
      else some true

/-- A `copy` that names a barrier in which four phases of the member are open stalls (R220). -/
def copyBar (s : State) (r : Frame) (rc : List Word) : Bool :=
  let ctl := recW rc 0
  match r.task with
  | some t =>
    Nat.testBit ctl 17 && decide (4 ≤ heldPhases s t.part t.launch t.gang (if Nat.testBit ctl 22 then .span else .gang)
      (bits ctl 18 4) (taskSrank r, t.rank))
  | none => false

/-- The same of the copy whose record an A register names. -/
def copyHeld (s : State) (k : Ctx) (a : Reg) : Bool :=
  match k.record s (k.rd .a a) 256 1 with
  | .ok (_, rc) => copyBar s k.r rc
  | .error _ => false

/-- A `sys` beside a `halt`, or an `rfe` beside anything but `nop`, is an illegal operation (R273, R274). -/
def mismatched (b : BundleIn) (iss : List SlotIns) (x : SlotIns) : Bool :=
  (isSys x.ins && iss.any fun y => isHalt y.ins) ||
  (isRfe x.ins && b.slots.any fun y => y.slot != x.slot && y.ins != .nop)

/-- The slots' effects, or the first fault in the order of R138: illegal operation, then the others by slot. -/
def slotEffects (s : State) (c : CubeId) (f : FrameId) (b : BundleIn) (iss : List SlotIns) (m : Meaning) :
    Except TrapInfo (List (SlotIns × SlotEff)) :=
  let meant := fun (x : SlotIns) =>
    if mismatched b iss x then .error (ctxOf s c f b x).illegal else m x.ins (ctxOf s c f b x) s
  let res := iss.map fun x => (x, meant x)
  let bad := res.filterMap fun x => match x.2 with | .error t => some t | .ok _ => none
  match (bad.find? (·.cause = 15)) <|> bad.head? with
  | some t => .error t
  | none => .ok (res.filterMap fun x => match x.2 with | .ok e => some (x.1, e) | .error _ => none)

/-- The same once the bundle's checks have been made: none is repeated (R138). -/
def slotEffectsAgain (s : State) (c : CubeId) (f : FrameId) (b : BundleIn) (iss : List SlotIns) (m : Meaning) :
    List (SlotIns × SlotEff) :=
  let r := s.frame c f
  let open_ := s.setFrame c f { r with bufs := Vector.replicate 64 none }
  iss.filterMap fun x =>
    match m x.ins (ctxOf s c f b x) s with
    | .ok e => some (x, e)
    | .error _ => (match m x.ins (ctxOf open_ c f b x) s with | .ok e => some (x, e) | .error _ => none)

/-- Fixed-latency writes that a slot adds (R121, R321). -/
def fixedWrites (r : Frame) (i : Instr) : Nat :=
  match i with
  | .loop _ => 0
  | .gld .. | .gvld .. | .atom .. | .accrd .. | .nmc .. => 0
  | _ => (destsOf r i).length

/-- Registers with a variable-latency result pending, or an armed one (R122, R124). -/
def busyVar (r : Frame) (l : List RegName) : Bool := l.any fun n => pendingVar r n.1 n.2
def busyArmed (r : Frame) (l : List RegName) : Bool :=
  l.any fun n => r.fl.land.any fun x => x.arm && x.file = n.1 && x.reg = n.2

/-- The illegal operation of a slot whose guard is known, which no stall holds back: `bar.span` in a gang of a wave
(R138, R219). -/
def waveBar (r : Frame) (b : BundleIn) : Option SlotIns :=
  b.slots.find? fun x => (barOf x.ins).any (fun y => y.1 = .span && decide (taskSsize r = 0)) &&
    (x.guard = 0 || !(busyVar r [rP x.guard] || busyArmed r [rP x.guard])) && slotIssues r b.lvl x

/-- Whether a bundle would leave more than 64 fixed-latency writes pending, its own counted (R321). -/
def overfull (r : Frame) (iss : List SlotIns) : Bool :=
  decide (64 < iss.foldl (fun n x => n + fixedWrites r x.ins) (r.fl.land.filter fun x => decide (r.issue.nb < x.due)).length)

/-- The checks of every slot once the bundle's stalls have cleared: illegal operations first, too many pending writes
among them, then the rest by slot (R138, R321). -/
def bundleChecks (s : State) (c : CubeId) (f : FrameId) (b : BundleIn) (iss : List SlotIns) (m : Meaning) :
    Except TrapInfo (List (SlotIns × SlotEff)) :=
  let r := s.frame c f
  let full := plainTrap 15 r.issue.pc 0 0 false false
  match slotEffects s c f b iss m with
  | .error t => .error (if t.cause ≠ 15 ∧ overfull r iss then full else t)
  | .ok effs => if overfull r iss then .error full else .ok effs

/-- What R138 judges of a bundle whose stalls, `semw` and `bar` apart, have cleared. -/
def judgeClear (s : State) (c : CubeId) (f : FrameId) (b : BundleIn) (iss : List SlotIns) (m : Meaning) : Verdict :=
  let r := s.frame c f
  let ask := (iss.findSome? fun x => (barOf x.ins).map fun y => (y.1, y.2, (ctxOf s c f b x).info)).map fun y =>
    (y, barState s c f y.1 y.2.1)
  match ask with
  | some (_, some false) => .stall true
  | _ =>
    if r.issue.barred then .go (slotEffectsAgain s c f b iss m)
    else
      match bundleChecks s c f b iss m with
      | .error t => .trap t
      | .ok effs =>
        if iss.any fun x => (copyOf x.ins).any (copyHeld s (ctxOf s c f b x)) then .stall false
        else
          match ask with
          | some ((k, bid, info), some true) => .arrive k bid info
          | _ => .go effs

/-- Everything that R138 judges of a bundle whose encoding has passed. A bundle held by an interlock of R122 and by an
armed register stalls on the first, and issues no bubble meanwhile. DESIGN CHOICE, assumption 78. -/
def judge (s : State) (c : CubeId) (f : FrameId) (b : BundleIn) (m : Meaning) : Verdict :=
  let r := s.frame c f
  match staticTrap r b with
  | some t => .trap t
  | none =>
    match waveBar r b with
    | some x => .trap (slotTrap r.issue.pc x 15 0 0)
    | none =>
      let guards := b.slots.filterMap fun x => if x.guard = 0 then none else some (rP x.guard)
      if busyVar r guards then .stall false
      else if busyArmed r guards then .bubble
      else
        let iss := b.slots.filter (slotIssues r b.lvl)
        let regs := usedRegs r b.slots iss
        if busyVar r regs then .stall false
        else if busyArmed r regs then .bubble
        else
          let sem : Option (Except TrapInfo Bool) := iss.findSome? fun x =>
            (semwOf x.ins).map fun w => semwHold s (ctxOf s c f b x) w.1 w.2.toNat
          match sem, holdOf s c f b iss with
          | some (.error t), _ => .trap t
          | _, some w => .stall w
          | some (.ok true), none => .stall true
          | _, none => judgeClear s c f b iss m

/-- The first condition due at the boundary of a bundle, after the causes of its own issue (R320): what the bundle meets,
and at a drain point all that has not been taken (R78, R104). -/
def boundaryTrap (s : State) (c : CubeId) (f : FrameId) (b : BundleIn) (v : Verdict) : Option TrapInfo :=
  let r := s.frame c f
  let iss := b.slots.filter (slotIssues r b.lvl)
  let here := b.dp && !r.priv.lvl && r.fl.land.isEmpty && drained s c f
  let due := fun (clear : Bool) => dueHere r b iss clear <|> (if here then r.fl.due.head?.map (·.info) else none)
  let ceil := fun (clear : Bool) => semNamed s c f iss clear <|> (if here then semTrap s c f ⟨r.issue.pc, 0, 15, 0⟩ else none)
  match v with
  | .go _ | .arrive .. => firstDue s c f (due true) (ceil true)
  | .stall true => firstDue s c f (due false) (ceil false)
  | _ => afterTrap s c f

/-! The commit. -/

/-- The control slots' conflicts (R120): what takes effect, and whether `BRCOL` is set. DEDUCED, assumption 21. -/
def resolve (l : List (SlotIns × SlotEff)) : List (SlotIns × SlotEff) × Bool :=
  let tk := l.filter fun x => x.2.taken.isSome
  if l.any fun x => x.2.halts then (l.filter fun x => x.2.taken.isNone, false)
  else if 2 ≤ tk.length then (l.filter fun x => !(x.1.slot = .brb), true)
  else (l, false)

/-- Scratchpad stores act after the engine operations of their own bundle have been queued, which may see them or not
(R99). -/
def storesLast (r : Frame) (l : List (SlotIns × SlotEff)) : List (SlotIns × SlotEff) :=
  let st := fun (x : SlotIns × SlotEff) => (storeSrc r x.1.ins).isSome
  l.filter (fun x => !st x) ++ l.filter st

/-- Every pending fixed-latency result of a register is armed (R124). -/
def armAll (r : Frame) : Frame :=
  { r with fl := { r.fl with land := r.fl.land.map fun l => if l.file < 5 then { l with arm := true } else l } }

/-- A bundle issued under the debugger's STEP counts (R401). -/
def stepDown : DbgRun → DbgRun
  | .step n => .step (n - 1)
  | d => d

/-- The bundle's joined effects on the frame: `CTAINT`, where the count of an `lset` joins what a `ret` sets (DEDUCED,
assumption 91), flags, links, sticky bits, counts and the next PC (R5, R93, R94,
R102, R109, R120, R124, R143, R144, R325). -/
def finish (r : Frame) (b : BundleIn) (l : List (SlotIns × SlotEff)) (brcol : Bool) (guards : Taint) (ignored : Bool) : Frame :=
  let ct0 := match l.findSome? (·.2.ctSet) with
    | some t => t
    | none => if l.any (·.2.ctClr) then 0 else r.taint.ct
  let ct := l.foldl (fun u x => u ||| x.2.ctAdd) (ct0 ||| guards)
  let r := { r with
    taint := { r.taint with ct := ct }
    ctl := r.ctl.orBrcol brcol
    sync := { r.sync with df := r.sync.df &&& ~~~b.wait } }
  let r := l.foldl (fun r x => match x.2.link with
    | some g => r.addLanding (mkLanding r 2 g.toNat 1 (b.next.setWidth 2048) ct)
    | none => r) r
  let target := l.findSome? (·.2.taken)
  let r := if target.isSome then armAll r else r
  let up := fun (n : Nat) => if r.priv.lvl then n else n + 1
  { r with issue := { r.issue with
      pc := target.getD b.next
      from_ := if target.isSome then r.issue.pc else 0
      seq := target.isNone
      nb := r.issue.nb + 1
      nid := r.issue.nid + 1
      halted := r.issue.halted || (l.any (·.2.halts) && !r.priv.lvl)
      yielded := if r.priv.lvl then r.issue.yielded else none
      barred := false
      lflags := 0
      dbgCode := none
      dbg := stepDown r.issue.dbg
      preempt := r.issue.preempt.map fun (n, g) => (up n, if ignored then up g else g) } }

/-- A bundle issues (R118 to R120): slots in order, so that of a `loop` and a `wcfg`, or two `wcfg`, the one in BRB acts
last (R150), then what they join, then `rfe` and `halt` at level S; the trap of a `sys` falls due before the next bundle
(R273, R320). DESIGN CHOICE, assumption 90. -/
def commit (s : State) (c : CubeId) (f : FrameId) (b : BundleIn) (effs : List (SlotIns × SlotEff)) : State :=
  let r0 := s.frame c f
  let guards := b.slots.foldl (fun u x => u ||| r0.taint.pred x.guard) 0
  let ignored := b.dp && !r0.fl.land.isEmpty
  let (l, brcol) := resolve effs
  let s := (storesLast r0 l).foldl (fun s x => x.2.act s) s
  let s := s.modFrame c f fun r => finish r b l brcol guards ignored
  let s := s.modCube c fun q => { q with stallSince := none }
  match l.findSome? (·.2.sys) with
  | some code =>
    let slot := match l.find? (·.2.sys.isSome) with | some x => (x.1.slot.code, x.1.raw) | none => (15, 0)
    let t : TrapInfo := ⟨16, slot.1, false, true, r0.issue.pc, slot.2, w64 (code.toNat + 1 <<< 16), b.next⟩
    s.modFrame c f fun r => { r with fl := { r.fl with traps := r.fl.traps ++ [t] } }
  | none =>
    if l.any (·.2.rfe) then returnTrap s c f
    else if r0.priv.lvl ∧ l.any (·.2.halts) then haltS s c f
    else s

/-- A bubble: an empty bundle that counts (R124). -/
def bubbleAt (s : State) (c : CubeId) (f : FrameId) : State :=
  s.modFrame c f fun r =>
    let up := fun (n : Nat) => if r.priv.lvl then n else n + 1
    { r with issue := { r.issue with
      nb := r.issue.nb + 1, lflags := 0, dbg := stepDown r.issue.dbg
      preempt := r.issue.preempt.map fun (n, g) => (up n, g) } }

/-- A `bar` takes its phase and arrives (R106, R220). -/
def barArrive (s : State) (c : CubeId) (f : FrameId) (k : BarKind) (bid : BitVec 4) (info : OpInfo) : State :=
  let r := s.frame c f
  match r.task with
  | none => s
  | some t =>
    let i := barIdx k bid.toNat
    let ph := r.sync.phase.toList.getD i 0
    let m := (taskSrank r, t.rank)
    let s := arriveAll (takePhase s t.part t.launch t.gang k bid.toNat ph m) c f info (16 * r.issue.nid + info.slot) k bid.toNat ph
    s.modFrame c f fun r => { r with
      sync := { r.sync with
        phase := r.sync.phase.set (i % 32) (ph + 1) (Nat.mod_lt _ (by decide))
        stalled := r.sync.stalled.set (i % 32) (some ph) (Nat.mod_lt _ (by decide)) }
      issue := { r.issue with barred := true } }

/-! Switches (R28). -/

/-- A bundle's slots and header as the core judges them; the first slot that holds no instruction is an illegal
encoding (R113, R138). DEDUCED, assumption 19. -/
def bundleIn (pc : Word) (b : Bundle) (next : Word) : Except TrapInfo BundleIn :=
  match decodeSlots b with
  | .ok l => .ok ⟨b.dp, b.waitMask, b.lvl, decide (fld b.hdr 12 4 ≠ 0), l, next⟩
  | .error (slot, raw) => .error ⟨2, slot.code, false, false, pc, raw, 0, 0⟩

/-- Whether the bundle at the PC of a frame would issue, or be taken by a trap, and not stall; results that have arrived
have landed. DEDUCED, assumption 79. -/
def wouldIssue (m : Meaning) (s : State) (c : CubeId) (f : FrameId) : Bool :=
  let s := landDue (s.modFrame c f landArrived) c f
  if (afterTrap s c f).isSome then true
  else
    match fetchAt s c f with
    | .error _ => true
    | .ok x =>
      match bundleIn (s.frame c f).issue.pc x.b x.next with
      | .error _ => true
      | .ok b => (match judge s c f b m with
          | .stall w => (boundaryTrap s c f b (.stall w)).isSome
          | _ => true)

/-- Whether a resident is ready to issue when the core turns to it; one switched out by force as its block will load
(R28). -/
def ready (m : Meaning) (s : State) (c : CubeId) (f : FrameId) : Bool :=
  let r := s.frame c f
  r.task.isSome && !r.issue.halted && !r.issue.stopped && !gangHolds s r
    && !r.issue.dbg.held
    && (if r.issue.swapped then (match loadFrame s c f with | some s' => wouldIssue m s' c f | none => true)
        else wouldIssue m s c f)

/-- What tells whether a resident is ready: `ready` of the bundle's meanings, or, where one slot stands alone and no core
turns, that none is (assumption 3). -/
abbrev Readiness := State → CubeId → FrameId → Bool

/-- The core turns to the other resident; one that was switched by force is loaded from its block (R28). -/
def switchCore (s : State) (c : CubeId) : State :=
  let f := otherF (s.cube c).running
  let s := s.modCube c fun q => { q with running := f, runSince := s.now, stallSince := none }
  let s := s.modFrame c f fun r => { r with issue := { r.issue with slice := none } }
  if (s.frame c f).issue.swapped then
    let base := ctxBase s (s.frame c f).priv.ctxptr
    match loadFrame s c f with
    | some s' => askLeave s' c f base
    | none => handlerFault s c f 0 0
  else s

/-- RESIDENT_SWITCH: at a drain point, to a ready resident, when a switch is due: a yield, a stall of 512 cycles, or a
time slice (R28, R154). The bundle's own wish to yield is judged by the caller. -/
def residentSwitchRun (m : Meaning) (s : State) (c : CubeId) : State :=
  let q := s.cube c
  let f := q.running
  let r := s.frame c f
  let stalled : Bool := match q.stallSince with | some t => decide (512 ≤ s.now - t) | none => false
  let due : Bool := stalled || r.issue.slice.isSome
  if due ∧ !r.priv.lvl ∧ !r.issue.dbg.held ∧ ready m s c (otherF f) ∧ atDrainPoint s c f ∧ (drainTrap s c f).isNone then
    switchCore (s.modFrame c f fun r => { r with issue := { r.issue with slice := none } }) c
  else s

/-- STALL_SWITCH_TIMEOUT: the same for a stall of 512 cycles alone (R28). -/
def stallSwitchRun (m : Meaning) (s : State) (c : CubeId) : State :=
  match (s.cube c).stallSince with
  | some t => if 512 ≤ s.now - t then residentSwitchRun m s c else s
  | none => s

/-- TIME_SLICE_EXPIRY: after 1 ms a switch falls due and its count of bundles starts (R28, R31). -/
def sliceExpiryRun (s : State) (c : CubeId) : State :=
  let q := s.cube c
  let f := q.running
  let r := s.frame c f
  if usCycles 1000 ≤ s.now - q.runSince ∧ r.task.isSome ∧ r.issue.slice.isNone then
    s.setFrame c f { r with issue := { r.issue with slice := some 0 } }
  else s

/-- Whether a forced switch falls due before the next bundle: `DPLIMIT` bundles have issued since the slice ran out, with
the other resident ready (R28, R31). -/
def forcedDue (rdy : Readiness) (s : State) (c : CubeId) (f : FrameId) : Bool :=
  let r := s.frame c f
  match r.issue.slice with
  | some n => decide ((s.cube c).ctl.dplimit.toNat ≤ n) && !r.priv.lvl && decide (f = (s.cube c).running) && rdy s c (otherF f)
  | none => false

/-- The forced switch: the frame is quiesced and saved with REASON 2 (R28). -/
def forcedSwitch (s : State) (c : CubeId) (f : FrameId) : State :=
  let s := saveFrame (quiesce s c f) c f 2
  switchCore (retime (s.modFrame c f fun r => { r with issue := { r.issue with swapped := true, slice := none } }) c) c

/-- FORCED_SWITCH, where it is due and no trap is. -/
def forcedSwitchRun (m : Meaning) (s : State) (c : CubeId) : State :=
  let f := (s.cube c).running
  if forcedDue (ready m) s c f ∧ !(s.frame c f).issue.dbg.held ∧ (afterTrap s c f).isNone then forcedSwitch s c f else s

/-! At a drain point (R30, R34, R36, R320). -/

/-- Withdrawals and retirements that have not reached a frame. -/
def withdrawalDue (q : Cube) (r : Frame) : Bool :=
  r.ctl.layers &&& q.fab.failing ≠ 0 || q.fab.banks.any fun b => !r.banks.contains b

/-- Whether a buffer overlaps a layer or a bank that leaves service (R36). -/
def bufGone (t : Task) (layers : BitVec 8) (banks : List Nat) (b : Buf) : Bool :=
  let a := b.base.toNat
  (List.range (b.nl + 1)).any fun i =>
    let z := spLayer a + i
    layers.getLsbD z ||
    (let o := t.baseOf z (spFace a) + spOff a
     (List.range ((o + b.len - 1) / (1 <<< 20) + 1 - o / (1 <<< 20))).any fun j =>
       banks.contains (z * 256 + spFace a * 64 + o / (1 <<< 20) + j))

/-- Layers that no frame still has in service leave service for good (R36, R376). -/
def settleWithdrawn (q : Cube) : Cube :=
  let held := q.frames.foldl (fun u r => u ||| r.ctl.layers) 0
  let gone := q.fab.failing &&& ~~~held
  { q with
    fab := { q.fab with failing := q.fab.failing &&& ~~~gone, busBad := q.fab.busBad &&& ~~~gone }
    pow := Vector.ofFn fun z => if gone.getLsbD z.val then { q.pow[z] with st := .withdrawn } else q.pow[z] }

/-- Buffers that overlap layers or banks out of service enter LOST (R36, R74). -/
def loseBufs (t : Task) (gone : BitVec 8) (banks : List Nat) (r : Frame) : Frame :=
  let lost := fun (b : Option Buf) => b.map fun b => if bufGone t gone banks b then { b with st := .lost, fill := 0, rd := 0 } else b
  { r with bufs := r.bufs.map lost }

/-- LAYER_WITHDRAWAL takes effect for a task at its drain point (R36). -/
def withdraw (s : State) (c : CubeId) (f : FrameId) : State :=
  let q := s.cube c
  let r := s.frame c f
  match r.task with
  | none => s
  | some t =>
    let gone := r.ctl.layers &&& q.fab.failing
    let r := loseBufs t gone q.fab.banks { r with
      ctl := { r.ctl with layers := r.ctl.layers &&& ~~~q.fab.failing }, banks := q.fab.banks }
    (s.setFrame c f r).modCube c settleWithdrawn

/-- Whether a frame's gang or span has failed (R34). -/
def gangFailed (s : State) (r : Frame) : Bool :=
  match r.task with
  | some t =>
    (match findRec s t.part t.launch with
     | some k => (match k.gang t.gang with | some g => g.err.isSome | none => false) || (k.err.isSome && decide (taskSsize r ≠ 0))
     | none => false)
  | none => false

/-- What is taken at a drain point before its bundle issues, if anything: a failed gang's stop, a withdrawal, traps, a
pre-emption, an interrupt, a switch (R28, R30, R34, R36, R154, R320). -/
def atDrain (s : State) (c : CubeId) (f : FrameId) (b : BundleIn) (rdy : Readiness) : Option State :=
  let r := s.frame c f
  let q := s.cube c
  if r.priv.lvl then none
  else if gangFailed s r then some (s.setFrame c f { r with issue := { r.issue with stopped := true } })
  else if withdrawalDue q r then some (withdraw s c f)
  else
    match drainTrap s c f with
    | some t => some (takeDrainTrap s c f t)
    | none =>
      if r.issue.preempt.isSome then some (savePreempted s c f)
      else if r.issue.irq then some (s.setFrame c f { r with issue := { r.issue with irq := false } })
      else
        let wishes := r.issue.yielded ≠ some r.issue.pc && b.slots.any fun x => isYield x.ins && slotIssues r b.lvl x
        let stalled : Bool := match q.stallSince with | some t => decide (512 ≤ s.now - t) | none => false
        if (wishes ∨ stalled ∨ r.issue.slice.isSome) ∧ rdy s c (otherF f) then
          some (switchCore (s.modFrame c f fun r => { r with issue := { r.issue with
            yielded := if wishes then some r.issue.pc else r.issue.yielded, slice := none } }) c)
        else none

/-- The code of a `dbg` that stops the task before its bundle commits (R276); once reported, the bundle issues.
DEDUCED, assumption 44. -/
def dbgStop (s : State) (c : CubeId) (f : FrameId) (l : List (SlotIns × SlotEff)) : Option (BitVec 16) :=
  let q := s.cube c
  if q.dbgAttached ∧ q.dbgEvents ∧ (s.frame c f).issue.dbgCode.isNone then
    l.findSome? fun x => dbgOf x.1.ins
  else none

/-- A bundle issued while a time-slice switch is due counts towards the forced switch, if the other resident is ready
(R28); at level S nothing counts (R310). -/
def countSlice (s : State) (c : CubeId) (f : FrameId) (rdy : Readiness) (s' : State) : State :=
  let r := s.frame c f
  match r.issue.slice with
  | none => s'
  | some n =>
    let k := if r.priv.lvl then n else if rdy s c (otherF f) then n + 1 else 0
    s'.modFrame c f fun r => { r with issue := { r.issue with slice := some k } }

/-- One attempt to issue a bundle in a frame, whose due results have landed: the state after it. -/
def attempt (s : State) (c : CubeId) (f : FrameId) (b : BundleIn) (m : Meaning) (rdy : Readiness) : State :=
  let r := s.frame c f
  match judge s c f b m with
  | .trap t => enterTrap s c f t
  | v =>
    match boundaryTrap s c f b v with
    | some t => enterTrap (s.modFrame c f fun r => dropDue r t) c f t
    | none =>
      match (if b.dp && r.fl.land.isEmpty && drained s c f then atDrain s c f b rdy else none) with
      | some s' => s'
      | none =>
        if forcedDue rdy s c f then forcedSwitch s c f
        else
          match v with
          | .bubble => countSlice s c f rdy (bubbleAt s c f)
          | .stall w =>
            if w then s.modCube c fun q => { q with stallSince := q.stallSince <|> some s.now } else s
          | .arrive k bid info => barArrive s c f k bid info
          | .go effs =>
            (match dbgStop s c f effs with
             | some code => s.modFrame c f fun r => { r with issue := { r.issue with dbg := .halted, dbgCode := some code } }
             | none => countSlice s c f rdy (commit s c f b effs))
          | .trap _ => s

/-- A frame may issue: it holds a task that runs, on a cube whose core clock runs (R383, R401). -/
def mayIssue (s : State) (c : CubeId) (f : FrameId) : Bool :=
  let r := s.frame c f
  r.task.isSome && !r.issue.halted && !r.issue.stopped && !r.issue.swapped && !gangHolds s r &&
    (s.cube c).camp.trip.isNone && !(s.cube c).fab.coreOff &&
    !r.issue.dbg.held

/-! One slot alone. -/

/-- The field of a slot instruction with its slot, unguarded, F and L clear. -/
def soloSlot (i : Instr) : Option SlotIns :=
  match encodeCtl i with
  | some w => some ⟨.bra, w.setWidth 56, 0, false, false, i⟩
  | none =>
    match encodeXY i with
    | some (.x, w) => some ⟨.x, w.setWidth 56, 0, false, false, i⟩
    | some (.y, w) => some ⟨.y, w.setWidth 56, 0, false, false, i⟩
    | none =>
      match encodeA i with
      | some w => some ⟨.a, w.setWidth 56, 0, false, false, i⟩
      | none =>
        match encodeV i with
        | some w => some ⟨.va, w.setWidth 56, 0, false, false, i⟩
        | none =>
          match encodeLS i with
          | some w => some ⟨.ls, w.setWidth 56, 0, false, false, i⟩
          | none => (encodeCC i).map fun w => ⟨.cc, w.setWidth 56, 0, false, false, i⟩

/-- The bundle that holds one slot instruction alone, its header zero. DESIGN CHOICE, assumption 3. -/
def soloBundle (s : State) (i : Instr) : BundleIn :=
  let pc := s.cf.issue.pc
  let next := match fetchAt s s.cur s.curF with | .ok x => x.next | .error _ => pc + 2
  ⟨false, 0, 0, false, (soloSlot i).toList, next⟩

/-- A slot instruction as a bundle of its own, issued by the running frame of the current cube. An ill-formed one is an
illegal encoding (R138). -/
def solo (s : State) (i : Instr) (m : Ctx → State → SlotRes) : Host.Outcome State Fault Refusal :=
  if !s.teasel.power then .fault .unpowered
  else if !mayIssue s s.cur s.curF then .next s
  else if i.wf then .next (attempt (landDue s s.cur s.curF) s.cur s.curF (soloBundle s i) (fun _ => m) fun _ _ _ => false)
  else .next (enterTrap s s.cur s.curF (plainTrap 2 s.cf.issue.pc 0 0 false false))

end Sys2Proof.Machine
end

