-- ==== Sys2Proof/Machine/Address.lean ====
section
/-! DEFINITION. The address slot (R171, R172). -/

namespace Sys2Proof.Machine

/-- A result of latency 1 in the A file (R121, R171). -/
def aland (k : Ctx) (d : Reg) (v : Word) (t : Taint) : SlotRes := .ok (landW k .a d 1 v t)

def slotAadd (d s1 s2 : Reg) (k : Ctx) (_ : State) : SlotRes :=
  aland k d (k.rd .a s1 + k.rd .a s2) (k.tnt .a s1 ||| k.tnt .a s2)
def execAadd (d s1 s2 : Reg) (s : State) : Host.Outcome State Fault Refusal := solo s (.aadd d s1 s2) (slotAadd d s1 s2)
def slotAaddi (d s1 : Reg) (imm : BitVec 17) (k : Ctx) (_ : State) : SlotRes :=
  aland k d (k.rd .a s1 + imm.signExtend 64) (k.tnt .a s1)
def execAaddi (d s1 : Reg) (imm : BitVec 17) (s : State) : Host.Outcome State Fault Refusal :=
  solo s (.aaddi d s1 imm) (slotAaddi d s1 imm)
def slotAsub (d s1 s2 : Reg) (k : Ctx) (_ : State) : SlotRes :=
  aland k d (k.rd .a s1 - k.rd .a s2) (k.tnt .a s1 ||| k.tnt .a s2)
def execAsub (d s1 s2 : Reg) (s : State) : Host.Outcome State Fault Refusal := solo s (.asub d s1 s2) (slotAsub d s1 s2)
def slotAidx (d s1 s2 : Reg) (sh : BitVec 3) (k : Ctx) (_ : State) : SlotRes :=
  aland k d (k.rd .a s1 + k.rd .a s2 <<< sh.toNat) (k.tnt .a s1 ||| k.tnt .a s2)
def execAidx (d s1 s2 : Reg) (sh : BitVec 3) (s : State) : Host.Outcome State Fault Refusal :=
  solo s (.aidx d s1 s2 sh) (slotAidx d s1 s2 sh)
def slotAmov (d s1 : Reg) (k : Ctx) (_ : State) : SlotRes := aland k d (k.rd .a s1) (k.tnt .a s1)
def execAmov (d s1 : Reg) (s : State) : Host.Outcome State Fault Refusal := solo s (.amov d s1) (slotAmov d s1)
def slotAmovi (d : Reg) (imm : BitVec 22) (k : Ctx) (_ : State) : SlotRes := aland k d (imm.signExtend 64) 0
def execAmovi (d : Reg) (imm : BitVec 22) (s : State) : Host.Outcome State Fault Refusal :=
  solo s (.amovi d imm) (slotAmovi d imm)
def slotAcmp (c : Cnd) (pd : Pred) (s1 s2 : Reg) (k : Ctx) (_ : State) : SlotRes :=
  .ok (landP k pd 1 (icmpHolds c 64 (k.rd .a s1).toNat (k.rd .a s2).toNat) (k.tnt .a s1 ||| k.tnt .a s2))
def execAcmp (c : Cnd) (pd : Pred) (s1 s2 : Reg) (s : State) : Host.Outcome State Fault Refusal :=
  solo s (.acmp c pd s1 s2) (slotAcmp c pd s1 s2)
/-- R172: an unsigned compare with the ring's length. DEDUCED, assumption 47. -/
def amodOf (a b c : Word) : Word := let t := a + b; if c ≤ t then t - c else t
def slotAmod (d s1 s2 s3 : Reg) (k : Ctx) (_ : State) : SlotRes :=
  aland k d (amodOf (k.rd .a s1) (k.rd .a s2) (k.rd .a s3)) (k.tnt .a s1 ||| k.tnt .a s2 ||| k.tnt .a s3)
def execAmod (d s1 s2 s3 : Reg) (s : State) : Host.Outcome State Fault Refusal :=
  solo s (.amod d s1 s2 s3) (slotAmod d s1 s2 s3)

end Sys2Proof.Machine
end

