-- ==== Sys2Proof/Machine/LoadStore.lean ====
section
/-! DEFINITION. The load/store slot: scratchpad loads and stores, gathers and scatters, global accesses and atomics,
`drain`, the taint instructions, spill and reload (R193 to R212). -/

namespace Sys2Proof.Machine

/-! Scratchpad accesses (R196 to R200). -/

/-- The first poisoned or failing line of n face bytes at a scratchpad address, as an address (R36, R78). -/
def faceBad (s : State) (k : Ctx) (a n : Nat) : Option Nat :=
  let q := s.cube k.c
  let key := k.r.key a
  ((List.range (ceilDiv (a % 64 + n) 64)).find? fun i =>
    let ln := key / 64 * 64 + 64 * i
    facePoisoned q ln || faceFails q ln).map fun i => a / 64 * 64 + 64 * i

/-- A scratchpad result of latency 14; a bad line is taken at its landing (R78, R121, R198). -/
def landLoad (k : Ctx) (file : FileNo) (reg : Nat) (v : VReg) (t : Taint) (bad : Option Nat) : SlotEff :=
  onFrame k fun r => r.addLanding { mkLanding k.r file reg 14 v t with poison := bad.map fun a => (a, k.info) }

/-- A slot that reaches the faces of some layers wakes them (R376). -/
def touching (k : Ctx) (l : List Nat) (e : SlotEff) : SlotEff := { e with act := fun s => wakeLayers (e.act s) k.c l }

/-- An access of n bytes at an address: alignment, layer, address, buffer state (R68, R74, R194). -/
def Ctx.spAccess (k : Ctx) (ea : Word) (n : Nat) (write : Bool) : Except TrapInfo Nat := do
  k.aligned ea (min n 64)
  let a ← k.spCheck ea n 0 write
  k.bufCheck (if write then .store else .load) [spRun a n] a
  .ok a

def faceNat (s : State) (k : Ctx) (a n : Nat) : Nat := leVal (faceBytes (s.cube k.c) (k.r.key a) n)

/-- The aligned 4-byte words of the faces under n bytes, with their present values (R99). -/
def oldWords (q : Cube) (key n : Nat) : List (Nat × BitVec 32) :=
  (List.range ((key + n - 1) / 4 + 1 - key / 4)).map fun i =>
    let w := key / 4 + i
    (w, BitVec.ofNat 32 (leVal (faceBytes q (4 * w) 4)))
/-- The engine operations of a frame that have not completed see the old words or the new ones (R99).
DEDUCED, assumption 9. -/
def noteOld (x : Flight) (l : List (Nat × BitVec 32)) : Flight :=
  { x with
    cubeQ := x.cubeQ.map fun e => { e with olds := e.olds ++ l }
    cubeA := x.cubeA.map fun e => { e with olds := e.olds ++ l }
    copyQ := x.copyQ.map fun e => { e with olds := e.olds ++ l }
    copyA := x.copyA.map fun e => { e with olds := e.olds ++ l }
    msgs := x.msgs.map fun e => { e with olds := e.olds ++ l } }
/-- A run of bytes written to the faces; a transfer that a failing bank or bus cannot complete poisons its line (R36, R77). -/
def faceStore (k : Ctx) (a : Nat) (b : List Byte) (s : State) : State :=
  let key := k.r.key a
  let lost := (List.range (ceilDiv (key % 64 + b.length) 64)).filter fun i => faceFails (s.cube k.c) (key / 64 * 64 + 64 * i)
  s.modCube k.c fun q => lost.foldl (fun q i => setFacePoison q (key / 64 * 64 + 64 * i) true) (faceWrite q key b)
/-- A store's bytes are written at the end of its bundle, and engines may still see the words that stood under it (R99,
R199). -/
def storeFaces (k : Ctx) (l : List (Nat × List Byte)) (s : State) : State :=
  let olds := l.flatMap fun x => oldWords (s.cube k.c) (k.r.key x.1) x.2.length
  (l.foldl (fun s x => faceStore k x.1 x.2 s) s).modFrame k.c k.f fun r => { r with fl := noteOld r.fl olds }
def storeFace (k : Ctx) (a : Nat) (b : List Byte) (s : State) : State := storeFaces k [(a, b)] s

def slotLd (f : File3) (t : Ty) (d b : Reg) (imm : BitVec 17) (k : Ctx) (s : State) : SlotRes := do
  let n := t.width / 8
  let a ← k.spAccess (eaOf (k.rd .a b) imm) n false
  .ok (touching k [spLayer a] (landLoad k (no3 f) d.toNat (loadValue t (faceNat s k a n)) (k.tnt .a b) (faceBad s k a n)))
def execLd (f : File3) (t : Ty) (d b : Reg) (imm : BitVec 17) (s : State) : Host.Outcome State Fault Refusal :=
  solo s (.ld f t d b imm) (slotLd f t d b imm)

def slotSt (f : File3) (t : Ty) (d b : Reg) (imm : BitVec 17) (k : Ctx) (_ : State) : SlotRes := do
  let n := t.width / 8
  let a ← k.spAccess (eaOf (k.rd .a b) imm) n true
  .ok (touching k [spLayer a] { act := storeFace k a (leBytes n (k.rd f d).toNat) })
def execSt (f : File3) (t : Ty) (d b : Reg) (imm : BitVec 17) (s : State) : Host.Outcome State Fault Refusal :=
  solo s (.st f t d b imm) (slotSt f t d b imm)

def slotVld (v : VSpec) (b : Reg) (imm : BitVec 20) (k : Ctx) (s : State) : SlotRes := do
  let a ← k.spAccess (eaOf (k.rd .a b) imm) 256 false
  .ok (touching k [spLayer a] (landLoad k 3 (physV k.r.ctl v) (BitVec.ofNat 2048 (faceNat s k a 256)) (k.tnt .a b) (faceBad s k a 256)))
def execVld (v : VSpec) (b : Reg) (imm : BitVec 20) (s : State) : Host.Outcome State Fault Refusal :=
  solo s (.vld v b imm) (slotVld v b imm)

def slotVst (v : VSpec) (b : Reg) (imm : BitVec 20) (k : Ctx) (_ : State) : SlotRes := do
  let a ← k.spAccess (eaOf (k.rd .a b) imm) 256 true
  .ok (touching k [spLayer a] { act := storeFace k a (leBytes 256 (k.v v).toNat) })
def execVst (v : VSpec) (b : Reg) (imm : BitVec 20) (s : State) : Host.Outcome State Fault Refusal :=
  solo s (.vst v b imm) (slotVst v b imm)

/-- The lane addresses of a gather or scatter, with the upper half of the base (R200). -/
def laneAdrs (k : Ctx) (t : Ty) (scl : BitVec 2) (ix : VSpec) (b : Reg) : List Word :=
  let base := k.rd .a b
  (List.range t.lanes).map fun i =>
    let lo := (base.toNat + elem (k.v ix).toNat t.width i <<< scl.toNat) % (1 <<< 32)
    w64 (bits base.toNat 32 32 <<< 32 + lo)

/-- The physical bank and line of a lane (R71). -/
def laneBank (r : Frame) (a : Nat) : Nat × Nat :=
  let key := r.key a
  (bankKey (spLayer a) (spFace a) (bits key 0 26), key / 64)
/-- The first lane whose bank an earlier lane touches in another line, with that lane (R71). DEDUCED, assumption 40. -/
def bankClash (l : List (Nat × Nat)) : Option (Nat × Nat) :=
  l.zipIdx.findSome? fun ((b, ln), i) =>
    ((l.take i).zipIdx.find? fun ((b', _), _) => b' = b).bind fun ((_, ln'), j) => if ln' = ln then none else some (j, i)

/-- The checks of every lane, one cause after another: alignment, layer, address, bank conflict, buffers (R194,
R200). -/
def gatherCheck (k : Ctx) (t : Ty) (l : List Word) (write : Bool) : Except TrapInfo (List Nat) :=
  let n := t.width / 8
  let lanes := l.map fun ea => k.spCheck ea n 0 write
  let errs := lanes.filterMap fun x => match x with | .error e => some e | .ok _ => none
  let adrs := l.map fun ea => bits ea.toNat 0 32
  match l.find? fun ea => decide (ea.toNat % n ≠ 0) with
  | some ea => .error (k.trap 14 ea)
  | none =>
    match (errs.find? (·.cause = 13)) <|> errs.head? with
    | some e => .error e
    | none =>
      let banks := adrs.map (laneBank k.r)
      match bankClash banks with
      | some (j, i) =>
        let bk := (banks.getD i (0, 0)).1
        .error (k.trap 6 (w64 (j + i <<< 8 + bk % 64 <<< 16 + bk / 64 % 4 <<< 22 + bk / 256 <<< 24)))
      | none =>
        let e : BufEvent := if write then .store else .load
        match adrs.findSome? fun a => (bufFault k.r e (touched k.r [spRun a n])).map fun i => (i, a) with
        | some (i, a) => .error (k.trap 7 (bufInfo k.r i) (w64 a))
        | none => .ok adrs

def slotVgath (t : Ty) (scl : BitVec 2) (ix : VSpec) (b : Reg) (v : VSpec) (k : Ctx) (s : State) : SlotRes := do
  let l ← gatherCheck k t (laneAdrs k t scl ix b) false
  let n := t.width / 8
  .ok (touching k (l.map spLayer) (landLoad k 3 (physV k.r.ctl v) (vOf t.width (l.map fun a => faceNat s k a n))
    (k.tnt .a b ||| k.vt ix) (l.findSome? fun a => faceBad s k a n)))
def execVgath (t : Ty) (scl : BitVec 2) (ix : VSpec) (b : Reg) (v : VSpec) (s : State) :
    Host.Outcome State Fault Refusal :=
  solo s (.vgath t scl ix b v) (slotVgath t scl ix b v)

/-- Lanes are stored in rising order: of two that name one element, the higher stays (R200). Each lane is a write of its own,
and lanes that fill a line together leave its poison; an engine sees the word before the instruction or the one after it
(R99). DESIGN CHOICE, assumption 86. -/
def slotVscat (t : Ty) (scl : BitVec 2) (ix : VSpec) (b : Reg) (v : VSpec) (k : Ctx) (_ : State) : SlotRes := do
  let l ← gatherCheck k t (laneAdrs k t scl ix b) true
  let d := (k.v v).toNat
  .ok (touching k (l.map spLayer)
    { act := storeFaces k (l.zipIdx.map fun (a, i) => (a, leBytes (t.width / 8) (elem d t.width i))) })
def execVscat (t : Ty) (scl : BitVec 2) (ix : VSpec) (b : Reg) (v : VSpec) (s : State) :
    Host.Outcome State Fault Refusal :=
  solo s (.vscat t scl ix b v) (slotVscat t scl ix b v)

/-! Global accesses (R201 to R207). -/

/-- The number of the operation that a slot issues: the issue order of the task, by slot within a bundle. -/
def Ctx.opId (k : Ctx) : Nat := 16 * k.r.issue.nid + k.info.slot

/-- An entry joins the load/store queue; a tracked load takes its tag, and a destination becomes pending (R89, R122,
R125). -/
def queueLs (k : Ctx) (e : Option LsEnt) : SlotEff :=
  match e with
  | none => {}
  | some e =>
    onFrame k fun r =>
      let tracked := e.op.isLoad || e.op.isAtom
      let (tag, r) := if tracked then (fun (x : Nat × Frame) => (some x.1, x.2)) (takeTag r e.id) else (none, r)
      { r with fl := { r.fl with
        ls := r.fl.ls ++ [{ e with tag := tag }]
        var := r.fl.var ++ (e.op.dest.map (varOf e.id e.info tag)).toList } }

def slotGld (f : File3) (t : Ty) (d b : Reg) (imm : BitVec 17) (k : Ctx) (_ : State) : SlotRes := do
  k.globalCheck (eaOf (k.rd .a b) imm) (t.width / 8) 0 false
  .ok (queueLs k (mkLs k.opId k.info (k.wait (k.tnt .a b)) none (.gld f t d b imm) (k.rd .a b) 0 0 0 d.toNat))
def execGld (f : File3) (t : Ty) (d b : Reg) (imm : BitVec 17) (s : State) : Host.Outcome State Fault Refusal :=
  solo s (.gld f t d b imm) (slotGld f t d b imm)

def slotGst (f : File3) (t : Ty) (d b : Reg) (imm : BitVec 17) (k : Ctx) (_ : State) : SlotRes := do
  k.globalCheck (eaOf (k.rd .a b) imm) (t.width / 8) 0 true
  .ok (queueLs k (mkLs k.opId k.info (k.wait (k.tnt .a b ||| k.tnt f d)) none (.gst f t d b imm) (k.rd .a b) (k.rd f d) 0 0 0))
def execGst (f : File3) (t : Ty) (d b : Reg) (imm : BitVec 17) (s : State) : Host.Outcome State Fault Refusal :=
  solo s (.gst f t d b imm) (slotGst f t d b imm)

def slotGvld (v : VSpec) (b : Reg) (imm : BitVec 20) (k : Ctx) (_ : State) : SlotRes := do
  k.globalCheck (eaOf (k.rd .a b) imm) 64 0 false
  .ok (queueLs k (mkLs k.opId k.info (k.wait (k.tnt .a b)) none (.gvld v b imm) (k.rd .a b) 0 0 0 (physV k.r.ctl v)))
def execGvld (v : VSpec) (b : Reg) (imm : BitVec 20) (s : State) : Host.Outcome State Fault Refusal :=
  solo s (.gvld v b imm) (slotGvld v b imm)

def slotGvst (v : VSpec) (b : Reg) (imm : BitVec 20) (k : Ctx) (_ : State) : SlotRes := do
  k.globalCheck (eaOf (k.rd .a b) imm) 64 0 true
  .ok (queueLs k (mkLs k.opId k.info (k.wait (k.tnt .a b ||| k.vt v)) none (.gvst v b imm) (k.rd .a b) 0 0 (k.v v) 0))
def execGvst (v : VSpec) (b : Reg) (imm : BitVec 20) (s : State) : Host.Outcome State Fault Refusal :=
  solo s (.gvst v b imm) (slotGvst v b imm)

/-- No alignment is asked (R203). -/
def slotGpf (b : Reg) (imm : BitVec 20) (k : Ctx) (_ : State) : SlotRes := do
  k.globalCheck (eaOf (k.rd .a b) imm) 1 0 false
  .ok (queueLs k (mkLs k.opId k.info (k.wait (k.tnt .a b)) none (.gpf b imm) (k.rd .a b) 0 0 0 0))
def execGpf (b : Reg) (imm : BitVec 20) (s : State) : Host.Outcome State Fault Refusal := solo s (.gpf b imm) (slotGpf b imm)

/-- A tracked load whether or not it fetches (R205, R206). -/
def slotAtom (op : AtomOp) (sco : Scope) (fe : Bool) (sz : BitVec 2) (f : File3) (d b sr c : Reg) (k : Ctx) (_ : State) :
    SlotRes := do
  k.globalCheck (k.rd .a b) (1 <<< sz.toNat) 0 true
  let cas := decide (op = .cas)
  let t := k.tnt .a b ||| k.tnt f sr ||| (if cas then k.tnt f c else 0)
  .ok (queueLs k (mkLs k.opId k.info (k.wait t) none (.atom op sco fe sz f d b sr c) (k.rd .a b) (k.rd f sr)
    (if cas then k.rd f c else 0) 0 d.toNat))
def execAtom (op : AtomOp) (sco : Scope) (fe : Bool) (sz : BitVec 2) (f : File3) (d b sr c : Reg) (s : State) :
    Host.Outcome State Fault Refusal :=
  solo s (.atom op sco fe sz f d b sr c) (slotAtom op sco fe sz f d b sr c)

def slotDrain (q : DrainKind) (k : Ctx) (_ : State) : SlotRes :=
  .ok (queueLs k (mkLs k.opId k.info 0 none (.drain q) 0 0 0 0 0))
def execDrain (q : DrainKind) (s : State) : Host.Outcome State Fault Refusal := solo s (.drain q) (slotDrain q)

/-! Taint (R208 to R210). -/

/-- The physical registers of a range of a file (R117, R208). -/
def rangeOf (k : Ctx) (f : File5) (first last : BitVec 9) : List Nat :=
  (List.range (last.toNat + 1 - first.toNat)).map fun i =>
    let n := first.toNat + i
    match f with | .v => physV k.r.ctl (BitVec.ofNat 9 n) | _ => n
def slotTclr (f : File5) (first last : BitVec 9) (k : Ctx) (_ : State) : SlotRes :=
  .ok (onFrame k fun r => { r with taint := (rangeOf k f first last).foldl (fun t n => t.wr (no5 f) n 0) r.taint })
def execTclr (f : File5) (first last : BitVec 9) (s : State) : Host.Outcome State Fault Refusal :=
  solo s (.tclr f first last) (slotTclr f first last)
def slotTctl (_ : Ctx) (_ : State) : SlotRes := .ok { ctClr := true }
def execTctl (s : State) : Host.Outcome State Fault Refusal := solo s .tctl slotTctl

/-- The taint of a register, or `CTAINT`, as read at issue (R210). -/
def tgetValue (k : Ctx) (src : TgetSrc) : Taint :=
  match src with
  | .ctaint => k.r.taint.ct
  | .reg f n => k.r.taint.rdNo (no5 f) (match f with | .v => physV k.r.ctl n | _ => n.toNat)
def slotTget (d : Reg) (src : TgetSrc) (k : Ctx) (_ : State) : SlotRes :=
  .ok (landW k .x d 1 ((tgetValue k src).setWidth 64) 0)
def execTget (d : Reg) (src : TgetSrc) (s : State) : Host.Outcome State Fault Refusal := solo s (.tget d src) (slotTget d src)

/-! Spill and reload (R211, R212). -/

/-- Granules of a file's register. -/
def granules (f : File5) : Nat := match f with | .v => 32 | _ => 1
/-- The checks of R211: alignment of a V register, then the layer, then its bank (R37). DEDUCED, assumption 41. -/
def spillCheck (k : Ctx) (f : File5) (layer : BitVec 3) (gran : BitVec 8) : Except TrapInfo Unit :=
  let z := layer.toNat
  let a := z <<< 29 + 2 <<< 27 + spillOff k.f.val gran.toNat
  if granules f = 32 ∧ gran.toNat % 8 ≠ 0 then .error (k.trap 14 (w64 a))
  else if !layerIn k.r z then .error (k.trap 13 (w64 z))
  else if bankGone k.r z 2 (spillOff k.f.val 0) then
    .error (k.trap 13 (w64 (z + 1 <<< 8 + spillOff k.f.val 0 / (1 <<< 20) <<< 9 + 2 <<< 16)))
  else .ok ()
/-- The face key of the spilled bytes, for poison. -/
def spillFace (k : Ctx) (layer : BitVec 3) (gran : BitVec 8) : Nat :=
  faceKey layer.toNat 2 (spillOff k.f.val gran.toNat)
def spillLines (k : Ctx) (f : File5) (layer : BitVec 3) (gran : BitVec 8) : List Nat :=
  (List.range (ceilDiv (granules f) 8)).map fun i => spillFace k layer gran / 64 * 64 + 64 * i

/-- The register's number in the files of R322. -/
def spillReg (k : Ctx) (f : File5) (reg : BitVec 9) : Nat := match f with | .v => physV k.r.ctl reg | _ => reg.toNat

def slotSpt (f : File5) (reg : BitVec 9) (layer : BitVec 3) (gran : BitVec 8) (k : Ctx) (_ : State) : SlotRes := do
  spillCheck k f layer gran
  let n := spillReg k f reg
  let v := k.r.regs.rdNo (no5 f) n
  let t := k.r.taint.rdNo (no5 f) n
  let key := spillKey layer.toNat k.f.val gran.toNat
  let whole := decide (granules f = 32)
  .ok (touching k [layer.toNat] { act := fun s => s.modCube k.c fun q =>
    let q := (List.range (granules f)).foldl (fun q i =>
      { q with spill := fset 0 q.spill (key + i) (w64 (v >>> (64 * i))), shadow := fset 0 q.shadow (key + i) t }) q
    (spillLines k f layer gran).foldl (fun q ln =>
      if faceFails q ln then setFacePoison q ln true else if whole then setFacePoison q ln false else q) q })
def execSpt (f : File5) (reg : BitVec 9) (layer : BitVec 3) (gran : BitVec 8) (s : State) :
    Host.Outcome State Fault Refusal :=
  solo s (.spt f reg layer gran) (slotSpt f reg layer gran)

/-- The taint is the shadow of the first granule, cut at landing to what is then outstanding (R96). -/
def slotLdt (f : File5) (reg : BitVec 9) (layer : BitVec 3) (gran : BitVec 8) (k : Ctx) (s : State) : SlotRes := do
  spillCheck k f layer gran
  let q := s.cube k.c
  let key := spillKey layer.toNat k.f.val gran.toNat
  let raw := vOf 64 ((List.range (granules f)).map fun i => (fget 0 q.spill (key + i)).toNat)
  let v : VReg := match f with | .p => (if raw = 0 then 0 else 1) | _ => raw
  let bad := ((spillLines k f layer gran).find? fun ln => facePoisoned q ln || faceFails q ln).map fun ln =>
    layer.toNat <<< 29 + 2 <<< 27 + bits ln 0 26
  .ok (touching k [layer.toNat] (landLoad k (no5 f) (spillReg k f reg) v (fget 0 q.shadow key) bad))
def execLdt (f : File5) (reg : BitVec 9) (layer : BitVec 3) (gran : BitVec 8) (s : State) :
    Host.Outcome State Fault Refusal :=
  solo s (.ldt f reg layer gran) (slotLdt f reg layer gran)

end Sys2Proof.Machine
end

