-- ==== Sys2Proof/Machine/BufSem.lean ====
section
/-! DEFINITION. Declared buffers, semaphores and barriers (R213 to R221). -/

namespace Sys2Proof.Machine

/-! Declared buffers (R213 to R215). -/

/-- Buffer-state fault of a named buffer. -/
def Ctx.bufTrap (k : Ctx) (buf : BitVec 6) (adr : Nat) : TrapInfo := k.trap 7 (bufInfo k.r buf.toNat) (w64 adr)

/-- The 1 MiB banks, of the 64 of a face, that a range of a layer's face lies in (R12). -/
def banksUnder (t : Task) (z face off len : Nat) : List Nat :=
  let o := t.baseOf z face + off
  (List.range (min 63 ((o + len - 1) / (1 <<< 20)) + 1 - o / (1 <<< 20))).map fun j => o / (1 <<< 20) + j

/-- Why a declaration is refused, in the order of R213; `none` where it stands. -/
def bdeclFault (k : Ctx) (buf : BitVec 6) (base len : Word) (nl : BitVec 3) : Option TrapInfo :=
  let a := bits base.toNat 0 32
  let z0 := spLayer a
  let n := len.toNat
  let zs := (List.range (nl.toNat + 1)).map (z0 + ·)
  let here := zs.filter (· < 8)
  match here.find? fun z => !layerIn k.r z with
  | some z => some (k.trap 13 (w64 z))
  | none =>
    if !windowOk base ∨ !spForm a then some (k.trap 10 base (tinfo10 3 0 false) true)
    else
      let gone := match k.r.task with
        | some t =>
          if n = 0 then none
          else here.findSome? fun z => ((banksUnder t z (spFace a) (spOff a) n).find? fun b =>
            k.r.banks.contains (z * 256 + spFace a * 64 + b)).map fun b => (z, b)
        | none => none
      match gone with
      | some (z, b) => some (k.trap 13 (w64 (z + 1 <<< 8 + b <<< 9 + spFace a <<< 16)))
      | none =>
        let size := match k.r.task with | some t => t.sizeOf (spFace a) | none => 0
        if (k.r.buf buf.toNat).isSome ∨ n = 0 ∨ n % 64 ≠ 0 ∨ a % 64 ≠ 0 ∨ 7 < z0 + nl.toNat ∨ size < spOff a + n
            ∨ touched k.r (zs.map fun z => (z, spFace a, spOff a, n)) ≠ [] then some (k.bufTrap buf a)
        else none

def slotBdecl (buf : BitVec 6) (base len : Reg) (nl : BitVec 3) (k : Ctx) (_ : State) : SlotRes :=
  let b := k.rd .a base
  let l := k.rd .a len
  match bdeclFault k buf b l nl with
  | some t => .error t
  | none => .ok (onFrame k fun r => r.setBuf buf.toNat (some ⟨b.setWidth 32, l.toNat, nl.toNat, .empty, 0, 0, k.opId⟩))
def execBdecl (buf : BitVec 6) (base len : Reg) (nl : BitVec 3) (s : State) : Host.Outcome State Fault Refusal :=
  solo s (.bdecl buf base len nl) (slotBdecl buf base len nl)

/-- An event of R74 that names its buffer; an undeclared one faults (R214). DEDUCED, assumption 43. -/
def bufOp (k : Ctx) (e : BufEvent) (buf : BitVec 6) : SlotRes :=
  match k.r.buf buf.toNat with
  | none => .error (k.bufTrap buf 0)
  | some b =>
    if (bufRow e b).isNone then .error (k.bufTrap buf b.base.toNat)
    else .ok (onFrame k fun r => bufApply r e [buf.toNat])
def slotBstate (full : Bool) (buf : BitVec 6) (k : Ctx) (_ : State) : SlotRes := bufOp k (if full then .toFull else .toEmpty) buf
def execBstate (full : Bool) (buf : BitVec 6) (s : State) : Host.Outcome State Fault Refusal :=
  solo s (.bstate full buf) (slotBstate full buf)
def slotBfree (buf : BitVec 6) (k : Ctx) (_ : State) : SlotRes := bufOp k .free buf
def execBfree (buf : BitVec 6) (s : State) : Host.Outcome State Fault Refusal := solo s (.bfree buf) (slotBfree buf)

/-! Semaphores (R216 to R218). -/

def queueSync (k : Ctx) (e : Option SyncEnt) : SlotEff :=
  onFrame k fun r => { r with fl := { r.fl with syncQ := r.fl.syncQ ++ e.toList } }

/-- A CEIL of 0, or a COUNT above it, is an illegal operation (R216). -/
def slotSemi (sem : BitVec 5) (ceil : BitVec 16) (count : BitVec 13) (k : Ctx) (_ : State) : SlotRes :=
  if ceil = 0 ∨ ceil.toNat < count.toNat then .error k.illegal
  else .ok (queueSync k (mkSync k.opId k.info (.semi sem ceil count) 0))
def execSemi (sem : BitVec 5) (ceil : BitVec 16) (count : BitVec 13) (s : State) : Host.Outcome State Fault Refusal :=
  solo s (.semi sem ceil count) (slotSemi sem ceil count)

/-- The limits of a member handle (R217). -/
def handleOk (r : Frame) (h : Nat) : Bool :=
  decide (h < 1 <<< 14) && decide (bits h 2 6 = 0) && decide (bits h 8 6 ≤ taskSsize r) && decide (bits h 0 2 ≤ taskGsize r)

def slotSems (sem : BitVec 5) (n : BitVec 16) (rmt : Bool) (tgt : Reg) (k : Ctx) (_ : State) : SlotRes :=
  let h := k.rd .a tgt
  if rmt && !handleOk k.r h.toNat then .error k.illegal
  else .ok (queueSync k (mkSync k.opId k.info (.sems sem n rmt tgt) h))
def execSems (sem : BitVec 5) (n : BitVec 16) (rmt : Bool) (tgt : Reg) (s : State) : Host.Outcome State Fault Refusal :=
  solo s (.sems sem n rmt tgt) (slotSems sem n rmt tgt)

/-- The wait is judged with the bundle; what is left is to subtract (R103, R218). N = 0 is an illegal operation, found when
every stall has cleared (R137, R138). -/
def slotSemw (sem : BitVec 5) (n : BitVec 16) (k : Ctx) (_ : State) : SlotRes :=
  if n = 0 then .error k.illegal
  else if k.r.away then .ok { act := fun s => semSub s k.c k.f sem n }
  else .ok (onFrame k fun r => { r with sync := { r.sync with semc := r.sync.semc.set sem.toFin (r.sync.semc[sem.toFin] - n) } })
def execSemw (sem : BitVec 5) (n : BitVec 16) (s : State) : Host.Outcome State Fault Refusal :=
  solo s (.semw sem n) (slotSemw sem n)

/-! Barriers (R219, R220). -/

/-- The phase has ended: the bundle's stall is over (R220). -/
def slotBar (kd : BarKind) (bid : BitVec 4) (k : Ctx) (_ : State) : SlotRes :=
  .ok (onFrame k fun r => { r with sync := { r.sync with
    stalled := r.sync.stalled.set (barIdx kd bid.toNat % 32) none (Nat.mod_lt _ (by decide)) } })
def execBar (kd : BarKind) (bid : BitVec 4) (s : State) : Host.Outcome State Fault Refusal :=
  solo s (.bar kd bid) (slotBar kd bid)

end Sys2Proof.Machine
end

