-- ==== Sys2Proof/Machine/Control.lean ====
section
/-! DEFINITION. The control slots: branches, the sequencer, the rotating base, format and fidelity, yield, trap and halt
(R142 to R156). -/

namespace Sys2Proof.Machine

/-! Branches (R142, R143). -/

/-- The target of a direct branch: the bundle's address plus twice its offset in halfwords (R142). -/
def offTarget {n : Nat} (k : Ctx) (off : BitVec n) : Word := k.info.pc + (off.signExtend 64) <<< 1

def slotNop (_ : Ctx) (_ : State) : SlotRes := .ok {}
def execNop (s : State) : Host.Outcome State Fault Refusal := solo s .nop slotNop
def slotBr (off : BitVec 14) (k : Ctx) (_ : State) : SlotRes := .ok { taken := some (offTarget k off) }
def execBr (off : BitVec 14) (s : State) : Host.Outcome State Fault Refusal := solo s (.br off) (slotBr off)
/-- The taint of the target enters `CTAINT` (R93). -/
def slotBri (tg : Reg) (k : Ctx) (_ : State) : SlotRes := .ok { taken := some (k.rd .a tg), ctAdd := k.tnt .a tg }
def execBri (tg : Reg) (s : State) : Host.Outcome State Fault Refusal := solo s (.bri tg) (slotBri tg)
def slotCall (off : BitVec 14) (k : Ctx) (_ : State) : SlotRes := .ok { taken := some (offTarget k off), link := some 31 }
def execCall (off : BitVec 14) (s : State) : Host.Outcome State Fault Refusal := solo s (.call off) (slotCall off)
def slotCalli (lk tg : Reg) (k : Ctx) (_ : State) : SlotRes :=
  .ok { taken := some (k.rd .a tg), ctAdd := k.tnt .a tg, link := some lk }
def execCalli (lk tg : Reg) (s : State) : Host.Outcome State Fault Refusal := solo s (.calli lk tg) (slotCalli lk tg)
/-- `ret` puts the taint of its target in the place of `CTAINT` (R94). -/
def slotRet (tg : Reg) (k : Ctx) (_ : State) : SlotRes := .ok { taken := some (k.rd .a tg), ctSet := some (k.tnt .a tg) }
def execRet (tg : Reg) (s : State) : Host.Outcome State Fault Refusal := solo s (.ret tg) (slotRet tg)

/-! The sequencer (R145 to R149). -/

def Frame.level (r : Frame) (lv : BitVec 3) : SeqLevel := r.seq.toList.getD lv.toNat SeqLevel.idle
def Frame.setLevel (r : Frame) (lv : BitVec 3) (x : SeqLevel) : Frame :=
  { r with seq := r.seq.set (lv.toNat % 6) x (Nat.mod_lt _ (by decide)) }

/-- A level starts, or starts again, with a count; its pairs stay (R146). -/
def startLevel (k : Ctx) (lv : BitVec 3) (n : Nat) : SlotEff :=
  onFrame k fun r => r.setLevel lv { r.level lv with active := true, start := k.next, remain := n, first := true }

def slotLsetImm (lv : BitVec 3) (cnt : BitVec 10) (k : Ctx) (_ : State) : SlotRes := .ok (startLevel k lv (cnt.toNat + 1))
def execLsetImm (lv : BitVec 3) (cnt : BitVec 10) (s : State) : Host.Outcome State Fault Refusal :=
  solo s (.lsetImm lv cnt) (slotLsetImm lv cnt)
/-- The count is 1 to 2^32 − 1, or an illegal operation; its taint enters `CTAINT` (R93, R146). -/
def slotLsetReg (lv : BitVec 3) (cl : File3) (c : Reg) (k : Ctx) (_ : State) : SlotRes :=
  let n := (k.rd cl c).toNat
  if n = 0 ∨ 1 <<< 32 ≤ n then .error k.illegal
  else .ok { startLevel k lv n with ctAdd := k.tnt cl c }
def execLsetReg (lv : BitVec 3) (cl : File3) (c : Reg) (s : State) : Host.Outcome State Fault Refusal :=
  solo s (.lsetReg lv cl c) (slotLsetReg lv cl c)

/-- A fifth pair is an illegal operation (R147). -/
def slotLstride (lv : BitVec 3) (ad st : Reg) (k : Ctx) (_ : State) : SlotRes :=
  if 4 ≤ (k.r.level lv).pairs.length then .error k.illegal
  else
    .ok (onFrame k fun r =>
      let x := r.level lv
      r.setLevel lv { x with pairs := x.pairs ++ [(ad, k.rd .x st)] })
def execLstride (lv : BitVec 3) (ad st : Reg) (s : State) : Host.Outcome State Fault Refusal :=
  solo s (.lstride lv ad st) (slotLstride lv ad st)

/-- Each stride is added to its register as it stands at the end of the bundle; taint stays (R92, R148). -/
def addStrides (r : Frame) (l : List (Reg × Word)) : Frame :=
  l.foldl (fun r (a, st) => { r with regs := { r.regs with a := r.regs.a.set a.toFin (r.regs.a[a.toFin] + st) } }) r
/-- The window moves on by one step (R117, R148). -/
def rotate (k : Ctl) : Ctl := { k with woff := (k.woff + 8 <<< k.wstep.toNat) % k.wsize }

/-- R148: an iteration ends; with one left the level ends too and falls through. -/
def slotLoop (lv : BitVec 3) (k : Ctx) (_ : State) : SlotRes :=
  let x := k.r.level lv
  if !x.active then .error k.illegal
  else
    let y : SeqLevel :=
      if 1 < x.remain then { x with remain := x.remain - 1, first := false }
      else { x with active := false, remain := 0, pairs := [] }
    let e := onFrame k fun r =>
      let r := addStrides r x.pairs
      { r with ctl := rotate r.ctl }.setLevel lv y
    .ok { e with taken := if 1 < x.remain then some x.start else none }
def execLoop (lv : BitVec 3) (s : State) : Host.Outcome State Fault Refusal := solo s (.loop lv) (slotLoop lv)

/-- R149. -/
def slotLexit (lv : BitVec 3) (off : BitVec 11) (k : Ctx) (_ : State) : SlotRes :=
  if !(k.r.level lv).active then .error k.illegal
  else
    let e := onFrame k fun r => r.setLevel lv { r.level lv with active := false, pairs := [] }
    .ok { e with taken := some (offTarget k off) }
def execLexit (lv : BitVec 3) (off : BitVec 11) (s : State) : Host.Outcome State Fault Refusal :=
  solo s (.lexit lv off) (slotLexit lv off)

/-! Rotating base, format and fidelity (R151 to R153). -/

/-- A WO above SZ is an illegal operation (R130, R151). -/
def slotWcfg (sz wo : BitVec 5) (st : BitVec 2) (k : Ctx) (_ : State) : SlotRes :=
  if sz.toNat < wo.toNat then .error k.illegal
  else .ok (onFrame k fun r => { r with ctl := { r.ctl with wsize := 8 * (sz.toNat + 1), woff := 8 * wo.toNat, wstep := st } })
def execWcfg (sz wo : BitVec 5) (st : BitVec 2) (s : State) : Host.Outcome State Fault Refusal :=
  solo s (.wcfg sz wo st) (slotWcfg sz wo st)

/-- The `FMT` word (R222). -/
def fmtWord (af bf : BitVec 4) (acm scm : BitVec 2) (orm : RM) : BitVec 16 :=
  BitVec.ofNat 16 (af.toNat + bf.toNat <<< 4 + acm.toNat <<< 10 + scm.toNat <<< 12 + orm.code.toNat <<< 14)
def slotSetfmt (af bf : BitVec 4) (acm scm : BitVec 2) (orm : RM) (k : Ctx) (_ : State) : SlotRes :=
  .ok (landEff k 5 0 4 ((fmtWord af bf acm scm orm).setWidth 2048) 0)
def execSetfmt (af bf : BitVec 4) (acm scm : BitVec 2) (orm : RM) (s : State) : Host.Outcome State Fault Refusal :=
  solo s (.setfmt af bf acm scm orm) (slotSetfmt af bf acm scm orm)

/-- The value of the latest `setfid` still in flight, or `FID` (R153). -/
def curFid (r : Frame) : BitVec 6 :=
  match (r.fl.land.filter (·.file = 6)).getLast? with
  | some l => l.val.setWidth 6
  | none => r.ctl.fid
/-- No band is relaxed against the value in force, and no higher band is more relaxed than a lower one (R153, R232). -/
def fidLegal (cur new : BitVec 6) : Bool :=
  (List.range 3).all (fun b => decide (bandMode new b ≤ bandMode cur b))
  && decide (bandMode new 2 ≤ bandMode new 1) && decide (bandMode new 1 ≤ bandMode new 0)
def slotSetfid (b0 b1 b2 : BitVec 2) (k : Ctx) (_ : State) : SlotRes :=
  let new : BitVec 6 := b2 ++ b1 ++ b0
  if fidLegal (curFid k.r) new then .ok (landEff k 6 0 4 (new.setWidth 2048) 0) else .error k.illegal
def execSetfid (b0 b1 b2 : BitVec 2) (s : State) : Host.Outcome State Fault Refusal :=
  solo s (.setfid b0 b1 b2) (slotSetfid b0 b1 b2)

/-! Yield, trap and halt (R154 to R156). -/

/-- The wish to switch is judged at the drain point, before the bundle issues; the slot itself has no effect (R154). -/
def slotYield (_ : Ctx) (_ : State) : SlotRes := .ok {}
def execYield (s : State) : Host.Outcome State Fault Refusal := solo s .yield slotYield
/-- The software trap: the code, and the next bundle in sequence (R155, R317). -/
def slotTrapOp (code : BitVec 8) (k : Ctx) (_ : State) : SlotRes := .error (k.trap 16 (code.setWidth 64) k.next)
def execTrap (code : BitVec 8) (s : State) : Host.Outcome State Fault Refusal := solo s (.trap code) (slotTrapOp code)
def slotHalt (_ : Ctx) (_ : State) : SlotRes := .ok { halts := true }
def execHalt (s : State) : Host.Outcome State Fault Refusal := solo s .halt slotHalt

end Sys2Proof.Machine
end

