-- ==== Sys2Proof/Machine/CubeOps.lean ====
section
/-! DEFINITION. The cube instructions: `cmma`, `cmmz`, `accrd`, `accwr` (R239 to R248). -/

namespace Sys2Proof.Machine

/-! Accumulator forms (R248). -/

def formAt (w : BitVec 32) (i : Nat) : Nat := bits w.toNat (2 * i) 2
def formSet (w : BitVec 32) (i v : Nat) : BitVec 32 := (w &&& ~~~(3#32 <<< (2 * i))) ||| (BitVec.ofNat 32 (v % 4) <<< (2 * i))
/-- The slots an operation of a form names: a pair under A80F (R15). -/
def formSlots (acc form : Nat) : List Nat := if form = 3 then [acc, acc + 1] else [acc]
def setForms (w : BitVec 32) (l : List Nat) (v : Nat) : BitVec 32 := l.foldl (fun w i => formSet w i v) w
def accN (r : Frame) : Nat := match r.task with | some t => t.accN | none => 0

/-! `cmma` and `cmmz` (R239 to R242). -/

/-- Bits of a descriptor that must be zero, and XOFF where it is not used (R240, R242). -/
def descBad (d : Word) (useX : Bool) : Bool :=
  if descG d then bits d.toNat 56 7 ≠ 0
  else bits d.toNat 29 15 ≠ 0 || Nat.testBit d.toNat 26 || (!useX && decide (descX d ≠ 0))

/-- The illegal-operation conditions of R242. -/
def cubeIllegal (k : Ctx) (zero : Bool) (acc : BitVec 4) (a b sh : Word) : Bool :=
  let fmt := k.r.ctl.fmt
  let scm := fmtSCM fmt
  let tern := decide (fmtAF fmt = 11)
  match pairInfo (fmtAF fmt) (fmtBF fmt) with
  | none => true
  | some (_, form) =>
    let l := formSlots acc.toNat form
    let scales := fun n => decide (4 ≤ n) && decide (n ≤ 8)
    bits sh.toNat 30 34 ≠ 0 || descBad a (scm ≠ 0) || descBad b (scm ≠ 0 || tern)
    || (l.any fun i => decide (accN k.r ≤ i)) || (form = 3 && acc.toNat % 2 = 1)
    || (scm ≠ 0 && !(scales (fmtAF fmt) && scales (fmtBF fmt)))
    || (scm ≠ 0 && (descG a || descG b))
    || (descG a && inWindow (descVa a)) || (descG b && inWindow (descVa b))
    || (!zero && l.any fun i => let f := formAt k.r.ctl.form i; f ≠ 0 && f ≠ form)

/-- The address of an operand's base on the lowest layer of the mask. -/
def descAdr (d : Word) (low : Nat) : Word :=
  if descG d then descVa d else w64 (low <<< 29 + descFace d <<< 27 + descOff d)

def runAdr (x : Run) : Nat := x.1 <<< 29 + x.2.1 <<< 27 + x.2.2.1
/-- Whether a run lies in the task's reservation (R68, R225). -/
def runInside (r : Frame) (x : Run) : Bool :=
  match r.task with
  | some t => x.2.1 != 3 && decide (x.2.2.1 + x.2.2.2 ≤ t.sizeOf x.2.1)
  | none => false

/-- The first byte of a run in a retired bank, each bank that the run lies in being looked at (R12, R37). -/
def runRetired (r : Frame) (x : Run) : Option Nat :=
  let (z, fc, o, n) := x
  match r.task with
  | none => none
  | some t =>
    let b := t.baseOf z fc
    let p := b + o
    let offs := (List.range ((p + n - 1) / (1 <<< 20) + 1 - p / (1 <<< 20))).map fun j =>
      if j = 0 then o else (p / (1 <<< 20) + j) * (1 <<< 20) - b
    (offs.find? fun o => spForm (z <<< 29 + fc <<< 27 + o) && decide (o < t.sizeOf fc) && bankGone r z fc (b + o)).map fun o =>
      z <<< 29 + fc <<< 27 + o

/-- The faults of R242 in their order; the runs of face bytes where there are none. DEDUCED, assumption 69. Of
a breach of R225 the array's base on the lowest layer is reported for a bank's bound, else the first run that leaves the
reservation. DESIGN CHOICE, assumption 102. -/
def cubeCheck (k : Ctx) (zero : Bool) (acc : BitVec 4) (a b sh : Word) (m : BitVec 8) : Except TrapInfo (List Run) :=
  if cubeIllegal k zero acc a b sh then .error k.illegal
  else
    let low := maskLow m
    match [a, b].find? fun d => decide ((descAdr d low).toNat % 64 ≠ 0) with
    | some d => .error (k.trap 14 (descAdr d low))
    | none =>
      match (List.range 8).find? fun z => m.getLsbD z && !layerIn k.r z with
      | some z => .error (k.trap 13 (w64 z))
      | none =>
        let fmt := k.r.ctl.fmt
        let tern := decide (fmtAF fmt = 11)
        let la := operandLines true a tern (fmtTy (fmtAF fmt)).width (fmtSCM fmt) (shpK sh) (maskN m) (shpM sh)
        let lb := operandLines false b tern (fmtTy (fmtBF fmt)).width (fmtSCM fmt) (shpK sh) (maskN m) (shpN sh)
        let all := la ++ lb
        let runs := all.flatMap fun x => x.runs low
        match runs.findSome? (runRetired k.r) with
        | some a => .error (k.trap 13 (bankInfo k.r a))
        | none =>
          let outside := all.findSome? fun x =>
            if !x.boundsOk then some (low <<< 29 + x.face <<< 27 + x.base)
            else ((x.runs low).find? fun y => !runInside k.r y).map runAdr
          match outside with
          | some adr => .error (k.trap 10 (w64 adr) (tinfo10 3 2 false) true)
          | none =>
            if !descG a ∧ descFace a ≠ 0 then .error (k.trap 5 (descAdr a low))
            else if !descG b ∧ descFace b ≠ 1 then .error (k.trap 5 (descAdr b low))
            else
              match bufFault k.r .read (touched k.r runs) with
              | some i =>
                let adr := match k.r.buf i, runs.find? (fun x => (touched k.r [x]).contains i) with
                  | some _, some x => runAdr x
                  | _, _ => 0
                .error (k.trap 7 (bufInfo k.r i) (w64 adr))
              | none => .ok runs

/-- An operation joins the cube queue: form, buffer states, samples of `FMT` and `FID` (R74, R222, R248). -/
def mmaSlot (zero : Bool) (ins : Instr) (acc : BitVec 4) (ra rb rs : Reg) (m : BitVec 8) (k : Ctx) : SlotRes := do
  let (a, b, sh) := (k.rd .a ra, k.rd .a rb, k.rd .a rs)
  let runs ← cubeCheck k zero acc a b sh m
  let form := match pairInfo (fmtAF k.r.ctl.fmt) (fmtBF k.r.ctl.fmt) with | some (_, f) => f | none => 0
  let wait := k.wait (k.tnt .a ra ||| k.tnt .a rb ||| k.tnt .a rs)
  let e := mkCube k.opId k.info wait ins k.r.ctl.fmt k.r.ctl.fid form a b sh 0 0
  .ok (onFrame k fun r =>
    let bl := touched r runs
    let refs := bufRefs r bl
    let r := bufApply r .read bl
    { r with
      ctl := { r.ctl with form := setForms r.ctl.form (formSlots acc.toNat form) form }
      fl := { r.fl with cubeQ := r.fl.cubeQ ++ (e.map fun e => { e with bufs := refs }).toList } })

def slotCmma (acc : BitVec 4) (a b sh : Reg) (m : BitVec 8) (sig : BitVec 6) (k : Ctx) (_ : State) : SlotRes :=
  mmaSlot false (.cmma acc a b sh m sig) acc a b sh m k
def execCmma (acc : BitVec 4) (a b sh : Reg) (m : BitVec 8) (sig : BitVec 6) (s : State) :
    Host.Outcome State Fault Refusal :=
  solo s (.cmma acc a b sh m sig) (slotCmma acc a b sh m sig)
def slotCmmz (acc : BitVec 4) (a b sh : Reg) (m : BitVec 8) (sig : BitVec 6) (k : Ctx) (_ : State) : SlotRes :=
  mmaSlot true (.cmmz acc a b sh m sig) acc a b sh m k
def execCmmz (acc : BitVec 4) (a b sh : Reg) (m : BitVec 8) (sig : BitVec 6) (s : State) :
    Host.Outcome State Fault Refusal :=
  solo s (.cmmz acc a b sh m sig) (slotCmmz acc a b sh m sig)

/-! Accumulator moves (R245, R246). -/

/-- The format of a slot's contents: its FORM, or what the sampled AF implies (R245). -/
def sourceForm (k : Ctx) (acc : BitVec 4) : Nat :=
  let f := formAt k.r.ctl.form acc.toNat
  if f = 0 then formOfAF (fmtAF k.r.ctl.fmt) else f
def raw (t : Ty) : Bool := t == .z64 || t == .z16

def accrdIllegal (k : Ctx) (t : Ty) (acc : BitVec 4) : Bool :=
  let form := sourceForm k acc
  decide (accN k.r ≤ acc.toNat) ||
  (!raw t && ((form = 1 && (t == .e4m3 || t == .e5m2)) || (form = 3 && (acc.toNat % 2 = 1 || accN k.r ≤ acc.toNat + 1))))

def slotAccrd (t : Ty) (acc : BitVec 4) (row : BitVec 7) (cg : BitVec 2) (v : VSpec) (k : Ctx) (_ : State) : SlotRes :=
  if accrdIllegal k t acc then .error k.illegal
  else
    let d := physV k.r.ctl v
    let e := mkCube k.opId k.info 0 (.accrd t acc row cg v) k.r.ctl.fmt k.r.ctl.fid (sourceForm k acc) 0 0 0 0 d
    .ok (onFrame k fun r => { r with fl := { r.fl with
      cubeQ := r.fl.cubeQ ++ e.toList, var := r.fl.var ++ [varOf k.opId k.info none (3, d)] } })
def execAccrd (t : Ty) (acc : BitVec 4) (row : BitVec 7) (cg : BitVec 2) (v : VSpec) (s : State) :
    Host.Outcome State Fault Refusal :=
  solo s (.accrd t acc row cg v) (slotAccrd t acc row cg v)

/-- The form in which `accwr` writes; `none` where its kind does not match (R246, R248). -/
def writeForm (k : Ctx) (t : Ty) (acc : BitVec 4) : Option Nat :=
  let f := formAt k.r.ctl.form acc.toNat
  let imp := formOfAF (fmtAF k.r.ctl.fmt)
  if raw t then some 0
  else if t == .s64 then (if f = 0 ∨ f = 1 then some 1 else none)
  else if f = 2 ∨ f = 3 then some f
  else if f = 0 ∧ imp ≠ 1 then some imp
  else none

def slotAccwr (t : Ty) (acc : BitVec 4) (row : BitVec 7) (cg : BitVec 2) (v : VSpec) (k : Ctx) (_ : State) : SlotRes :=
  match writeForm k t acc with
  | none => .error k.illegal
  | some form =>
    if accN k.r ≤ acc.toNat ∨ (form = 3 ∧ (acc.toNat % 2 = 1 ∨ accN k.r ≤ acc.toNat + 1)) then .error k.illegal
    else
      let e := mkCube k.opId k.info 0 (.accwr t acc row cg v) k.r.ctl.fmt k.r.ctl.fid form 0 0 0 (k.v v) 0
      .ok (onFrame k fun r => { r with
        ctl := if raw t then r.ctl else { r.ctl with form := setForms r.ctl.form (formSlots acc.toNat form) form }
        fl := { r.fl with cubeQ := r.fl.cubeQ ++ e.toList } })
def execAccwr (t : Ty) (acc : BitVec 4) (row : BitVec 7) (cg : BitVec 2) (v : VSpec) (s : State) :
    Host.Outcome State Fault Refusal :=
  solo s (.accwr t acc row cg v) (slotAccwr t acc row cg v)

end Sys2Proof.Machine
end

