-- ==== Sys2Proof/Machine/Engines.lean ====
section
/-! DEFINITION. The instructions that pass records to the engines: `copy`, `msend`, `putf`, `nmc`, `pleave`, `wlaunch`
(R238, R249 to R271). -/

namespace Sys2Proof.Machine

/-! Addresses in records (R64, R68). -/

/-- Runs on a withdrawn layer or a retired bank (R37). -/
def runsGone (k : Ctx) (l : List Run) : Except TrapInfo Unit :=
  match l.find? fun x => !layerIn k.r x.1 with
  | some x => .error (k.trap 13 (w64 x.1))
  | none =>
    match l.findSome? (runRetired k.r) with
    | some a => .error (k.trap 13 (bankInfo k.r a))
    | none => .ok ()
/-- Runs outside the reservation, or at no scratchpad address (R68). -/
def runsInside (k : Ctx) (src : Nat) (write : Bool) (l : List Run) : Except TrapInfo Unit :=
  match l.find? fun x => !(spForm (runAdr x) && runInside k.r x) with
  | some x => .error (k.trap 10 (w64 (runAdr x)) (tinfo10 3 src write) true)
  | none => .ok ()

/-- Bits [63:56] of a record's address (R64). -/
def recHigh (k : Ctx) (src : Nat) (write : Bool) (va : Word) : Except TrapInfo Unit :=
  if bits va.toNat 56 8 ≠ 0 then .error (k.trap 10 va (tinfo10 2 src write) true) else .ok ()
/-- Bits [47:32] of an address in the window (R64). -/
def recWindow (k : Ctx) (src : Nat) (write : Bool) (va : Word) : Except TrapInfo Unit :=
  if inWindow va ∧ bits va.toNat 32 16 ≠ 0 then .error (k.trap 10 va (tinfo10 3 src write) true) else .ok ()

def recAligned (k : Ctx) (va : Word) (n : Nat) : Except TrapInfo Unit :=
  if va.toNat % n = 0 then .ok () else .error (k.trap 14 va)

/-- The address of the first run that lies in a buffer. -/
def adrIn (r : Frame) (l : List Run) (i : Nat) : Nat :=
  match l.find? fun x => (touched r [x]).contains i with | some x => runAdr x | none => 0

/-- An entry joins the copy queue (R125). -/
def queueCopy (k : Ctx) (e : Option CopyEnt) (g : CopyEnt → CopyEnt) (r : Frame) : Frame :=
  let _ := k
  { r with fl := { r.fl with copyQ := r.fl.copyQ ++ (e.map g).toList } }

/-! `copy` (R249 to R256). -/

/-- Reserved codes, fields marked zero and limits of a copy record (R250, R252, R253). -/
def copyIllegal (r : Frame) (rc : List Word) : Bool :=
  let c := recW rc 0
  let x := copyRec rc
  let e := fun j => x.ext.getD j 0
  let stripeBad :=
    !inWindow (w64 x.dst) || e 0 = 0 || 65536 < e 0 || e 1 = 0 || 128 < e 1
    || ((x.ext.drop 2).any fun n => n ≠ 1) || (x.dstr.any fun d => d ≠ 0) || 7 < spLayer (bits x.dst 0 32) + x.snl
  bits c 23 41 ≠ 0 || 12 ≤ bits c 0 4 || 12 ≤ bits c 4 4 || x.scm = 3
  || (x.scm ≠ 0 && !(4 ≤ bits c 0 4 && bits c 0 4 ≤ 8)) || (x.scm = 0 && x.sca ≠ 0)
  || (x.ext.any fun n => 1 <<< 32 ≤ n)
  || ((List.range 6).any fun j => recW rc (7 + 4 * j) ≠ 0) || ((List.range 3).any fun j => recW rc (29 + j) ≠ 0)
  || (Nat.testBit c 17 && Nat.testBit c 22 && taskSsize r = 0)
  || (x.stripe && stripeBad)

/-- A byte address of an element of a scratchpad side that is no address of the window; one that a global side's strides lead to
is checked when it is translated (R64, R251, R255). -/
def leavesWindow (base : Nat) (l : List Nat) : Option Nat :=
  if bits base 48 8 = 0xFF then l.find? fun a => bits a 32 32 ≠ 0x00FF0000 else none

/-- R225's bounds of a stripe destination; its offset need be no multiple of 64, which the spec asks of operand bases alone
(R253). DESIGN CHOICE, assumption 105. -/
def stripeOk (x : CopyRec) : Bool :=
  let a := bits x.dst 0 32
  let s0 := stripesAt (x.ext.getD 0 1) (x.snl + 1) 0
  (⟨spFace a, spOff a, slotLen s0 x.df.width, x.ext.getD 1 1, []⟩ : Lines).boundsOk

/-- The checks on the addresses of a copy, once it is legal and aligned (R37, R64, R68, R194, R251, R253, R256). -/
def copyAdrCheck (k : Ctx) (x : CopyRec) : Except TrapInfo Unit := do
  let (rd, wr) := x.runs
  let ts := if x.empty then [] else (List.range x.count).map x.tuple
  if x.empty then pure () else runsGone k (rd ++ wr)
  recHigh k 1 false (w64 x.src)
  recHigh k 1 true (w64 x.dst)
  recHigh k 1 false (w64 x.sca)
  recWindow k 1 false (w64 x.src)
  recWindow k 1 true (w64 x.dst)
  recWindow k 1 false (w64 x.sca)
  if x.empty then pure ()
  else
    let scales := if x.scm = 0 then [] else ts.map x.scaleAdr
    match leavesWindow x.src (ts.map fun t => x.srcBit t / 8) <|> leavesWindow x.sca scales,
        leavesWindow x.dst (ts.map fun t => x.dstBit t / 8) with
    | some a, _ => .error (k.trap 10 (w64 a) (tinfo10 3 1 false) true)
    | none, some a => .error (k.trap 10 (w64 a) (tinfo10 3 1 true) true)
    | none, none =>
      if x.stripe ∧ !stripeOk x then .error (k.trap 10 (w64 x.dst) (tinfo10 3 1 true) true)
      else
        runsInside k 1 false rd
        runsInside k 1 true wr

/-- The buffer checks of a copy: its source, its destination, and one buffer on both sides (R74). -/
def copyBufCheck (k : Ctx) (rd wr : List Run) : Except TrapInfo Unit :=
  let a := touched k.r rd
  let b := touched k.r wr
  match bufFault k.r .read a with
  | some i => .error (k.trap 7 (bufInfo k.r i) (w64 (adrIn k.r rd i)))
  | none =>
    match (bufFault k.r .fill b) <|> (b.find? fun i => a.contains i) with
    | some i => .error (k.trap 7 (bufInfo k.r i) (w64 (adrIn k.r wr i)))
    | none => .ok ()

/-- The phase of a barrier that an engine operation takes at issue (R220). -/
def takeBar (k : Ctx) (bar : Option (BarKind × Nat)) (s : State) : State :=
  match bar, k.r.task with
  | some (kd, bid), some t =>
    let i := barIdx kd bid
    let ph := k.r.sync.phase.toList.getD i 0
    let s := takePhase s t.part t.launch t.gang kd bid ph (taskSrank k.r, t.rank)
    s.modFrame k.c k.f fun r => { r with sync := { r.sync with
      phase := r.sync.phase.set (i % 32) (ph + 1) (Nat.mod_lt _ (by decide)) } }
  | _, _ => s
def copyBarOf (rc : List Word) : Option (BarKind × Nat) :=
  let c := recW rc 0
  if Nat.testBit c 17 then some (if Nat.testBit c 22 then .span else .gang, bits c 18 4) else none

def slotCopy (ra : Reg) (sig : BitVec 6) (k : Ctx) (s : State) : SlotRes := do
  let ab := k.rd .a ra
  let (a, rc) ← k.record s ab 256 1
  if copyIllegal k.r rc then .error k.illegal
  else
    let x := copyRec rc
    recAligned k (w64 x.src) (max 1 (x.sf.width / 8))
    recAligned k (w64 x.dst) (max 1 (x.df.width / 8))
    copyAdrCheck k x
    let (rd, wr) := x.runs
    k.recBuf a 256
    copyBufCheck k rd wr
    let e := mkCopy k.opId k.info (k.wait (k.tnt .a ra)) none (.copy ra sig) ab 0 rc
    let bar := (copyBarOf rc).map fun (kd, bid) =>
      (barIdx kd bid, k.r.sync.phase.toList.getD (barIdx kd bid) 0)
    .ok { act := fun s =>
      let s := takeBar k (copyBarOf rc) s
      s.modFrame k.c k.f fun r =>
        let a := touched r rd
        let b := touched r wr
        let r := bufApply (bufApply r .read a) .fill b
        queueCopy k e (fun e => { e with srcB := bufRefs r a, dstB := bufRefs r b, bar := bar }) r }
def execCopy (ra : Reg) (sig : BitVec 6) (s : State) : Host.Outcome State Fault Refusal := solo s (.copy ra sig) (slotCopy ra sig)

/-! `msend` (R257). -/

def msendIllegal (r : Frame) (rc : List Word) : Bool :=
  let c := recW rc 2
  let rs := (msgRsig rc).toNat
  let member := msgToBuffer rc
  msgLen rc % 4 ≠ 0 || bits c 14 5 ≠ 0 || ((List.range 4).any fun j => recW rc (4 + j) ≠ 0)
  || (if member then !(rs = 63 || (8 ≤ rs && rs < 40)) || !handleOk r (msgHandle rc)
      else rs ≠ 63 || msgBuf rc ≠ 0 || msgHandle rc ≠ 0 || inWindow (w64 (recW rc 0)))

def slotMsend (ra : Reg) (cls : BitVec 2) (sig : BitVec 6) (k : Ctx) (s : State) : SlotRes := do
  let ab := k.rd .a ra
  let (a, rc) ← k.record s ab 64 1
  if msendIllegal k.r rc then .error k.illegal
  else
    let (src, dst) := (w64 (recW rc 1), w64 (recW rc 0))
    recAligned k src 64
    recAligned k dst 64
    let rd := msgRuns rc
    runsGone k rd
    recHigh k 1 false src
    if msgToBuffer rc then pure () else recHigh k 1 true dst
    recWindow k 1 false src
    runsInside k 1 false rd
    k.recBuf a 64
    match bufFault k.r .read (touched k.r rd) with
    | some i => .error (k.trap 7 (bufInfo k.r i) (w64 (adrIn k.r rd i)))
    | none =>
      let e := mkCopy k.opId k.info (k.wait (k.tnt .a ra)) none (.msend ra cls sig) ab 0 rc
      .ok (onFrame k fun r =>
        let a := touched r rd
        let r := bufApply r .read a
        queueCopy k e (fun e => { e with srcB := bufRefs r a, pre := (s.cube k.c).ctl.unsched }) r)
def execMsend (ra : Reg) (cls : BitVec 2) (sig : BitVec 6) (s : State) : Host.Outcome State Fault Refusal :=
  solo s (.msend ra cls sig) (slotMsend ra cls sig)

/-! `putf` (R264). -/

def slotPutfImm (adr : Reg) (imm : BitVec 16) (sig : BitVec 6) (k : Ctx) (_ : State) : SlotRes := do
  k.globalCheck (k.rd .a adr) 8 1 true
  .ok (onFrame k (queueCopy k (mkCopy k.opId k.info (k.wait (k.tnt .a adr)) none (.putfImm adr imm sig) (k.rd .a adr) 0 []) id))
def execPutfImm (adr : Reg) (imm : BitVec 16) (sig : BitVec 6) (s : State) : Host.Outcome State Fault Refusal :=
  solo s (.putfImm adr imm sig) (slotPutfImm adr imm sig)
def slotPutfReg (adr val : Reg) (sig : BitVec 6) (k : Ctx) (_ : State) : SlotRes := do
  k.globalCheck (k.rd .a adr) 8 1 true
  let wait := k.wait (k.tnt .a adr ||| k.tnt .x val)
  .ok (onFrame k (queueCopy k (mkCopy k.opId k.info wait none (.putfReg adr val sig) (k.rd .a adr) (k.rd .x val) []) id))
def execPutfReg (adr val : Reg) (sig : BitVec 6) (s : State) : Host.Outcome State Fault Refusal :=
  solo s (.putfReg adr val sig) (slotPutfReg adr val sig)

/-! `nmc` (R265 to R267). -/

def nmcIllegal (rc : List Word) (fe : Bool) : Bool :=
  let c := recW rc 0
  let op := bits c 0 8
  bits c 15 49 ≠ 0 || 3 < bits c 8 5 || 6 < op || (5 ≤ op && !fe) || 1 <<< 32 ≤ recW rc 3 || recW rc 7 ≠ 0
  || (!nmcUsesY op && recW rc 2 ≠ 0) || inWindow (w64 (recW rc 1)) || inWindow (w64 (recW rc 2))

/-- A fetch is a tracked load with a tag and a pending destination (R89, R267). -/
def slotNmc (ra : Reg) (fe : Bool) (fd : Reg) (sig : BitVec 6) (k : Ctx) (s : State) : SlotRes := do
  let ab := k.rd .a ra
  let (a, rc) ← k.record s ab 64 3
  if nmcIllegal rc fe then .error k.illegal
  else
    recAligned k (w64 (recW rc 1)) 64
    recAligned k (w64 (recW rc 2)) 64
    recHigh k 3 true (w64 (recW rc 1))
    recHigh k 3 false (w64 (recW rc 2))
    k.recBuf a 64
    let e := mkCopy k.opId k.info (k.wait (k.tnt .a ra)) none (.nmc ra fe fd sig) ab 0 rc
    .ok (onFrame k fun r =>
      if fe then
        let (tag, r) := takeTag r k.opId
        let r := queueCopy k e (fun e => { e with tag := some tag }) r
        { r with fl := { r.fl with var := r.fl.var ++ [varOf k.opId k.info (some tag) (0, fd.toNat)] } }
      else queueCopy k e id r)
def execNmc (ra : Reg) (fe : Bool) (fd : Reg) (sig : BitVec 6) (s : State) : Host.Outcome State Fault Refusal :=
  solo s (.nmc ra fe fd sig) (slotNmc ra fe fd sig)

/-! `pleave` and `wlaunch` (R269, R271). -/

def slotPleave (cls : BitVec 4) (dur : BitVec 16) (k : Ctx) (_ : State) : SlotRes :=
  if 9 ≤ cls.toNat ∨ (cls = 0 ∧ dur ≠ 0) ∨ (cls ≠ 0 ∧ dur = 0) then .error k.illegal
  else .ok (queueSync k (mkSync k.opId k.info (.pleave cls dur) 0))
def execPleave (cls : BitVec 4) (dur : BitVec 16) (s : State) : Host.Outcome State Fault Refusal :=
  solo s (.pleave cls dur) (slotPleave cls dur)

def slotWlaunch (ra : Reg) (sig : BitVec 6) (k : Ctx) (s : State) : SlotRes := do
  let ab := k.rd .a ra
  let (a, rc) ← k.record s ab 256 1
  k.recBuf a 256
  .ok (onFrame k (queueCopy k (mkCopy k.opId k.info (k.wait (k.tnt .a ra)) none (.wlaunch ra sig) ab 0 rc) id))
def execWlaunch (ra : Reg) (sig : BitVec 6) (s : State) : Host.Outcome State Fault Refusal :=
  solo s (.wlaunch ra sig) (slotWlaunch ra sig)

end Sys2Proof.Machine
end

