-- ==== Sys2Proof/Machine/Submit.lean ====
section
/-! DEFINITION. Launch records: fields, acceptance and refusal, identifiers and dependences, launch windows, `wlaunch`
decisions (R332 to R341, R344). -/

namespace Sys2Proof.Machine

/-! Fields of a record (R335, R336). -/

def Rec.ctrl (k : Rec) (lo len : Nat) : Nat := bits (k.word 0) lo len
def Rec.gsize (k : Rec) : Nat := k.ctrl 24 2 + 1
def Rec.accN (k : Rec) : Nat := k.ctrl 28 4 + 1
def Rec.queue (k : Rec) : Nat := k.ctrl 10 6
def Rec.isSpan (k : Rec) : Bool := k.ctrl 0 2 = 1
def Rec.gx (k : Rec) : Nat := bits (k.word 1) 0 16 + 1
def Rec.gy (k : Rec) : Nat := bits (k.word 1) 16 16 + 1
def Rec.gz (k : Rec) : Nat := bits (k.word 1) 32 16 + 1
/-- Gangs of the record; those of a span stand one on each package (R21). -/
def Rec.total (k : Rec) : Nat := k.gx * k.gy * k.gz / k.gsize
def Rec.asid (k : Rec) : BitVec 16 := BitVec.ofNat 16 (k.word 8)
/-- Dependence i (R335). -/
def depOf (ws : List Word) (i : Nat) : Nat := bits (recW ws (14 + i / 2)) (32 * (i % 2)) 32
def Rec.deps (k : Rec) : List Nat := (List.range (k.ctrl 37 3)).map (depOf k.words)
/-- The span rank of this package, or gang 0 of a record that is none (R21). -/
def Rec.ownRank (s : State) (k : Rec) : Option Nat := (List.range (spanPkgs k).length).find? fun i => (spanPkgs k).getD i 0 = s.pkg
/-- The gangs that this package runs, by index. -/
def Rec.here (s : State) (k : Rec) : Nat :=
  if k.isSpan then (if (k.ownRank s).isSome then 1 else 0) else k.total

/-- P(c) of an energy class, in watts (R344). -/
def classWatts (c : Nat) : Nat := [60, 150, 250, 350, 450, 560, 690, 828].getD c 828
/-- The effective class of a record: ECLS less the relaxed bands of B2, B1 and B0, two at most (R344). -/
def effClass (ws : List Word) : Nat :=
  let fid := bits (recW ws 2) 16 6
  bits (recW ws 0) 32 3 - min 2 ((List.range 3).filter fun b => bits fid (2 * b) 2 ≠ 0).length

/-! Partitions and queues. -/

/-- The partition that owns a launch queue (R332, R371). -/
def queuePart (s : State) (q : Nat) : Option Nat := (List.range s.hub.parts.length).find? fun p =>
  match s.hub.parts[p]? with | some d => d.queues.getLsbD q | none => false
def getQueue (s : State) (q : Nat) : Queue := s.hub.queues.toList.getD q Queue.zero
def modQueue (s : State) (q : Nat) (g : Queue → Queue) : State :=
  s.modHub fun h => { h with queues := h.queues.set (q % 64) (g (h.queues.toList.getD q Queue.zero)) (Nat.mod_lt _ (by decide)) }
def modPart (s : State) (p : Nat) (g : Part → Part) : State :=
  s.modHub fun h => { h with parts := h.parts.zipIdx.map fun (d, i) => if i = p then g d else d }

def Ratio.le (a b : Ratio) : Bool := decide (a.num * b.den ≤ b.num * a.den)
def Ratio.max (a b : Ratio) : Ratio := if a.le b then b else a
/-- Exact sum, in lowest terms (R346). -/
def Ratio.add (a b : Ratio) : Ratio :=
  let n := a.num * b.den + b.num * a.den
  let d := a.den * b.den
  let g := Nat.gcd n d
  if g = 0 then ⟨n, d⟩ else ⟨n / g, d / g⟩

/-! Acceptance (R338). -/

/-- An identifier lies among the 2^31 before the next one in counting order, which skips 0 (R341). -/
def issuedId (next d : Nat) : Bool :=
  let n := if d < next then next - d else next + 0xFFFFFFFF - d
  d ≠ 0 && decide (1 ≤ n) && decide (n ≤ 1 <<< 31)

/-- A span's package list names packages of the fabric partition, each once (R338). -/
def spanOk (s : State) (d : Part) (l : List Nat) : Bool :=
  let known := fun (p : Nat) => p = s.pkg || s.hub.remotes.any fun m => m.pkg = p && m.fpid = d.fpid
  l.all known && decide (l.eraseDups.length = l.length)

/-- The conditions of R338 in order, each with its reason. -/
def refusals (s : State) (part : Nat) (d : Part) (ws : List Word) (byTask : Bool) : List (Nat × Bool) :=
  let w := recW ws
  let c := w 0
  let fmt := bits (w 2) 0 16
  let fid := bits (w 2) 16 6
  let span : Bool := bits c 0 2 = 1
  let g := bits c 24 2 + 1
  let tiles := (bits (w 1) 0 16 + 1) * (bits (w 1) 16 16 + 1) * (bits (w 1) 32 16 + 1)
  let sn := bits c 42 6 + 1
  let str := leVal ((ws.drop 16).take 10 |>.flatMap fun x => leBytes 8 x.toNat)
  let pkgs := (List.range sn).map fun i => bits str (10 * i) 10
  let q := bits c 10 6
  let used := fun (v mask : Nat) => Nat.land v mask = v
  let zeros : Bool :=
    used c 0xFCE7F300FC03 && bits (w 1) 48 16 = 0 && bits (w 2) 22 42 = 0 && bits fmt 8 2 = 0 && used (w 3) 0x1FFF7FFF7FFF
    && decide (w 5 < 1 <<< 15) && decide (w 8 < 1 <<< 16) && used (w 9) 0x3FFFFFFF000 && decide (w 11 < 1 <<< 16)
    && used (w 13) 0x87FF && (List.range 4).all (fun i => w (26 + i) = 0) && w 31 = 0
  let codes : Bool := decide (bits c 0 2 < 2) && decide (bits c 37 3 < 5) && decide (bits fmt 0 4 < 12)
    && decide (bits fmt 4 4 < 12) && decide (bits fmt 10 2 < 2) && decide (bits fmt 12 2 < 3)
  let cubes := ((List.range 4).filter fun i => d.cubes.getLsbD i).length
  let qOk : Bool := d.queues.getLsbD q && (getQueue s q).en && decide ((getQueue s q).pend.length < 256)
  let asid := BitVec.ofNat 16 (w 8)
  [(1, !zeros || !codes),
   (2, decide (tiles % g ≠ 0) || (span && decide (tiles ≠ g * sn))),
   (3, decide (cubes < g)),
   (4, !(decide (bits fid 4 2 ≤ bits fid 2 2) && decide (bits fid 2 2 ≤ bits fid 0 2))),
   (5, decide (16384 < bits (w 3) 0 15) || decide (16384 < bits (w 3) 16 15) || decide (8191 < bits (w 3) 32 13)),
   (6, decide (16384 < w 5) || decide (w 4 % 64 ≠ 0) || decide (w 7 % 64 ≠ 0)),
   (7, decide (w 11 < g) || decide (w 10 % 4096 ≠ 0)),
   (8, (if span then decide (sn < 2) || !spanOk s d pkgs else decide (bits c 42 6 ≠ 0)) || decide (str >>> (10 * sn) ≠ 0)),
   (9, !qOk),
   (10, span && byTask),
   (11, asid = 0 || (asidRoot s d asid).isNone),
   (12, decide (w 12 % 32 ≠ 0)),
   (13, ((List.range (min 4 (bits c 37 3))).any fun i => !issuedId (part0 s part) (depOf ws i)))]
where
  /-- The partition's next identifier. -/
  part0 (s : State) (part : Nat) : Nat := match partOf s part with | some d => d.nextId | none => 1

/-- The final STATE of a retained record (R341). -/
def retainedState (s : State) (part id : Nat) : Option Nat :=
  match partOf s part with
  | some d => (d.retained.find? fun x => x.1 = id).map Prod.snd
  | none => none
/-- A dependence that has failed, and one still open (R341). -/
def depBad (s : State) (part id : Nat) : Bool :=
  (findRec s part id).isNone && (match retainedState s part id with | some st => decide (st ≠ 3) | none => false)
def depOpen (s : State) (part id : Nat) : Bool := (findRec s part id).isSome

/-- A queue that becomes non-empty raises V to the smallest of its scheduler's queues of its level (R346). -/
def joinV (s : State) (q : Nat) : State :=
  let x := getQueue s q
  let vs := (List.range 64).filterMap fun i =>
    let y := getQueue s i
    if i ≠ q ∧ queuePart s i = queuePart s q ∧ y.level = x.level ∧ y.pend ≠ [] then some y.v else none
  match vs with
  | [] => s
  | v :: l => modQueue s q fun x => { x with v := x.v.max (l.foldl (fun m y => if m.le y then m else y) v) }

/-- An accepted record enters its queue; one with a failed dependence runs no gang (R338, R341). -/
def acceptRec (s : State) (part : Nat) (ws : List Word) (id : Nat) : State :=
  let k : Rec := ⟨part, id, ws, effClass ws, s.pkg, [], 0, 0, 0, none, false, [], [], none, 0, [], 0, [], []⟩
  let fail := k.deps.any (depBad s part)
  let k := if fail then { k with depFail := true, next := k.total, cancelled := k.total } else k
  let q := k.queue
  let s := if (getQueue s q).pend = [] then joinV s q else s
  let s := s.modHub fun h => { h with recs := h.recs ++ [k] }
  let s := modPart s part fun d => { d with nextId := if id = 0xFFFFFFFF then 1 else id + 1 }
  if fail then s
  else modQueue s q fun x =>
    { x with headAt := if x.pend = [] then s.now else x.headAt, aged := x.aged && x.pend ≠ [], pend := x.pend ++ [id] }

/-- A submission decided: the state and the status word (R338, R339). -/
def submit (s : State) (part : Nat) (ws : List Word) (byTask : Bool) : State × Word :=
  match partOf s part with
  | none => (s, 0)
  | some d =>
    match (refusals s part d ws byTask).find? (·.2) with
    | some (n, _) => (s, w64 (n + 2 <<< 24))
    | none => (acceptRec s part ws d.nextId, w64 (1 <<< 24 + d.nextId <<< 32))

/-! Launch windows (R333, R334). -/

/-- QCFG's write: EN, LEVEL, WEIGHT, where 0 stores 1. -/
def writeQcfg (x : Queue) (v : Nat) : Queue :=
  { x with en := Nat.testBit v 16, level := bits v 8 2, weight := if bits v 0 8 = 0 then 1 else bits v 0 8 }

/-- Whether a function reaches a queue's window: the queue is its partition's (R396). -/
def windowOf (s : State) (fn : Fin 4) (q : Nat) : Bool := queuePart s q = some fn.val

/-- WINDOW_REGISTER_WRITE: a 64-bit host write; a queue of another partition or of none, and an offset not listed, ignores
it (R333, R396). -/
def windowWriteRun (s : State) (fn : Fin 4) (q : Nat) (off : Nat) (v : Word) : State :=
  if !windowOf s fn q ∨ off % 8 ≠ 0 then s
  else if off < 0x100 then modQueue s q fun x => { x with stage := x.stage.set (off / 8) v }
  else if off = 0x110 then modQueue s q fun x => writeQcfg x v.toNat
  else s

/-- What a host read of a window returns (R333, R396). -/
def windowRead (s : State) (fn : Fin 4) (q : Nat) (off : Nat) : Word :=
  let x := getQueue s q
  if !windowOf s fn q ∨ off % 8 ≠ 0 then 0
  else if off < 0x100 then x.stage.getD (off / 8) 0
  else if off = 0x108 then x.result
  else if off = 0x110 then w64 (x.weight + x.level <<< 8 + bnat x.en <<< 16)
  else if off = 0x118 then w64 (x.pend.length + (if x.pend = [] then 0 else (s.now - x.headAt) / 2700000 % (1 <<< 32)) <<< 9)
  else 0

/-- WINDOW_SUBMIT: the staged record is taken and decided, then RESULT is written (R334). -/
def windowSubmitRun (s : State) (fn : Fin 4) (q : Nat) : State :=
  if windowOf s fn q then
    let (s, w) := submit s fn.val (getQueue s q).stage false
    modQueue s q fun x => { x with result := w }
  else s

/-- WLAUNCH_DECIDED: the `wlaunch` at the head of the copy queue is sent once every earlier load, store, atomic and
`putf` has performed at system scope; its STATUS is written, then its signal given (R271, R340). -/
def wlaunchRun (s : State) (c : CubeId) (f : FrameId) : State :=
  let r := s.frame c f
  match r.fl.copyQ, r.task with
  | e :: rest, some t =>
    (match e.op with
     | .wlaunch rc =>
       if !r.fl.traps.isEmpty || clockStands s c || !waitOver r e.id e.wait || !drainsOpen s c f e.id false
           || earlierPending s c f e.id true (fun _ => true) then s
       else
         let (s, w) := submit s t.part rc true
         let s := writeStatus s c f (e.recA.setWidth 32) 0xF0 w
         let s := s.modFrame c f fun r => { r with fl := { r.fl with copyQ := rest } }
         signalOwn s c f e.sig 2
     | _ => s)
  | _, _ => s

end Sys2Proof.Machine
end

