-- ==== Sys2Proof/Machine/Launch.lean ====
section
/-! DEFINITION. The launch scheduler: placement, admission, readmission, dictionary loads, reservations, spans, and the
completion of tasks, gangs and records (R20 to R27, R32 to R34, R38, R69, R111, R337, R341 to R352). -/

namespace Sys2Proof.Machine

/-! Seats: where a task can stand on a cube (R25, R27, R38, R69). -/

/-- A cube, a frame, and the reservations of a task there. -/
abbrev Seat := Nat × Nat × Task

/-- The reservations held on a cube: residents, parked members, and seats kept for a span. -/
def holders (s : State) (c : CubeId) : List Task :=
  (s.cube c).frames.toList.filterMap (·.task) ++ (s.cube c).parked.map (·.task) ++
  s.hub.given.flatMap fun h => (h.seats.filter fun x => x.1 = c.val).map (·.2.2)

def frameFree (s : State) (c : CubeId) (f : FrameId) : Bool :=
  (s.frame c f).task.isNone && !s.hub.given.any fun h => h.seats.any fun x => x.1 = c.val && x.2.1 = f.val
def freeFrameOf (s : State) (c : CubeId) : Option FrameId := [0, 1].find? (frameFree s c)

/-- A half that holds the record's dictionary, or one that no task holds; a half reserved for a task of another record is
neither (R25, R27). -/
def halfFor (s : State) (c : CubeId) (part id : Nat) : Option Nat :=
  let d := (s.cube c).dict.toList
  let held := fun (h : Nat) (own : Bool) => (holders s c).any fun t => t.half = h && !(own && t.part = part && t.launch = id)
  let own := (List.range 2).find? fun h =>
    (match d[h]? with | some x => x.owner = some (part, id) | none => false) && !held h true
  own <|> (List.range 2).find? fun h => !held h false

def roundEven (n : Nat) : Nat := (n + 1) / 2 * 2
/-- An even-aligned free run of accumulator slots (R25). -/
def accFor (l : List Task) (n : Nat) : Option Nat :=
  let need := roundEven n
  ((List.range 8).map (2 * ·)).find? fun b => decide (b + need ≤ 16) &&
    l.all fun t => decide (b + need ≤ t.accB) || decide (t.accB + roundEven t.accN ≤ b)

/-- A bank-aligned run of a face on a layer, over banks in service and clear of other reservations and of the spill
area; a layer out of service is reserved in name only (R38, R69). DESIGN CHOICE, assumption 50. -/
def faceFor (q : Cube) (l : List Task) (layer face size : Nat) : Option Nat :=
  let bank := 1 <<< 20
  let n := ceilDiv size bank
  let nb := if face = 2 then 32 else 64
  if size = 0 ∨ !q.fab.insvc.getLsbD layer then some 0
  else
    ((List.range (nb + 1 - n)).find? fun b =>
      (List.range n).all (fun i => !q.fab.banks.contains (layer * 256 + face * 64 + b + i)) &&
      (face != 2 || decide (b * bank + size ≤ 0x1FFF000)) &&
      l.all fun t =>
        let tb := t.baseOf layer face / bank
        let tn := ceilDiv (t.sizeOf face) bank
        tn = 0 || decide (b + n ≤ tb) || decide (tb + tn ≤ b)).map (· * bank)

/-- Bytes reserved per layer in W, N and E (R335). -/
def Rec.sizes (k : Rec) : Vector Nat 3 :=
  #v[bits (k.word 3) 0 15 * 4096, bits (k.word 3) 16 15 * 4096, bits (k.word 3) 32 13 * 4096]

def facesFor (q : Cube) (l : List Task) (k : Rec) : Option (FMap Nat) :=
  let keys := (List.range 8).flatMap fun z => (List.range 3).map fun f => (z, f)
  keys.foldl (fun m (z, f) => match m, faceFor q l z f (k.sizes.toList.getD f 0) with
    | some m, some b => some (fset 0 m (4 * z + f) b)
    | _, _ => none) (some [])

/-- A seat for a rank on a cube, its context block still to be chosen. -/
def seatOn (s : State) (k : Rec) (gi rank : Nat) (c : CubeId) : Option Seat :=
  let l := holders s c
  match freeFrameOf s c, halfFor s c k.part k.id, accFor l k.accN, facesFor (s.cube c) l k with
  | some f, some h, some a, some b =>
    some (c.val, f.val, ⟨k.part, k.id, gi, rank, k.asid, h, a, k.accN, k.sizes, b, 0⟩)
  | _, _, _, _ => none

/-! Fit (R345) and choice of cubes (R347). -/

def taskWatts (s : State) (t : Task) : Nat := match findRec s t.part t.launch with | some k => classWatts k.ecls | none => 0
/-- Committed power: the largest P of the residents. -/
def committed (s : State) (c : CubeId) : Nat := ((s.cube c).frames.toList.filterMap (·.task)).foldl (fun m t => max m (taskWatts s t)) 0
def fitsOn (s : State) (k : Rec) (c : CubeId) : Bool :=
  (s.cube c).frames.toList.all (·.task.isNone) || decide (max (committed s c) (classWatts k.ecls) ≤ (s.cube c).camp.lrep)

/-- L less committed power, offset to stay a natural number. -/
def headroom (s : State) (c : CubeId) : Nat := (s.cube c).camp.lrep + 1000 - committed s c
def insertCube (s : State) (c : CubeId) : List CubeId → List CubeId
  | [] => [c]
  | d :: l => if headroom s d < headroom s c then c :: d :: l else d :: insertCube s c l
/-- Cubes of a partition in the order of R347. -/
def cubesInOrder (s : State) (part : Nat) : List CubeId :=
  let own : List CubeId := match partOf s part with | some d => allCubes.filter fun c => d.cubes.getLsbD c.val | none => []
  own.foldl (fun l c => insertCube s c l) []

/-- The level of a record's queue; that of another home came with its hold request (R352). -/
def queueLevel (s : State) (k : Rec) : Nat := if k.home = s.pkg then (getQueue s k.queue).level else k.lvl
/-- The reservation that holds a cube: the oldest that names it (R350). -/
def reservedBy (s : State) (c : CubeId) : Option Reserve := s.hub.resv.find? fun r => r.cubes.contains c.val
/-- A reservation open for 10 ms keeps gangs of its level and of lower levels off its cubes (R350). -/
def keptOff (s : State) (k : Rec) (gi : Nat) (c : CubeId) : Bool :=
  match reservedBy s c with
  | some r =>
    (r.mature || decide (usCycles 10000 ≤ s.now - r.opened)) && !(r.part = k.part && r.launch = k.id && r.gang = gi) &&
    (match findRec s r.part r.launch with | some o => decide (queueLevel s o ≤ queueLevel s k) | none => false)
  | none => false

/-- Context blocks of the pool in use, and the lowest free ones (R337). -/
def freeBlocks (k : Rec) (n : Nat) : List Nat :=
  let used := k.gangs.flatMap (·.ctxs)
  ((List.range (min (k.word 11) (used.length + n))).filter fun j => !used.contains j).take n

/-- What a gang finds when it is chosen (R346, R351). -/
inductive Fit where
  | seats (l : List Seat)
  /-- it does not fit under R345 -/
  | nofit
  /-- it fits and finds no frame -/
  | noframe
  /-- another resource is short -/
  | short
deriving DecidableEq, Repr

def placeGang (s : State) (k : Rec) (gi : Nat) : Fit :=
  let open_ := (cubesInOrder s k.part).filter fun c => !keptOff s k gi c
  let fit := open_.filter (fitsOn s k)
  let framed := fit.filter fun c => (freeFrameOf s c).isSome
  let ok := framed.filter fun c => (seatOn s k gi 0 c).isSome
  let blocks := freeBlocks k k.gsize
  if fit.length < k.gsize then .nofit
  else if framed.length < k.gsize then .noframe
  else if ok.length < k.gsize ∨ blocks.length < k.gsize then .short
  else
    .seats ((ok.take k.gsize).zipIdx.filterMap fun (c, rank) =>
      (seatOn s k gi rank c).map fun (x, f, t) => (x, f, { t with ctxIdx := blocks.getD rank 0 }))

/-! Admission (R26, R27). -/

/-- `TASKID` (R24). -/
def taskidOf (s : State) (k : Rec) (t : Task) (c : CubeId) (f : FrameId) : Word :=
  let sp := if k.isSpan then t.gang <<< 42 + (k.ctrl 42 6) <<< 36 else 0
  w64 (k.id % (1 <<< 32) + f.val <<< 32 + sp + (k.gsize - 1) <<< 48 + t.rank <<< 50 + c.val <<< 52 + s.pkg <<< 54)
/-- `TILEXYZ` (R21, R23). -/
def tileOf (k : Rec) (t : Task) : Word :=
  let n := t.gang * k.gsize + t.rank
  w64 (n % k.gx + (n / k.gx % k.gy) <<< 16 + (n / (k.gx * k.gy)) <<< 32)

/-- The frame of a task that has issued nothing (R26, R313, R337). -/
def newFrame (s : State) (k : Rec) (t : Task) (c : CubeId) (f : FrameId) : Frame :=
  let q := s.cube c
  { Frame.free with
    task := some t
    regs := { Regs.zero with a := Regs.zero.a.set 0 (w64 (k.word 7)) }
    ctl := { Ctl.zero with
      fmt := BitVec.ofNat 16 (k.word 2) &&& fmtMask, fid := BitVec.ofNat 6 (bits (k.word 2) 16 6)
      taskid := taskidOf s k t c f, tile := tileOf k t, layers := q.fab.insvc }
    priv := { Priv.zero with
      ctxptr := w64 (bits (k.word 9 + 0x22000 * t.ctxIdx) 12 30 <<< 12), ctxva := w64 (bits (k.word 10 + 0x22000 * t.ctxIdx) 0 56) }
    issue := { Issue.zero with pc := w64 (k.word 6) }
    banks := q.fab.banks }

/-- The accumulator slots of an admitted task are cleared (R26). -/
def clearAcc (q : Cube) (t : Task) : Cube :=
  let hit := fun (n : Nat) => decide (t.accB ≤ n) && decide (n < t.accB + roundEven t.accN)
  { q with
    acc := q.acc.filter fun e => !hit (e.1 / 16384)
    status := Vector.ofFn fun i => if hit i.val then 0 else q.status[i] }

/-- A half taken for a record; one that already holds its dictionary stays loaded (R111). -/
def takeHalf (q : Cube) (k : Rec) (h : Nat) : Cube :=
  let d := q.dict.toList.getD h ⟨none, 0, false, []⟩
  let size := bits (k.word 5) 0 15
  let x : DictHalf := if d.owner = some (k.part, k.id) then d else ⟨some (k.part, k.id), size, decide (size = 0), []⟩
  { q with dict := q.dict.set (h % 2) x (Nat.mod_lt _ (by decide)) }

/-- The core of a cube without a running task runs the admitted one. -/
def takeCore (s : State) (q : Cube) (f : FrameId) : Cube :=
  if (q.frame q.running).task.isNone then { q with running := f, runSince := s.now, stallSince := none } else q

/-- DESIGN CHOICE, assumption 51. -/
def seatTask (s : State) (k : Rec) (x : Seat) : State :=
  let c := cubeOf x.1
  let f := frameOf x.2.1
  let t := x.2.2
  s.modCube c fun q => (takeHalf (clearAcc (takeCore s q f) t) k t.half).setFrame f (newFrame s k t c f)

/-- Whether every dictionary half of a gang's seats has been loaded (R111). -/
def halvesLoaded (s : State) (l : List Seat) : Bool :=
  l.all fun x => ((s.cube (cubeOf x.1)).dict.toList.getD x.2.2.half ⟨none, 0, false, []⟩).loaded

def dropResv (s : State) (part id gi : Nat) : State :=
  s.modHub fun h => { h with resv := h.resv.filter fun r => !(r.part = part && r.launch = id && r.gang = gi) }

/-- A record whose gangs have all been admitted or cancelled leaves its queue; the next becomes head (R332, R348). -/
def leaveQueue (s : State) (k : Rec) : State :=
  let x := getQueue s k.queue
  if x.pend.contains k.id ∧ queuePart s k.queue = some k.part then
    modQueue s k.queue fun x =>
      { x with pend := x.pend.filter (· ≠ k.id), headAt := if x.pend.head? = some k.id then s.now else x.headAt
               aged := x.aged && x.pend.head? != some k.id }
  else s

/-- GANG_ADMIT: every member takes its frame in one decision (R27). A gang whose dictionary is still to be loaded
waits, its frames held. -/
def admitGang (s : State) (k : Rec) (gi : Nat) (l : List Seat) : State :=
  let s := l.foldl (fun s x => seatTask s k x) s
  let g : Gang := ⟨gi, if halvesLoaded s l then .running else .waiting, l.map fun x => (x.1, x.2.1), l.map (·.2.2.ctxIdx), [], false, s.now, none⟩
  let s := modRec s k.part k.id fun k => { k with gangs := k.gangs ++ [g], next := k.next + 1 }
  dropResv s k.part k.id gi

/-- V advances by G × 256 / WEIGHT for each gang admitted (R346, R352). -/
def advanceV (s : State) (k : Rec) (n : Nat) : State :=
  modQueue s k.queue fun x => { x with v := x.v.add ⟨n * k.gsize * 256, x.weight⟩ }

/-- Whether the frames of a pre-empted gang's members not yet completed are free, a hold of its own record apart (R347). -/
def framesFree (s : State) (k : Rec) (g : Gang) : Bool :=
  let s' := s.modHub fun h => { h with given := h.given.filter fun x => !(x.part = k.part && x.launch = k.id) }
  g.places.zipIdx.all fun ((c, f), rank) => g.doneR.contains rank || frameFree s' (cubeOf c) (frameOf f)

/-- A pre-empted gang's frames are free and it fits on its cubes (R345, R347). -/
def canReturn (s : State) (k : Rec) (g : Gang) : Bool :=
  framesFree s k g && g.places.zipIdx.all fun ((c, _), rank) =>
    g.doneR.contains rank || (fitsOn s k (cubeOf c) && !keptOff s k g.idx (cubeOf c))

/-- One member comes back: what stayed with the cube, then its block (R35, R248, R319, R324, R329). -/
def returnTask (s : State) (k : Rec) (c : CubeId) (f : FrameId) (p : Parked) : State :=
  let q := s.cube c
  let r := newFrame s k p.task c f
  let r : Frame := { r with
    ctl := { r.ctl with form := p.form }
    priv := { p.priv with landrec := blk s (ctxBase s p.priv.ctxptr) 0x70 }
    issue := { r.issue with haltedU := p.halted, swapped := true, yielded := p.yielded, nid := p.nid }
    bufs := p.bufs
    sync := { r.sync with phase := p.phase }
    fl := { r.fl with heldDue := p.due, heldTraps := p.traps, heldLand := p.land } }
  let spill : FMap Word := p.spill ++ q.spill.filter fun e => spillOwner e.1 ≠ f.val
  let shadow : FMap Taint := p.shadow ++ q.shadow.filter fun e => spillOwner e.1 ≠ f.val
  let q := { takeCore s q f with
    parked := q.parked.erase p
    spill := spill.foldl (fun m (e : Nat × Word) => fset 0 m e.1 e.2) []
    shadow := shadow.foldl (fun m (e : Nat × Taint) => fset 0 m e.1 e.2) [] }
  let s := s.setCube c (q.setFrame f r)
  match loadFrame s c f with
  | some s' =>
    let s := askLeave s' c f (ctxBase s' r.priv.ctxptr)
    s.modFrame c f fun r => loseBufs p.task (~~~q.fab.insvc) q.fab.banks r
  | none => handlerFault s c f 0 0

/-- A pre-empted gang is readmitted whole, to its own cubes and frames, at no cost in V (R32, R347). -/
def returnGang (s : State) (k : Rec) (g : Gang) : State :=
  let s := g.places.zipIdx.foldl (fun s ((c, f), rank) =>
    if g.doneR.contains rank then s
    else
      match (s.cube (cubeOf c)).parked.find? fun p =>
        p.task.part = k.part && p.task.launch = k.id && p.task.gang = g.idx && p.task.rank = rank with
      | some p => returnTask s k (cubeOf c) (frameOf f) p
      | none => s) s
  dropResv (modGang s k.part k.id g.idx fun g => { g with st := .running, admitted := s.now }) k.part k.id g.idx

/-! Reservations and victims (R350, R351). -/

def openResv (s : State) (k : Rec) (gi : Nat) (cubes : List Nat) : State :=
  if s.hub.resv.any fun r => r.part = k.part && r.launch = k.id && r.gang = gi then s
  else s.modHub fun h => { h with resv := h.resv ++ [⟨k.part, k.id, gi, cubes, s.now, false⟩] }

/-- A gang that may be asked to leave: level, admission, cube, identity. -/
abbrev Victim := Nat × Nat × Nat × (Nat × Nat × Nat)

/-- The gang of a resident task that has not been asked to leave. -/
def runningGang (s : State) (t : Task) : Option (Rec × Gang) :=
  match findRec s t.part t.launch with
  | some k => (match k.gang t.gang with | some g => if (g.st = .running ∨ g.st = .waiting) ∧ !g.pre then some (k, g) else none | none => none)
  | none => none

/-- Whether a gang of a record may ask a resident gang to leave: of a lower level, or of its own level, resident for 20 ms,
with the greater V; the V of another home's queue is not known here (R351). DESIGN CHOICE, assumption 33. -/
def mayAsk (s : State) (k o : Rec) (g : Gang) : Bool :=
  let later := k.home = s.pkg && o.home = s.pkg && !((getQueue s o.queue).v.le (getQueue s k.queue).v)
  decide (queueLevel s k < queueLevel s o)
    || (queueLevel s o = queueLevel s k && decide (usCycles 20000 ≤ s.now - g.admitted) && later)

/-- Resident gangs of some frames that a rule lets be asked. -/
def residents (s : State) (l : List (CubeId × FrameId)) (ask : Rec → Gang → Bool) : List Victim :=
  l.filterMap fun (c, f) =>
    match (s.frame c f).task.bind (runningGang s) with
    | some (o, g) => if ask o g then some (queueLevel s o, g.admitted, c.val, (o.part, o.id, g.idx)) else none
    | none => none

/-- Highest level number first, then the latest admitted, then the higher cube number (R351). -/
def victimBefore (a b : Victim) : Bool :=
  decide (b.1 < a.1) || (a.1 = b.1 && (decide (b.2.1 < a.2.1) || (a.2.1 = b.2.1 && decide (b.2.2.1 < a.2.2.1))))
def insertVictim (v : Victim) : List Victim → List Victim
  | [] => [v]
  | w :: l => if victimBefore v w then v :: w :: l else w :: insertVictim v l
/-- Gangs asked to leave in the order of R351, until enough frames are being freed. -/
def askAll (s : State) (l : List Victim) (enough : State → Bool) : State :=
  (l.foldl (fun l v => insertVictim v l) []).foldl (fun s v =>
    if enough s then s else preemptGang s v.2.2.2.1 v.2.2.2.2.1 v.2.2.2.2.2) s

/-- A frame that is free, or that a request already frees. -/
def leaving (s : State) (c : CubeId) (f : FrameId) : Bool :=
  frameFree s c f || (match (s.frame c f).task with
    | some t => (match (findRec s t.part t.launch).bind (·.gang t.gang) with | some g => g.pre | none => false)
    | none => false)
def freeing (s : State) (c : CubeId) : Bool := leaving s c 0 || leaving s c 1

/-- Requests of a gang that fits and finds no frame: on the cubes open to it (R350, R351). -/
def askVictims (s : State) (k : Rec) (gi : Nat) : State :=
  let cubes := (cubesInOrder s k.part).filter fun c => fitsOn s k c && !keptOff s k gi c
  let l := (cubes.filter fun c => !freeing s c).flatMap fun c => [(c, (0 : FrameId)), (c, 1)]
  askAll s (residents s l (mayAsk s k)) fun s => decide (k.gsize ≤ (cubes.filter (freeing s)).length)

/-- A pre-empted gang whose own frames are occupied: their residents may be asked, and a reservation stands on its cubes
(R347, R350, R351). -/
def askBack (s : State) (k : Rec) (g : Gang) : State :=
  let own := (g.places.zipIdx.filter fun (_, rank) => !g.doneR.contains rank).map fun ((c, f), _) => (cubeOf c, frameOf f)
  let s := openResv s k g.idx (own.map fun x => x.1.val)
  if own.all fun x => fitsOn s k x.1 then
    askAll s (residents s (own.filter fun x => !leaving s x.1 x.2) (mayAsk s k)) fun s => own.all fun x => leaving s x.1 x.2
  else s

/-! Holds of spans (R352). -/

/-- Whether a span stands pre-empted as a whole, as far as this package has been told (R32). -/
def spanOut (s : State) (k : Rec) : Bool :=
  k.isSpan && k.stops ≠ [] && allStopped s k && k.gangs.all fun g => g.st = .preempted

/-- Seats of a pre-empted gang: its own places (R347). -/
def ownSeats (s : State) (k : Rec) (g : Gang) : List Seat :=
  g.places.zipIdx.filterMap fun ((c, f), rank) =>
    ((s.cube (cubeOf c)).parked.find? fun p =>
      p.task.part = k.part && p.task.launch = k.id && p.task.gang = g.idx && p.task.rank = rank).map fun p => (c, f, p.task)

/-- A partition's scheduler gives its hold when the span's gang fits here and has its resources, to one span at a time;
until then the gang opens a reservation, or asks for frames, as a gang of a wave does (R350 to R352). A pre-empted span is
held and readmitted in the same way, on its own frames, once its gang here has left them (R20, R32). DESIGN CHOICE,
assumption 54. -/
def giveHold (s : State) (k : Rec) : Bool × State :=
  let hold := fun (s : State) (l : List Seat) => (true, s.modHub fun h => { h with given := h.given ++ [⟨k.part, k.id, l⟩] })
  if s.hub.given.any fun h => h.part = k.part then (false, s)
  else
    match k.gangs, k.ownRank s with
    | g :: _, _ =>
      if g.st ≠ .preempted then (false, s)
      else if canReturn s k g then hold s (ownSeats s k g)
      else if framesFree s k g then (false, openResv s k g.idx (g.places.map Prod.fst))
      else (false, askBack s k g)
    | [], some gi =>
      if 0 < k.doneN then hold s []
      else
        (match placeGang s k gi with
         | .seats l => hold s l
         | .nofit => (false, openResv s k gi (((cubesInOrder s k.part).take k.gsize).map (·.val)))
         | .noframe => (false, askVictims s k gi)
         | .short => (false, s))
    | [], none => (false, s)

/-- What a hold leaves once the span is admitted or the hold released. -/
def dropHold (s : State) (part id : Nat) : State :=
  s.modHub fun h => { h with given := h.given.filter fun x => !(x.part = part && x.launch = id) }
/-- Holds obtained are released (R352). -/
def releaseHolds (s : State) (k : Rec) : State :=
  modRec (dropHold s k.part k.id) k.part k.id fun k => { k with asked := [], holds := [], chosen := none }
/-- A hold counts while its span's choice is no older than 1 ms (R352). -/
def holdTimely (s : State) (k : Rec) : Bool := k.chosen.any fun t => decide (s.now - t < usCycles 1000)

/-- This package's gang of a span whose holds have all been given: it takes the seats kept for it, or comes back (R27, R32). -/
def admitHeld (s : State) (k : Rec) : State :=
  match s.hub.given.find? fun h => h.part = k.part && h.launch = k.id with
  | none => s
  | some h =>
    let s := modRec (dropHold s k.part k.id) k.part k.id fun k => { k with stops := [], holds := [], asked := [], chosen := none }
    match k.gangs, k.ownRank s with
    | g :: _, _ => if g.st = .preempted then returnGang s k g else s
    | [], some gi => if 0 < k.doneN then s else admitGang s k gi h.seats
    | [], none => s

/-- The hold of this package for a span of another home, where it has been asked for and can be given. -/
def serveHold (s : State) (k : Rec) : State :=
  if k.isSpan ∧ k.home ≠ s.pkg ∧ !k.holds.contains s.pkg ∧ k.asked.contains s.pkg then
    match giveHold s k with
    | (true, s) =>
      sendFar (modRec s k.part k.id fun k => { k with holds := [s.pkg] }) k.part (partCube s k.part) k.home 0
        (.spanHeld (wireId s k.id) k.tries)
    | (false, s) => s
  else s

/-! The decision (R346 to R348). -/

/-- What a queue offers: a pre-empted gang, a span that was pre-empted, or its head's next gang. -/
inductive Offer where
  | again (k : Rec) (g : Gang)
  | fresh (k : Rec)
deriving DecidableEq, Repr

/-- The pre-empted gangs of a partition's own records, spans apart. -/
def outGangs (s : State) (part : Nat) : List (Rec × Gang) :=
  s.hub.recs.flatMap fun k =>
    if k.part = part ∧ k.home = s.pkg ∧ !k.isSpan then
      (k.gangs.filter fun g => g.st = .preempted && g.err.isNone).map fun g => (k, g)
    else []
/-- The offer of a queue, if it has one that is admissible: a pre-empted gang that can return, a span that stands pre-empted,
a pre-empted gang whose frames are free, its head's next gang (R347, R348). -/
def offerOf (s : State) (part q : Nat) : Option Offer :=
  let span := (s.hub.recs.find? fun k =>
    k.part = part && k.home = s.pkg && k.queue = q && k.err.isNone && spanOut s k).map Offer.fresh
  let own := (outGangs s part).filter fun (k, g) => k.queue = q && framesFree s k g
  let again := fun (x : Rec × Gang) => Offer.again x.1 x.2
  (own.find? fun (k, g) => canReturn s k g).map again <|> span <|> own.head?.map again <|>
    match (getQueue s q).pend.head?.bind (findRec s part) with
    | some k => if k.deps.any (depOpen s part) then none else some (.fresh k)
    | none => none

/-- A queue whose head has waited 100 ms (R346). -/
def Queue.old (x : Queue) (now : Nat) : Bool := x.aged || (x.pend != [] && decide (usCycles 100000 ≤ now - x.headAt))
/-- Queues of a partition that offer something: level for the choice, V, number (R346). -/
def offers (s : State) (part : Nat) : List (Nat × Ratio × Nat × Offer) :=
  let d := match partOf s part with | some d => d.queues | none => 0
  ((List.range 64).filter fun q => d.getLsbD q).filterMap fun q =>
    (offerOf s part q).map fun o =>
      let x := getQueue s q
      (if x.old s.now then 0 else x.level, x.v, q, o)

def offerBefore (a b : Nat × Ratio × Nat × Offer) : Bool :=
  decide (a.1 < b.1) || (a.1 = b.1 && (!(b.2.1.le a.2.1) || (b.2.1.le a.2.1 && a.2.1.le b.2.1 && decide (a.2.2.1 < b.2.2.1))))
def insertOffer (o : Nat × Ratio × Nat × Offer) : List (Nat × Ratio × Nat × Offer) → List (Nat × Ratio × Nat × Offer)
  | [] => [o]
  | p :: l => if offerBefore o p then o :: p :: l else p :: insertOffer o l

/-- How one offer fares: it is admitted; it does not fit, and others may be admitted past it; it fits and waits for a frame
or another resource, and nothing is admitted past it (R346, R349). -/
inductive Fare where
  | admitted | passed | waits
deriving DecidableEq, Repr

/-- A span at its home: chosen, or admitted once its holds have all been given. A span that comes back adds nothing to V
(R347, R352). -/
def decideSpan (s : State) (k : Rec) : Fare × State :=
  match k.chosen with
  | none => (.passed, modRec s k.part k.id fun k => { k with chosen := some s.now, tries := k.tries + 1, asked := [], holds := [] })
  | some _ =>
    if !(spanPkgs k).all k.holds.contains then (.passed, s)
    else
      let s := tellSpan (admitHeld s k) k.part (partCube s k.part) k (.spanAdmit (wireId s k.id))
      if k.stops ≠ [] then (.admitted, s)
      else
        let s := modRec s k.part k.id fun k => { k with next := k.total }
        (.admitted, leaveQueue (advanceV s k (spanPkgs k).length) k)

/-- One offer judged: an admission, or requests and a reservation on the way (R346, R350, R351). -/
def decideOffer (s : State) (first : Bool) (o : Offer) : Fare × State :=
  match o with
  | .again k g =>
    if canReturn s k g then (.admitted, returnGang s k g)
    else (.passed, if first then openResv s k g.idx (g.places.map Prod.fst) else s)
  | .fresh k =>
    if k.isSpan then decideSpan s k
    else
      match placeGang s k k.next with
      | .seats l =>
        let s := advanceV (admitGang s k k.next l) k 1
        (.admitted, match findRec s k.part k.id with
          | some k' => if k'.total ≤ k'.next then leaveQueue s k' else s
          | none => s)
      | .nofit =>
        (.passed, if first then openResv s k k.next (((cubesInOrder s k.part).take k.gsize).map (·.val)) else s)
      | .noframe => (.waits, askVictims s k k.next)
      | .short => (.waits, s)

/-- Whether a reservation of the offered gang has been open for 10 ms: it is then admitted as soon as it fits (R350). -/
def Offer.ripe (s : State) (o : Offer) : Bool :=
  let (k, gi) := match o with
    | .again k g => (k, g.idx)
    | .fresh k => (k, if k.isSpan then (k.ownRank s).getD 0 else k.next)
  s.hub.resv.any fun r => r.part = k.part && r.launch = k.id && r.gang = gi &&
    (r.mature || decide (usCycles 10000 ≤ s.now - r.opened))
/-- Offers in order; past one that waits only those whose reservation has matured are judged (R346, R350). -/
def decideFrom (s : State) (first waited : Bool) : List (Nat × Ratio × Nat × Offer) → State
  | [] => s
  | o :: l =>
    if waited && !o.2.2.2.ripe s then decideFrom s false true l
    else
      match decideOffer s first o.2.2.2 with
      | (.passed, s') => decideFrom s' false waited l
      | (.waits, s') => decideFrom s' false true l
      | (.admitted, s') => s'

/-- SCHEDULING_DECISION of a partition: holds asked for by other homes are given where they can be, pre-empted gangs whose
frames are occupied ask for them, and the first offer in the order of R346 that can be admitted is; the first of all opens
a reservation when it does not fit. DESIGN CHOICE, assumption 49. -/
def schedulingRun (s : State) (part : Nat) : State :=
  let s := (s.hub.recs.filter (·.part = part)).foldl serveHold s
  let s := ((outGangs s part).filter fun (k, g) => !framesFree s k g).foldl (fun s (k, g) => askBack s k g) s
  decideFrom s true false ((offers s part).foldl (fun l o => insertOffer o l) [])

/-- HEAD_AGING (R346). -/
def headAgingRun (s : State) (q : Nat) : State :=
  let x := getQueue s q
  if x.pend ≠ [] ∧ x.old s.now then modQueue s q fun x => { x with aged := true } else s

/-- RESERVATION_MATURE: once a reservation has been open for 10 ms, the residents of its cubes of the same or a lower level
are asked to leave, in the order of R351 (R350). -/
def reservationMatureRun (s : State) (c : CubeId) : State :=
  match reservedBy s c with
  | none => s
  | some r =>
    match findRec s r.part r.launch with
    | none => s
    | some k =>
      if s.now - r.opened < usCycles 10000 then s
      else
        let s := s.modHub fun h => { h with resv := h.resv.map fun x => if x = r then { x with mature := true } else x }
        let own := r.cubes.filter fun i => match reservedBy s (cubeOf i) with
          | some y => y.part = r.part && y.launch = r.launch && y.gang = r.gang
          | none => false
        let l := own.flatMap fun i => [(cubeOf i, (0 : FrameId)), (cubeOf i, 1)]
        askAll s (residents s l fun o _ => decide (queueLevel s k ≤ queueLevel s o)) fun _ => false

/-! Dictionary loads (R111). -/

/-- The scheduler's own translation under a record's ASID (R342, R353): address, or the reason of cause 10. -/
def hubTranslate (s : State) (part : Nat) (asid : BitVec 16) (n : Need) (va : Nat) : Except Nat Nat :=
  match walk s part asid va with
  | .error k => .error k.reason
  | .ok e =>
    let a := e.addr va
    if !e.allows n then .error 1
    else if paPkg a = s.pkg then
      match partOf s part with
      | some d => if inPart d (paLocal a) then .ok a else .error 4
      | none => .error 4
    else
      match accessCheck s part a n.w with
      | none => .ok a
      | some k => .error (if k = 0 then 1 else k)

/-- The image of a dictionary, or the cause and address where its load fails. -/
def loadImage (s : State) (c : CubeId) (k : Rec) : Except (Nat × Nat) (List Byte) :=
  let va := k.word 4
  let lines := ceilDiv (bits (k.word 5) 0 15 * 48) 64
  let line := fun (i : Nat) =>
    match translate s c k.part k.asid { x := true } (va + 64 * i) .fetch with
    | .error _ => Except.error (10, va + 64 * i)
    | .ok a =>
      if (accessCheck s k.part a false).isSome then .error (10, va + 64 * i)
      else if poisoned s a then .error (12, va + 64 * i)
      else .ok (mergedBytes s a 64)
  (List.range lines).foldl (fun acc i => match acc, line i with
    | .ok l, .ok b => .ok (l ++ b)
    | .error e, _ => .error e
    | _, .error e => .error e) (.ok [])

/-- Bundles of an image, as the half holds them. -/
def imageWords (n : Nat) (b : List Byte) : FMap (BitVec 384) :=
  (List.range n).foldr (fun i m =>
    let w := BitVec.ofNat 384 (leVal ((b.drop (48 * i)).take 48))
    if w = 0 then m else (i, w) :: m) []

/-- Gangs not yet admitted are cancelled, and their reservations go (R343, R350); a span's other packages are told. -/
def cancelRest (s : State) (k : Rec) : State :=
  let s := modRec s k.part k.id fun k => { k with cancelled := k.cancelled + (k.total - k.next), next := k.total }
  let s := s.modHub fun h => { h with
    resv := h.resv.filter fun r => !(r.part = k.part && r.launch = k.id && (k.gang r.gang).isNone) }
  let s := if k.isSpan then
      tellSpan (releaseHolds s k) k.part (partCube s k.part) k (.spanRelease (wireId s k.id) true)
    else s
  leaveQueue s k

/-- A gang's frames and reservations are released and it no longer counts as admitted and open (R25, R337). -/
def releaseGang (s : State) (k : Rec) (gi : Nat) : State :=
  let s := (gangFrames s k.part k.id gi).foldl (fun s (c, f) => freeFrame (closeMsgs s c f) c f false) s
  let s := allCubes.foldl (fun s c => s.modCube c fun q =>
    { q with parked := q.parked.filter fun p => !(p.task.part = k.part && p.task.launch = k.id && p.task.gang = gi) }) s
  let s := modRec s k.part k.id fun k => { k with gangs := k.gangs.filter (·.idx ≠ gi), doneN := k.doneN + 1 }
  dropResv (dropHold s k.part k.id) k.part k.id gi

/-- After a release the core of a cube turns to a resident that is ready. -/
def turnCores (s : State) : State :=
  allCubes.foldl (fun s c =>
    let q := s.cube c
    if (q.frame q.running).task.isNone ∧ (q.frame (otherF q.running)).task.isSome then switchCore s c else s) s

/-- A record of another home leaves once every gang of its span has completed. -/
def tidySpan (s : State) (part id : Nat) : State :=
  match findRec s part id with
  | some k =>
    if k.home ≠ s.pkg ∧ k.gangs = [] ∧ 0 < k.doneN ∧ k.total ≤ k.doneN + k.doneAt.length then
      s.modHub fun h => { h with
        recs := h.recs.filter fun x => !(x.part = part && x.id = id)
        phases := h.phases.filter fun p => !(p.part = part && p.launch = id) }
    else s
  | none => s

/-- The gang ends with an error that its record reports first of all (R343). -/
def endWithError (s : State) (k : Rec) (gi : Nat) (e : Nat × Word × Word) : State :=
  let s := modRec (releaseGang s k gi) k.part k.id fun k => { k with err := k.err <|> some e }
  let s := if k.isSpan then tidySpan (tellSpan s k.part (partCube s k.part) k (.spanDone (wireId s k.id) gi (some e))) k.part k.id else cancelRest s k
  turnCores s

/-- DICTIONARY_LOAD: the halves that a gang in admission needs are read; it runs, or ends with error (R111, R343).
DEDUCED, assumption 52. -/
def dictionaryLoadRun (s : State) (part launch gang : Nat) : State :=
  match findRec s part launch with
  | none => s
  | some k =>
    match k.gang gang with
    | none => s
    | some g =>
      if g.st ≠ .waiting then s
      else
        let frames := gangFrames s k.part k.id gang
        let n := bits (k.word 5) 0 15
        let need := frames.filter fun (c, f) => !(dictOf s c (s.frame c f)).loaded
        let fail := need.findSome? fun (c, _) => match loadImage s c k with | .error e => some e | .ok _ => none
        match fail with
        | some (cause, va) =>
          let s := need.foldl (fun s (c, f) => s.modCube c fun q =>
            match (q.frame f).task with
            | some t => { q with dict := q.dict.set (t.half % 2) ⟨none, 0, false, []⟩ (Nat.mod_lt _ (by decide)) }
            | none => q) s
          let s := need.foldl (fun s (c, _) => logFail s c.val k.part k.asid va (lookup s c k.part k.asid va .fetch)) s
          endWithError s k gang (cause, w64 va, 0)
        | none =>
          let s := need.foldl (fun s (c, f) =>
            match loadImage s c k, (s.frame c f).task with
            | .ok b, some t => s.modCube c fun q =>
                { q with dict := q.dict.set (t.half % 2) ⟨some (k.part, k.id), n, true, imageWords n b⟩ (Nat.mod_lt _ (by decide)) }
            | _, _ => s) s
          modGang s k.part k.id gang fun g => { g with st := .running, admitted := s.now }

/-! Completion (R33, R34, R341 to R343). -/

/-- After `halt` the results in flight land, though no bundle issues (R156); a poisoned one has no bundle at which its
trap could be taken. DEDUCED, assumption 24. -/
def landHalted (s : State) (c : CubeId) (f : FrameId) : State :=
  let r := landArrived (s.frame c f)
  let s := s.setFrame c f { r with fl := { r.fl with land := [] } }
  (r.fl.land.filter (·.poison.isNone)).foldl (landIn c f) s

/-- Every operation of a frame's task has completed (R33). -/
def opsOver (s : State) (c : CubeId) (f : FrameId) : Bool :=
  let x := (s.frame c f).fl
  drained s c f && x.msgs.isEmpty && x.traps.isEmpty

/-- TASK_COMPLETE: the frame is freed; the reservations stay the gang's (R25, R33). -/
def taskCompleteRun (s : State) (c : CubeId) (f : FrameId) : State :=
  let r := s.frame c f
  match r.task with
  | none => s
  | some t =>
    if r.issue.halted ∧ !r.priv.lvl ∧ !r.issue.stopped ∧ opsOver s c f then
      let s := modGang (landHalted s c f) t.part t.launch t.gang fun g => { g with doneR := g.doneR ++ [t.rank] }
      let s := match findRec s t.part t.launch with
        | some k => tellSpan s t.part (partCube s t.part) k (.spanMemberDone (wireId s t.launch) t.gang t.rank)
        | none => s
      settlePreempted (turnCores (freeFrame s c f true)) t.part t.launch t.gang
    else s

/-- Writes of a gang's frames that were accepted are performed (R33). -/
def performAll (s : State) (l : List (Nat × Nat)) : State :=
  ((s.merge.filter fun w => w.src.1 = s.pkg && l.contains (w.src.2.1, w.src.2.2.1)).map (·.mid)).foldl performWrite s

/-- A gang that has failed ends once every member has completed, stopped, or is not resident (R34). -/
def gangStopped (s : State) (k : Rec) (g : Gang) : Bool :=
  (gangFrames s k.part k.id g.idx).all fun (c, f) => (s.frame c f).issue.stopped

/-- GANG_COMPLETE (R33, R34, R343): its writes are visible, its reservations freed. -/
def gangCompleteRun (s : State) (part launch gang : Nat) : State :=
  match findRec s part launch with
  | none => s
  | some k =>
    match k.gang gang with
    | none => s
    | some g =>
      let err := g.err <|> (if k.isSpan then k.err else none)
      match err with
      | some e => if g.st ≠ .waiting ∧ gangStopped s k g then endWithError (performAll s g.places) k gang e else s
      | none =>
        if g.st = .running ∧ g.doneR.length = k.gsize then
          let s := releaseGang (performAll s g.places) k gang
          let s := s.modHub fun h => { h with phases := h.phases.filter fun p =>
            !(p.part = k.part && p.launch = k.id && p.gang = gang && p.kind = .gang) }
          turnCores (if k.isSpan then tidySpan (tellSpan s k.part (partCube s k.part) k (.spanDone (wireId s k.id) gang none)) k.part k.id else s)
        else s

/-- GANG_FAILURE_STOP: every other member that stands at a drain point stops, one that a pre-emption has stopped there
among them (R34).
DEDUCED, assumption 72. -/
def gangFailureRun (s : State) (part launch gang : Nat) : State :=
  match findRec s part launch with
  | none => s
  | some k =>
    (gangFrames s k.part k.id gang).foldl (fun s (c, f) =>
      let r := s.frame c f
      let pre : Bool := match k.gang gang with | some g => g.pre | none => false
      if gangFailed s r ∧ !r.priv.lvl ∧ (atDrainPoint s c f ∨ (pre ∧ r.issue.swapped ∧ r.issue.preempt.isNone)) then
        s.setFrame c f { r with issue := { r.issue with stopped := true } }
      else s) s

/-- BARRIER_PHASE_END: the oldest open phase ends when every member not completed has arrived (R106, R220). -/
def phaseFull (s : State) (p : Phase) : Bool :=
  match findRec s p.part p.launch with
  | none => false
  | some k =>
    let local_ := fun (sr : Nat) (g : Gang) => (List.range k.gsize).all fun rank =>
      g.doneR.contains rank || p.came.contains (sr, rank)
    match p.kind with
    | .gang => (match k.gang p.gang with | some g => local_ (if k.isSpan then g.idx else 0) g | none => true)
    | .span =>
      (List.range (spanPkgs k).length).all fun sr =>
        if k.ownRank s = some sr then (match k.gang sr with | some g => local_ sr g | none => true)
        else k.doneAt.contains sr ||
          (List.range k.gsize).all fun rank => k.doneM.contains (sr, rank) || p.came.contains (sr, rank)

def barrierPhaseRun (s : State) (part launch gang : Nat) (kind : BarKind) (bid : BitVec 4) : State :=
  let mine := s.hub.phases.filter fun p => p.part = part && p.launch = launch && (p.gang = gang || kind == .span) && p.kind = kind && p.bid = bid.toNat && !p.ended
  match mine with
  | [] => s
  | p0 :: l =>
    let p := l.foldl (fun m p => if p.phase < m.phase then p else m) p0
    if phaseFull s p then
      s.modHub fun h => { h with phases := h.phases.map fun x => if x = p then { x with ended := true } else x }
    else s

/-- PREEMPTION_REQUEST for a gang that runs (R31, R32). -/
def preemptionRequestRun (s : State) (part launch gang : Nat) : State :=
  match findRec s part launch with
  | none => s
  | some k =>
    match k.gang gang with
    | some g => if g.st = .running ∧ !g.pre then preemptGang s k.part k.id gang else s
    | none => s

/-- A record is over: its gangs have completed or been cancelled, on every package of a span (R342). -/
def recOver (k : Rec) : Bool :=
  k.gangs.isEmpty && decide (k.total ≤ k.doneN + k.doneAt.length + k.cancelled) && decide (k.total ≤ k.next)

/-- Word 0 of the completion record (R342). -/
def cplWord (k : Rec) (st : Nat) : Word :=
  let cause := match k.err with | some (c, _, _) => c | none => 0
  w64 (k.id <<< 32 + st <<< 24 + (cause % 32) <<< 16)

/-- The completion record: every word of it, or none and event 0x53 (R342). DEDUCED, assumption 53. -/
def writeCpl (s : State) (k : Rec) (st : Nat) : State :=
  let va := k.word 12
  if va = 0 then s
  else
    match hubTranslate s k.part k.asid { w := true } va with
    | .ok a =>
      let (t2, tid) := match k.err with | some (_, x, y) => (x, y) | none => (0, 0)
      let s := gWrite s (a + 8) ((leBytes 8 t2.toNat) ++ leBytes 8 tid.toNat ++ leBytes 8 (k.cancelled % (1 <<< 32)))
      gWrite s a (leBytes 8 (cplWord k st).toNat)
    | .error reason =>
      logEvent (logFail s 255 k.part k.asid va (walk s k.part k.asid va)) 0x53 255 [w64 k.id, w64 st, w64 (match k.err with | some (c, _, _) => c | none => 0), w64 va, w64 reason]

/-- A vector of a function is signalled; a masked one stands pending (R396). PRESUMED, assumption 106. -/
def raiseMsix (h : Hub) (fn v : Nat) : Hub :=
  if (fget MsixVec.zero h.vecs (2048 * fn + v)).mask then { h with mpend := fset false h.mpend (2048 * fn + v) true }
  else { h with msix := h.msix ++ [(fn, v)] }
/-- An entry of the table is written; a pending vector that is no longer masked is signalled. -/
def writeMsix (h : Hub) (fn v : Nat) (x : MsixVec) : Hub :=
  let k := 2048 * fn + v
  let h := { h with vecs := fset MsixVec.zero h.vecs k x }
  if !x.mask && fget false h.mpend k then { h with mpend := fset false h.mpend k false, msix := h.msix ++ [(fn, v)] } else h

/-- RECORD_COMPLETE: completion record, MSI-X vector, dependences (R341 to R343). -/
def recordCompleteRun (s : State) (part launch : Nat) : State :=
  match findRec s part launch with
  | none => s
  | some k =>
    if k.home ≠ s.pkg ∨ !recOver k then s
    else
      let st := if k.depFail then 5 else if k.err.isSome then 4 else 3
      let s := writeCpl s k st
      let s := if Nat.testBit (k.word 13) 15 then
          s.modHub fun h => raiseMsix h k.part (bits (k.word 13) 0 11) else s
      let s := modPart s k.part fun d => { d with retained := ((k.id, st) :: d.retained).take 4096 }
      let s := s.modHub fun h => { h with
        recs := h.recs.filter fun x => !(x.part = k.part && x.id = k.id)
        phases := h.phases.filter fun p => !(p.part = k.part && p.launch = k.id)
        resv := h.resv.filter fun r => !(r.part = k.part && r.launch = k.id) }
      let s := allCubes.foldl (fun s c => s.modCube c fun q =>
        { q with dict := q.dict.map fun d => if d.owner = some (k.part, k.id) then { d with owner := none } else d }) s
      if st = 3 then s
      else
        (s.hub.recs.filter fun o => o.part = k.part && o.deps.contains k.id).foldl (fun s o =>
          cancelRest (modRec s o.part o.id fun o => { o with depFail := true }) o) s

/-! Spans (R352). -/

/-- SPAN_HOLD_REQUEST: packages are asked in ascending identifier, the next once the last hold has been given; this
package gives its own hold, also to a span of another home. -/
def spanHoldRun (s : State) (part launch pkg : Nat) : State :=
  match findRec s part launch with
  | none => s
  | some k =>
    if !k.isSpan then s
    else if k.home ≠ s.pkg then if pkg = s.pkg then serveHold s k else s
    else
      let turn := (spanPkgs k).contains pkg && !k.asked.contains pkg
        && ((spanPkgs k).filter fun p => decide (p < pkg)).all fun p => k.holds.contains p
      if !holdTimely s k ∨ !turn then s
      else if pkg = s.pkg then
        match giveHold s k with
        | (true, s) => modRec s k.part k.id fun k => { k with asked := pkg :: k.asked, holds := pkg :: k.holds }
        | (false, s) => s
      else
        sendFar (modRec s k.part k.id fun k => { k with asked := pkg :: k.asked }) k.part (partCube s k.part) pkg 0
          (.spanHold (wireId s k.id) k.tries k.words (queueLevel s k))

/-- SPAN_HOLD_TIMEOUT: 1 ms after the choice (R352). -/
def spanTimeoutRun (s : State) (part launch : Nat) : State :=
  match findRec s part launch with
  | some k =>
    (match k.chosen with
     | some t =>
       if k.home = s.pkg ∧ usCycles 1000 ≤ s.now - t ∧ !(spanPkgs k).all k.holds.contains then
         tellSpan (releaseHolds s k) k.part (partCube s k.part) k (.spanRelease (wireId s launch) false)
       else s
     | none => s)
  | none => s

/-- What another package's scheduler says of a span (R32 to R34, R220, R352); a request of no fabric partition of this package
is refused (R361). DESIGN CHOICE, assumption 33. -/
def spanArriveRun (s : State) (q : RemoteReq) : State :=
  match partOfFpid s q.fpid with
  | none => remoteArriveRun s q
  | some p =>
    let act := fun (w : Nat) (g : Rec → State) => match findRec s p (ownId s w) with | some k => g k | none => s
    match q.kind with
    | .spanHold w n ws lvl =>
      let s := if (findRec s p (ownId s w)).isSome then s
        else s.modHub fun h => { h with recs := h.recs ++
          [⟨p, w, ws, effClass ws, q.srcPkg, [], 0, 0, 0, none, false, [], [], none, n, [], lvl, [], []⟩] }
      modRec s p (ownId s w) fun k => if k.home = q.srcPkg then { k with asked := [s.pkg], holds := [], tries := n } else k
    | .spanHeld w n => act w fun k =>
        if holdTimely s k && decide (k.tries = n) && k.asked.contains q.srcPkg then
          modRec s p k.id fun k => { k with holds := q.srcPkg :: k.holds }
        else s
    | .spanAdmit w => act w fun k => if k.home = q.srcPkg then admitHeld s k else s
    | .spanRelease w over_ => act w fun k =>
        if k.home ≠ q.srcPkg then s
        else
          let s := releaseHolds s k
          if over_ ∧ k.gangs = [] ∧ k.doneN = 0 then
            s.modHub fun h => { h with
              recs := h.recs.filter fun x => !(x.part = p && x.id = k.id)
              resv := h.resv.filter fun x => !(x.part = p && x.launch = k.id) }
          else s
    | .spanPreempt w => act w fun k =>
        k.gangs.foldl (fun s g => if (g.st = .running ∨ g.st = .waiting) ∧ !g.pre then requestPreempt s p k.id g.idx else s) s
    | .spanStopped w sr => act w fun k =>
        let s := modRec s p k.id fun k => { k with stops := if k.stops.contains sr then k.stops else sr :: k.stops }
        k.gangs.foldl (fun s g => settlePreempted s p k.id g.idx) s
    | .spanFailed w e => act w fun k => modRec s p k.id fun k => { k with err := k.err <|> some e }
    | .spanMemberDone w sr rank => act w fun k => modRec s p k.id fun k => { k with doneM := (sr, rank) :: k.doneM }
    | .spanDone w sr err => act w fun k =>
        let s := modRec s p k.id fun k =>
          { k with doneAt := if k.doneAt.contains sr then k.doneAt else sr :: k.doneAt, err := k.err <|> err }
        tidySpan (k.gangs.foldl (fun s g => settlePreempted s p k.id g.idx) s) p k.id
    | _ => remoteArriveRun s q

end Sys2Proof.Machine
end

