-- ==== Sys2Proof/Machine/Power.lean ====
section
/-! DEFINITION. Campion, power states, leaves, rails, regulator phases, storage repair, ports, telemetry, monitors and the
watchdog (R364 to R366, R373 to R391). -/

namespace Sys2Proof.Machine

def modCamp (s : State) (c : CubeId) (g : Campion → Campion) : State := s.modCube c fun q => { q with camp := g q.camp }

/-- The throttle step moves; a change counts, a rise names its cause (R378, R382). -/
def setStep (k : Campion) (n cause : Nat) : Campion :=
  { k with
    s := n
    changes := if n = k.s then k.changes else min (k.changes + 1) 0xFFFFFFFF
    cause := if k.s < n then cause else k.cause
    calm := if k.s < n then 0 else k.calm }

/-! Limits (R377, R393). -/

/-- A little-endian word of the package record. -/
def recField (l : List Byte) (o : Nat) : Nat := leVal ((l.drop o).take 8)
/-- The SKU limits of the package record; the shipped record's where flash holds none (R377, R393). -/
def recordLimits (t : Teasel) : Limits :=
  let r := t.flash.record
  if r.length < 0x1E0 then Limits.shipped else ⟨recField r 0x10, recField r 0x18, recField r 0x20, recField r 0x28⟩

/-! The schedule (R378, R385). -/

/-- R378, the temperature in units of 0.25 °C: current named first where both limits are passed. DEDUCED, assumption 55. -/
def tickStep (k : Campion) (amps temp : Nat) : Campion :=
  let k := { k with amps := amps, temp := temp }
  if k.lim.icmax < amps ∨ 4 * k.lim.tthr < temp then
    { setStep k (min 15 (k.s + 1)) (if k.lim.icmax < amps then 2 else 1) with calm := 0 }
  else if 10 * amps < 9 * k.lim.icmax ∧ temp + 12 < 4 * k.lim.tthr then
    if k.calm + 1 = 10 ∧ 0 < k.s then { setStep k (k.s - 1) 0 with calm := 0 } else { k with calm := k.calm + 1 }
  else { k with calm := 0 }

/-- The ramp envelope, in hundredths of a watt, after a tick of 10 µs: WPMS watts per ms toward the draw, or toward the
draw a waiting leave will add (R384, R385). DEDUCED, assumption 55. -/
def envelope (k : Campion) (ramp draw : Nat) : Nat :=
  let goal := 100 * (draw + match k.reqs with | r :: _ => 100 * r.cls | [] => 0)
  if ramp = 0 then goal
  else if k.env < goal then min goal (k.env + ramp) else max goal (k.env - ramp)

/-- A rise beyond the envelope raises s (R385). -/
def rampStep (k : Campion) (ctl : CubeCtl) : Campion :=
  let draw := Config.coreDraw k.amps
  let env := envelope k ctl.ramp draw
  let k := { k with env := env }
  if ctl.ramp ≠ 0 ∧ env < 100 * draw then setStep k (min 15 (k.s + 1)) 4 else k

/-- A started operation of the cube that names a layer. -/
def layerBusy (q : Cube) (z : Nat) : Bool := q.frames.toList.any fun r => r.fl.cubeA.any fun e => e.mask.getLsbD z

/-- A draw below the floor, or a fall below the envelope where the ramp is limited, runs ballast on every layer in service that is ACTIVE or GATED
and in no started operation's mask; what ballast reaches or leaves is used then (R376, R385). -/
def ballastStep (q : Cube) (now : Nat) : Cube :=
  let k := q.camp
  let draw := Config.coreDraw k.amps
  let low : Bool := decide ((q.ctl.ramp ≠ 0 ∧ 100 * draw < k.env) ∨ draw < q.ctl.floor) && decide (draw < k.lrep)
  let may := fun (z : Nat) => low && q.fab.insvc.getLsbD z && !layerBusy q z &&
    (match (q.pow.toList.getD z ⟨.withdrawn, 0, 0, 0, false⟩).st with | .active | .gated => true | _ => false)
  let m := (List.range 8).foldl (fun (m : BitVec 8) z => if may z then m ||| (1#8 <<< z) else m) 0
  { q with
    camp := { k with ballast := m }
    pow := Vector.ofFn fun z =>
      if m.getLsbD z.val then { q.pow[z] with st := .active, since := now }
      else if k.ballast.getLsbD z.val ∧ q.pow[z].st = .active then { q.pow[z] with since := now }
      else q.pow[z] }

/-- CAMPION_TICK (R378, R379, R385). -/
def campionTickRun (s : State) (c : CubeId) (amps temp : Nat) : State :=
  s.modCube c fun q => ballastStep { q with camp := rampStep (tickStep q.camp amps temp) q.ctl } s.now

/-- FAST_COMPARATOR: above 1.2 × ICMAX (R378). -/
def fastComparatorRun (s : State) (c : CubeId) (amps : Nat) : State :=
  modCamp s c fun k => if 12 * k.lim.icmax < 10 * amps then setStep k 15 3 else k

/-- The limit L of R381; T in units of 0.25 °C, so that 40 W per °C are 10 W per unit and the sum is whole. -/
def limitL (k : Campion) : Nat := min k.lim.lcap (828 - 10 * (k.temp - 340) - 52 * k.s)
/-- L_REPORT (R381). -/
def lReportRun (s : State) (c : CubeId) : State := modCamp s c fun k => { k with lrep := limitL k }

/-! Thermal trip (R383). -/

/-- Layers that are in service and awake go to RETENTION. -/
def allRetained (q : Cube) (now : Nat) : Cube :=
  { q with pow := q.pow.map fun p => match p.st with
      | .active | .gated => { p with st := .retention, since := now, waking := false }
      | .retention => { p with waking := false }
      | _ => p }

/-- THERMAL_TRIP: a sensor above TTRIP. -/
def thermalTripRun (s : State) (c : CubeId) (temp : Nat) : State :=
  let q := s.cube c
  if q.camp.trip.isSome ∨ temp ≤ 4 * q.camp.lim.ttrip then s
  else
    logEvent (s.modCube c fun q => allRetained { q with camp := { q.camp with trip := some s.now, temp := temp } } s.now)
      0x41 c.val [w64 temp]

/-- THERMAL_RESUME: every sensor below TTRIP − 10 °C. DEDUCED, assumption 56. -/
def thermalResumeRun (s : State) (c : CubeId) (temp : Nat) : State :=
  modCamp s c fun k =>
    if k.trip.isSome ∧ temp + 40 < 4 * k.lim.ttrip then setStep { k with trip := none, temp := temp } 15 1 else k

/-- The gangs with a member on a cube. -/
def gangsOn (s : State) (c : CubeId) : List (Rec × Gang) :=
  s.hub.recs.flatMap fun k => (k.gangs.filter fun g => g.places.any fun p => p.1 = c.val).map fun g => (k, g)

/-- TRIP_TIMEOUT: after 1 s the core rails go, and every gang with a member on the cube ends with STATE 4, CAUSE 0. -/
def tripTimeoutRun (s : State) (c : CubeId) : State :=
  match (s.cube c).camp.trip with
  | some t =>
    if s.now - t < usCycles 1000000 ∨ (s.cube c).fab.coreOff then s
    else
      let l := gangsOn s c
      let s := s.modCube c fun q => { q with fab := { q.fab with coreOff := true } }
      l.foldl (fun s (k, g) => endWithError s k g.idx (0, 0, 0)) s
  | none => s

/-! Leaves (R269, R384). -/

/-- The class of a leave that a frame holds. -/
def heldClass (now : Nat) (r : Frame) : Nat := match r.leave with | some (k, till) => if now < till then k else 0 | none => 0
/-- LEAVE_GRANT: the first request, once its class with the classes granted on the cube, the task's own among them, is at
most 8 and the envelope allows it; a leave granted before is replaced (R269, R384). -/
def leaveGrantRun (s : State) (c : CubeId) : State :=
  let q := s.cube c
  match q.camp.reqs with
  | [] => s
  | r :: rest =>
    let f := frameOf r.frame
    let held := heldClass s.now (q.frame 0) + heldClass s.now (q.frame 1)
    let draw := Config.coreDraw q.camp.amps
    let room : Bool := q.ctl.ramp = 0 || decide (100 * (draw + 100 * r.cls) ≤ q.camp.env)
    if 8 < r.cls + held ∨ !room then s
    else
      (modCamp s c fun k => { k with reqs := rest }).modFrame c f fun x =>
        if x.task.isSome then { x with leave := some (r.cls, s.now + usCycles r.dur) } else x

/-- LEAVE_EXPIRY (R269). -/
def leaveExpiryRun (s : State) (c : CubeId) (f : FrameId) : State :=
  s.modFrame c f fun r => match r.leave with
    | some (_, till) => if till ≤ s.now then { r with leave := none } else r
    | none => r

/-! Rails and layer states (R374 to R376). -/

/-- Trimmed voltages in units of 5 mV: 0.600 V to 0.800 V about a nominal 0.720 V. DEDUCED, assumption 56. -/
def trimNominal : Nat := 144
def trimWithin (want : Nat) : Nat := min 160 (max 120 want)
/-- The margin of the package record, in mV at 0x030, in whole steps (R374, R393). DEDUCED, assumption 56. -/
def trimMargin (t : Teasel) : Nat := ceilDiv (recField t.flash.record 0x30) 5
/-- One rail moves a step toward the lowest passing value (R374). -/
def trimOne (now want : Nat) : Nat :=
  let w := trimWithin want
  if now < w then now + 1 else if w < now then now - 1 else now
/-- RAIL_TRIM, once in 10 ms: `pass` holds, per band rail, the lowest value at which its replica paths pass without margin. -/
def railTrimRun (s : State) (c : CubeId) (pass : List Nat) : State :=
  if s.now - (s.cube c).fab.trimAt < usCycles 10000 then s
  else s.modCube c fun q =>
    let upd := fun (m : FMap Nat) (i : Nat) =>
      let now := fget trimNominal m i
      fset trimNominal m i (match pass[i]? with | some p => trimOne now (p + trimMargin s.teasel) | none => now)
    { q with fab := { q.fab with trim := (List.range 512).foldl upd q.fab.trim, trimAt := s.now } }

def modPow (s : State) (c : CubeId) (z : Fin 8) (g : LayerPow → LayerPow) : State :=
  s.modCube c fun q => { q with pow := q.pow.set z (g q.pow[z]) }

/-- RAIL_RISE_DONE: a rail that has reached its target no longer delays a start (R375). -/
def railRiseRun (s : State) (c : CubeId) (z : Fin 8) : State :=
  modPow s c z fun p => if p.ready ≤ s.now then { p with ready := 0 } else p

/-- LAYER_GATE: 64 cycles without an operation, ballast or face access (R376). -/
def layerGateRun (s : State) (c : CubeId) (z : Fin 8) : State :=
  let q := s.cube c
  modPow s c z fun p =>
    if p.st = .active ∧ 64 ≤ s.now - p.since ∧ !layerBusy q z.val ∧ !q.camp.ballast.getLsbD z.val then { p with st := .gated, since := s.now } else p

/-- A buffer of the layer is filling, be its task in a frame or not, or a leave is held on the cube. -/
def layerNeeded (q : Cube) (z : Nat) (now : Nat) : Bool :=
  let fills := fun (l : Vector (Option Buf) 64) => l.toList.any fun b => match b with
    | some b => b.st = .filling && decide (spLayer b.base.toNat ≤ z) && decide (z ≤ spLayer b.base.toNat + b.nl)
    | none => false
  q.frames.toList.any (fun r => (match r.leave with | some (_, till) => decide (now < till) | none => false) || fills r.bufs) ||
    q.parked.any fun p => fills p.bufs

/-- LAYER_RETENTION: 1 ms in GATED (R376). -/
def layerRetentionRun (s : State) (c : CubeId) (z : Fin 8) : State :=
  let q := s.cube c
  modPow s c z fun p =>
    if p.st = .gated ∧ usCycles 1000 ≤ s.now - p.since ∧ !layerNeeded q z.val s.now then { p with st := .retention, since := s.now } else p

/-- LAYER_WAKE: 2 µs after an operation has asked for a layer in RETENTION (R376); a face access wakes it in its own
global hold. -/
def layerWakeRun (s : State) (c : CubeId) (z : Fin 8) : State :=
  if (s.cube c).camp.trip.isSome then s
  else modPow s c z fun p =>
    if p.st = .retention ∧ p.waking ∧ p.ready ≤ s.now then { p with st := .active, since := s.now, waking := false } else p

/-! Failures (R366, R388, R389). -/

/-- A layer begins to leave service: tasks keep it until their drain points, free frames lose it at once (R10, R36); it
passes no later self-test (R390). -/
def dropLayer (q : Cube) (z : Nat) (bus : Bool) : Cube :=
  let m : BitVec 8 := 1#8 <<< z
  settleWithdrawn { q with
    fab := { q.fab with
      insvc := q.fab.insvc &&& ~~~m, failing := q.fab.failing ||| m
      lost := match q.fab.phys.toList.getD z none with | some p => q.fab.lost ||| (1#9 <<< p) | none => q.fab.lost
      busBad := if bus then q.fab.busBad ||| m else q.fab.busBad }
    frames := q.frames.map fun r => if r.task.isNone then { r with ctl := { r.ctl with layers := r.ctl.layers &&& ~~~m } } else r }

/-- Operations that name a parked layer and have not landed do not land (R388). -/
def barLayer (q : Cube) (z : Nat) : Cube :=
  { q with frames := q.frames.map fun r =>
      let bar := fun (e : CubeEnt) => if e.mask.getLsbD z then { e with barred := e.barred <|> some z } else e
      { r with fl := { r.fl with cubeA := r.fl.cubeA.map bar } } }

/-- IVR_PHASE_FAILURE: the first of a column group is carried, the second parks it and withdraws the layer, unless that has
been withdrawn before. -/
def ivrRun (s : State) (c : CubeId) (z : Fin 8) (group : Fin 16) (rail : Fin 4) : State :=
  let key := 16 * z.val + group.val
  let n := fget 0 (s.cube c).fab.phases key
  let pay := [w64 z.val, w64 group.val, w64 rail.val]
  let s := s.modCube c fun q => { q with fab := { q.fab with phases := fset 0 q.fab.phases key (n + 1) } }
  if n = 0 then logEvent s 0x42 c.val pay
  else if n = 1 then
    let out : Bool := (s.cube c).pow[z].st = .withdrawn
    let s := if out then s else
      (modPow s c z fun p => { p with st := .parked, since := s.now }).modCube c fun q => dropLayer (barLayer q z.val) z.val false
    logEvent s 0x43 c.val pay
  else s

/-- An error counted: corrected ones within a span of cycles. -/
def ErrCount.add (e : ErrCount) (bad : Bool) (now span : Nat) : ErrCount :=
  if bad then { e with bad := e.bad + 1 } else { e with times := now :: e.times.filter fun t => decide (now - t < span) }
/-- The second uncorrectable error, or so many corrected ones, reach the limit. -/
def ErrCount.reached (e : ErrCount) (n : Nat) (bad : Bool) : Bool := if bad then decide (2 ≤ e.bad) else decide (n ≤ e.times.length)

def modWear (s : State) (c : CubeId) (g : Wear → Wear) : State :=
  s.modCube c fun q => { q with fab := { q.fab with wear := g q.fab.wear } }

/-- An error of a line of global memory, a day's 16 corrected ones at most: the line moves to a spare with its contents and
its poison; a shared-memory bank has 64 spares, and without one the line keeps its errors (R65, R76, R389). -/
def memError (s : State) (l : Nat) (bad : Bool) : State :=
  if !populated l then s
  else
    let c := cubeOf (localCube l)
    let w := (s.cube c).fab.wear
    let s := if bad then setPoison s (s.pkg <<< 42 + l) true else s
    let e := (fget ErrCount.zero w.lines (l / 64)).add bad s.now (usCycles 86400000000)
    let bank := bits l 6 8
    let used := fget 0 w.spares bank
    let note := fun (e : ErrCount) (w : Wear) => { w with lines := fset ErrCount.zero w.lines (l / 64) e }
    if !e.reached 16 bad then modWear s c (note e)
    else if l < 1 <<< 39 then logEvent (modWear s c (note ErrCount.zero)) 0x51 c.val [0, w64 l]
    else if used < 64 then
      logEvent (modWear s c fun w => { note ErrCount.zero w with spares := fset 0 w.spares bank (used + 1) }) 0x51 c.val [1, w64 l]
    else modWear s c (note e)

/-- An error of a face line: 64 corrected ones of its bank within 1 s, or the second uncorrectable one, retire the bank
(R36, R389). -/
def faceError (s : State) (c : CubeId) (z face off : Nat) (bad : Bool) : State :=
  let key := bankKey z face off
  let e := (fget ErrCount.zero (s.cube c).fab.wear.banks key).add bad s.now (usCycles 1000000)
  let s := if bad then s.modCube c fun q => setFacePoison q (faceKey z face off) true else s
  let s := modWear s c fun w => { w with banks := fset ErrCount.zero w.banks key e }
  if !e.reached 64 bad ∨ (s.cube c).fab.banks.contains key then s
  else
    let s := s.modCube c fun q =>
      let banks := key :: q.fab.banks
      { q with fab := { q.fab with banks := banks }
               frames := q.frames.map fun r => if r.task.isNone then { r with banks := banks } else r }
    logEvent s 0x51 c.val [2, w64 z, w64 face, w64 (off / (1 <<< 20))]

/-- A vertical bus is retired, and with it its layer (R36). -/
def retireBus (s : State) (c : CubeId) (z : Fin 8) : State :=
  if (s.cube c).fab.busBad.getLsbD z.val then s
  else logEvent (s.modCube c fun q => dropLayer q z.val true) 0x51 c.val [3, w64 z.val]

/-- STORAGE_REMAP: an error of storage is counted, and the storage is remapped or retired at its limit; more than 1,000
retries of a vertical bus within 1 ms, or a wire with none of 32 spares left, retire the bus (R389). DEDUCED, assumption 108. -/
def storageRun (s : State) (x : StorageFault) : State :=
  match x with
  | .memLine l bad => memError s l.toNat bad
  | .faceLine c z face off bad => faceError s c z.val face.val off.toNat bad
  | .busRetry c z n =>
    let l := (s.now, n) :: (fget [] (s.cube c).fab.wear.retries z.val).filter fun x => decide (s.now - x.1 < usCycles 1000)
    let s := modWear s c fun w => { w with retries := fset [] w.retries z.val l }
    if 1000 < (l.map Prod.snd).sum then retireBus s c z else s
  | .busWire c z =>
    let used := fget 0 (s.cube c).fab.wear.wires z.val
    if used < 32 then modWear s c fun w => { w with wires := fset 0 w.wires z.val (used + 1) } else retireBus s c z

/-- Whether a request's line left on a port to another package and has not been answered (R365, R366). -/
def onPort (s : State) (c : CubeId) (port : BitVec 4) (l : Line) : Bool :=
  match l.pa with
  | some a => (l.st == .sent || l.st == .accepted) && paPkg a ≠ s.pkg &&
      (s.cube c).fab.pmap.toList.getD (laneOf a % 8) 0 = port
  | none => false

/-- Whether the port of an address's lane is a given one, and the address another package's (R365). -/
def portOf (s : State) (c : CubeId) (port : BitVec 4) (a : Nat) : Bool :=
  paPkg a ≠ s.pkg && (s.cube c).fab.pmap.toList.getD (laneOf a % 8) 0 = port

/-- Whether a message's header to another package left on a port, unanswered (R366). -/
def farWaits (s : State) (c : CubeId) (port : BitVec 4) (m : MsgAct) : Bool :=
  let lane := match m.pa with | some a => laneOf a | none => 0
  m.ended.isNone && (match m.far with | some g => !g.accepted | none => false) &&
    (s.cube c).fab.pmap.toList.getD (lane % 8) 0 = port
/-- Whether lines of a message to another package left on a port, and its end has not been heard (R366). -/
def farSent (s : State) (c : CubeId) (f : FrameId) (port : BitVec 4) (m : MsgAct) : Bool :=
  m.ended.isNone && (match m.far with | some g => g.kept | none => []).any fun x =>
    (s.cube c).fab.pmap.toList.getD (farLane s c f m x.1 % 8) 0 = port

/-- A request that may be under way on a port: its operation, kind, addresses, and how the operation leaves. -/
structure OnWire where
  info : OpInfo
  kind : Nat
  va   : Word
  pa   : Nat
  drop : Frame → Frame

/-- The requests of a frame that may be under way on a port: lines of loads, stores, atomics and flags sent and not
answered; the next access of a started copy, of a cube operation's operands; a message's header and lines (R366). -/
def onWire (s : State) (c : CubeId) (f : FrameId) (port : BitVec 4) : List OnWire :=
  let r := s.frame c f
  let x := r.fl
  let noLs := fun (id : Nat) (r : Frame) =>
    let r := releaseTag r id
    { r with fl := { r.fl with
        ls := r.fl.ls.filter (·.id ≠ id), fly := r.fl.fly.filter (·.id ≠ id), var := r.fl.var.filter (·.id ≠ id) } }
  let noCopy := fun (id : Nat) (r : Frame) => { r with fl := { r.fl with copyA := r.fl.copyA.filter (·.id ≠ id) } }
  let ls := (x.ls ++ x.fly).filterMap fun e =>
    (e.lines.find? (onPort s c port)).map fun l => (⟨e.info, e.op.kind, l.va, l.pa.getD 0, noLs e.id⟩ : OnWire)
  let cp := x.copyA.filterMap fun e =>
    match e.line with
    | some l => if onPort s c port l then some (⟨e.info, 1, l.va, l.pa.getD 0, noCopy e.id⟩ : OnWire) else none
    | none => ((copyRest s c f e).find? (portOf s c port)).map fun a => ⟨e.info, 0, 0, a, noCopy e.id⟩
  let cube := x.cubeA.filterMap fun e => e.glob.findSome? fun l =>
    match l.st, translateF s c f { r := true } l.va.toNat .cube with
    | .queued, .ok a => if portOf s c port a then
        some (⟨e.info, 0, l.va, a, fun r => { r with fl := { r.fl with cubeA := r.fl.cubeA.filter (·.id ≠ e.id) } }⟩ : OnWire) else none
    | _, _ => none
  let msg := (x.msgs.filter fun m => farWaits s c port m || farSent s c f port m).map fun m =>
    (⟨m.info, 3, w64 (recW m.rc 0), m.pa.getD (farPkg s r m <<< 42), fun r =>
      { r with fl := { r.fl with msgs := r.fl.msgs.filter (·.msgid ≠ m.msgid) } }⟩ : OnWire)
  ls ++ cp ++ cube ++ msg

/-- Requests whose responses the failed port loses, by a free choice each, are remote access faults of reason 5.
DESIGN CHOICE, assumption 57. -/
def losePort (s : State) (c : CubeId) (f : FrameId) (port : BitVec 4) : State :=
  let l := onWire s c f port
  let hit := (l.zipIdx.filter fun x => (Config.free (s.fresh + x.2)).getLsbD 0).map Prod.fst
  hit.foldl (fun s x => refuseAccess s c f x.info (x.va, x.pa, 5) x.kind x.drop) { s with fresh := s.fresh + l.length }

/-- Whether a request that was sent on a port still awaits its answer. The answer to a message's lines is its end, which is
awaited once all of them have left. DESIGN CHOICE, assumption 57. -/
def portWaits (s : State) (c : CubeId) (port : BitVec 4) : Bool :=
  let allLeft := fun (m : MsgAct) => match m.far with | some g => g.left = [] | none => false
  [(0 : FrameId), 1].any fun f =>
    let x := (s.frame c f).fl
    (x.ls ++ x.fly).any (fun e => e.lines.any (onPort s c port)) || x.copyA.any (fun e => e.line.any (onPort s c port)) ||
      x.msgs.any fun m => farWaits s c port m || (allLeft m && farSent s c f port m)

/-- Whether a cube's stations have a port: a port bears the number of its first lane (R364). -/
def portExists (q : Cube) (p : Nat) : Bool :=
  match q.fab.stations.toList.getD (p / 4) .x4 with
  | .x4 => decide (p % 4 = 0) | .x2 => decide (p % 2 = 0) | .x1 => true
/-- The lowest port of a cube that has not failed (R366). DESIGN CHOICE, assumption 57. -/
def nextPort (q : Cube) : Option Nat := (List.range 16).find? fun p => portExists q p && !q.fab.deadPorts.contains p

/-- PORT_FAILURE: the port fails and with it what was under way; its lanes move to a surviving port once what was sent on
it has been answered or has failed, and until then they carry nothing new (R366). The event after the first is that move. -/
def portFailureRun (s : State) (c : CubeId) (port newPort : BitVec 4) : State :=
  let first := !(s.cube c).fab.deadPorts.contains port.toNat
  let s := if first then losePort (losePort s c 0 port) c 1 port else s
  let s := s.modCube c fun q => { q with fab := { q.fab with
    deadPorts := if first then port.toNat :: q.fab.deadPorts else q.fab.deadPorts } }
  if portWaits s c port then s
  else postHeld (s.modCube c fun q =>
    if q.fab.deadPorts.contains newPort.toNat ∨ !portExists q newPort.toNat then q
    else { q with fab := { q.fab with pmap := q.fab.pmap.map fun p => if p = port then newPort else p } })

/-! Telemetry, monitors, watchdog (R386, R387, R391, R400). -/

/-- The values that a sample reads beside s and L: 44 domain currents of each cube (32 of band rails summed per layer and
band, 9 SRAM rails, 3 of the base die), the currents of 8 HBM stacks, 38 sensors of each cube (R373, R386). -/
def sampleCount : Nat := 4 * 44 + 8 + 4 * 38
/-- Four 16-bit values of a telemetry word. -/
def packWord (l : List Nat) (i : Nat) : Word := w64 ((List.range 4).foldl (fun n j => n + min 0xFFFF (l.getD (4 * i + j) 0) <<< (16 * j)) 0)
/-- TELEMETRY_SAMPLE: a record of 1 KiB: its time in word 0, then 16 bits each s and L of the cubes and the values read; 64
are kept; one for each millisecond once Teasel runs (R386, R400). DESIGN CHOICE, assumption 58. -/
def telemetryRun (s : State) (values : List Word) : State :=
  if !s.teasel.up ∨ s.now - s.teasel.telAt < usCycles 1000 then s else
  let own := allCubes.map (fun c => (s.cube c).camp.s) ++ allCubes.map fun c => limitL (s.cube c).camp
  let all := own ++ ((values.map fun (v : Word) => v.toNat) ++ List.replicate sampleCount 0).take sampleCount
  let rec_ := w64 (s.now / 2700) :: (List.range 127).map (packWord all)
  { s with
    fresh := s.fresh + values.length
    teasel := { s.teasel with telem := (rec_ :: s.teasel.telem).take 64, telAt := s.now, kick := s.now } }

/-- A sample's bin (R387). -/
def binOf (m : Monitor) (v : Nat) : Nat := if v < m.base then 0 else min 15 ((v - m.base) >>> m.shift)
def sat32 (n : Nat) : Nat := min n 0xFFFFFFFF
/-- MONITOR_SAMPLE (R387). -/
def takeSample (m : Monitor) (v : Nat) : Monitor :=
  let i := binOf m v
  let v := sat32 v
  { m with
    min := if m.count = 0 then v else Nat.min m.min v
    max := Nat.max m.max v
    count := sat32 (m.count + 1)
    bins := m.bins.set (i % 16) (sat32 (m.bins.toList.getD i 0 + 1)) (Nat.mod_lt _ (by decide)) }
def monitorSampleRun (s : State) (c : CubeId) (m : Fin 8) (v : Nat) : State :=
  s.modCube c fun q => { q with mons := q.mons.set m (takeSample q.mons[m] v) }

/-- WATCHDOG_TIMEOUT: 250 ms without a write (R391). -/
def watchdogRun (s : State) : State :=
  if s.teasel.fallback ∨ s.now - s.teasel.kick < usCycles 250000 then s
  else
    let lim := { recordLimits s.teasel with lcap := 560 }
    let s := logEvent s 0x44 255 []
    let s := allCubes.foldl (fun s c => s.modCube c fun q =>
      { q with camp := setStep { q.camp with lim := lim } (max 4 q.camp.s) 5, ctl := { q.ctl with floor := 0, ramp := 50 } }) s
    s.modTeasel fun t => { t with fallback := true }

end Sys2Proof.Machine
end

