-- ==== Sys2Proof/Machine/System.lean ====
section
/-! DEFINITION. Control registers and system instructions: `crr`, `crw`, `sys`, `rfe`, `tlbi`, `dbg` (R272 to R276, R311
to R315). -/

namespace Sys2Proof.Machine

/-! What a register reads as (R311). -/

/-- SPLIT of a throttle step (R380, R382). -/
def splitOf (n : Nat) : Nat := if n < 8 then 0 else if n < 12 then 1 else 2
/-- R382. -/
def pgstepWord (q : Cube) : Nat :=
  q.camp.s + splitOf q.camp.s <<< 4 + q.camp.cause <<< 8 + q.camp.lrep <<< 16 + q.camp.changes <<< 32
/-- Forms of slots at or above ACCN read as zero (R248). -/
def accformWord (r : Frame) : BitVec 32 := r.ctl.form &&& BitVec.ofNat 32 ((1 <<< (2 * min 16 (accN r))) - 1)
/-- R312. -/
def privWord (r : Frame) : Nat := bnat r.priv.lvl + r.priv.disp.toNat <<< 8

/-- The value of a control register at a level; `none` where no read is allowed (R311). DEDUCED, assumption 77. -/
def crnRead (q : Cube) (r : Frame) (crn : Nat) : Option Word :=
  let s := r.priv.lvl
  let n := fun (v : Nat) => some (w64 v)
  let atS := fun (v : Word) => if s then some v else none
  match crn with
  | 0x000 => some r.ctl.taskid
  | 0x001 => some r.ctl.tile
  | 0x002 => n r.ctl.layers.toNat
  | 0x008 => n r.ctl.fmt.toNat
  | 0x009 => n r.ctl.fid.toNat
  | 0x00A => n r.ctl.fstat.toNat
  | 0x00B => n r.ctl.cstat.toNat
  | 0x00C => n (woffWord r.ctl)
  | 0x00D => n r.taint.ct.toNat
  | 0x00E => n q.ctl.fmterr.toNat
  | 0x00F => n (accformWord r).toNat
  | 0x010 => n (pgstepWord q)
  | 0x100 => n (privWord r)
  | 0x101 => atS q.ctl.tvec
  | 0x102 => atS r.priv.tcause
  | 0x103 => atS r.priv.tinfo[0]
  | 0x104 => atS r.priv.tinfo[1]
  | 0x105 => atS r.priv.tinfo[2]
  | 0x106 => atS r.priv.tinfo[3]
  | 0x107 => atS r.priv.landrec
  | 0x108 => atS r.priv.ctxptr
  | 0x109 => atS r.priv.ctxva
  | 0x10A => n q.ctl.dplimit.toNat
  | 0x200 => atS (w64 q.ctl.floor)
  | 0x201 => atS (w64 q.ctl.ramp)
  | 0x210 => n q.ctl.unsched
  | 0x211 => n q.ctl.grantq
  | 0x212 => n q.ctl.grantmax
  | 0x213 => n q.ctl.tokexp
  | 0x214 => n q.ctl.orphto
  | k =>
    if 0x040 ≤ k ∧ k < 0x060 then
      (if k % 4 = 3 then n 0 else n (q.ctl.bec.toList.getD (k - 0x040) 0).toNat)
    else none

/-! What a write does (R311). -/

/-- A register write: `none` where it is not allowed or its value is out of range. -/
abbrev CrwEff := Option ((Frame → Frame) × (Cube → Cube))

/-- The effect of a write at a level; hardware flags of the same boundary survive it (R61, R144). -/
def crnWrite (r0 : Frame) (crn : Nat) (v : Word) : CrwEff :=
  let s := r0.priv.lvl
  let w := v.toNat
  let onF := fun (g : Frame → Frame) => some (g, (id : Cube → Cube))
  let onC := fun (ok : Bool) (g : CubeCtl → CubeCtl) =>
    if s && ok then some ((id : Frame → Frame), fun (q : Cube) => { q with ctl := g q.ctl }) else none
  match crn with
  | 0x00A => onF fun r => { r with ctl := writeFstat r.ctl r.issue.lflags v }
  | 0x00B => onF fun r => { r with ctl := writeCstat r.ctl r.issue.lflags v }
  | 0x00D => if s then onF fun r => { r with taint := { r.taint with ct := v.setWidth 32 } } else none
  | 0x00E => onC true fun k => { k with fmterr := v.setWidth 32 }
  | 0x00F => if s then onF fun r => { r with ctl := { r.ctl with form := v.setWidth 32 } } else none
  | 0x100 => if s then onF fun r =>
      { r with priv := { r.priv with disp := if bits w 8 2 = 3 then r.priv.disp else BitVec.ofNat 2 (bits w 8 2) } } else none
  | 0x101 => onC true fun k => { k with tvec := w64 (bits w 6 50 <<< 6) }
  | 0x108 => if s then onF fun r => { r with priv := { r.priv with ctxptr := w64 (bits w 12 30 <<< 12) } } else none
  | 0x109 => if s then onF fun r => { r with priv := { r.priv with ctxva := w64 (bits w 0 56) } } else none
  | 0x10A => onC true fun k => { k with dplimit := if bits w 0 32 = 0 then 1 else v.setWidth 32 }
  | 0x200 => onC (decide (bits w 0 10 ≤ 828)) fun k => { k with floor := bits w 0 10 }
  | 0x201 => onC true fun k => { k with ramp := bits w 0 16 }
  | 0x210 =>
    let x := bits w 0 15
    onC (decide (x % 64 = 0) && decide (x ≤ 16384)) fun k => { k with unsched := x }
  | 0x211 =>
    let x := bits w 0 19
    onC (decide (x % 4096 = 0) && decide (4096 ≤ x) && decide (x ≤ 262144)) fun k => { k with grantq := x }
  | 0x212 =>
    let x := bits w 0 6
    onC (decide (1 ≤ x) && decide (x ≤ 32)) fun k => { k with grantmax := x }
  | 0x213 =>
    let x := bits w 0 10
    onC (decide (1 ≤ x) && decide (x ≤ 1000)) fun k => { k with tokexp := x }
  | 0x214 =>
    let x := bits w 0 20
    onC (decide (100 ≤ x) && decide (x ≤ 1000000)) fun k => { k with orphto := x }
  | k =>
    if 0x040 ≤ k ∧ k < 0x060 then
      onC true fun c =>
        if k % 4 = 3 then c else { c with bec := c.bec.set ((k - 0x040) % 32) (v.setWidth 32) (Nat.mod_lt _ (by decide)) }
    else none

def slotCrr (x : Reg) (crn : BitVec 12) (k : Ctx) (s : State) : SlotRes :=
  match crnRead (s.cube k.c) k.r crn.toNat with
  | some v => .ok (landW k .x x 2 v 0)
  | none => .error (k.illegal (crn.setWidth 64))
def execCrr (x : Reg) (crn : BitVec 12) (s : State) : Host.Outcome State Fault Refusal := solo s (.crr x crn) (slotCrr x crn)

def slotCrw (x : Reg) (crn : BitVec 12) (k : Ctx) (_ : State) : SlotRes :=
  match crnWrite k.r crn.toNat (k.rd .x x) with
  | some (g, h) => .ok { act := fun s => (s.modFrame k.c k.f g).modCube k.c h }
  | none => .error (k.illegal (crn.setWidth 64))
def execCrw (x : Reg) (crn : BitVec 12) (s : State) : Host.Outcome State Fault Refusal := solo s (.crw x crn) (slotCrw x crn)

/-! `sys`, `rfe`, `tlbi`, `dbg`. -/

/-- The software trap is taken once the bundle has committed (R273). -/
def slotSys (code : BitVec 16) (_ : Ctx) (_ : State) : SlotRes := .ok { sys := some code }
def execSys (code : BitVec 16) (s : State) : Host.Outcome State Fault Refusal := solo s (.sys code) (slotSys code)

def slotRfe (k : Ctx) (_ : State) : SlotRes := if k.r.priv.lvl then .ok { rfe := true } else .error k.illegal
def execRfe (s : State) : Host.Outcome State Fault Refusal := solo s .rfe slotRfe

/-- Whether an invalidation names an entry: a page under the task's own identifier, an identifier, or everything
(R275, R359). -/
def tlbiHits (kind : Nat) (part : Nat) (asid : BitVec 16) (w : Word) (e : TlbEnt) : Bool :=
  match kind % 4 with
  | 0 => e.hits part asid (bits w.toNat 0 56)
  | 1 => e.part = part && e.asid = w.setWidth 16
  | _ => e.part = part

/-- Every TLB named drops the entries before the bundle ends (R275, R359). DEDUCED, assumption 65. -/
def slotTlbi (kind : BitVec 3) (adr : Reg) (k : Ctx) (_ : State) : SlotRes :=
  let w := k.rd .a adr
  if !k.r.priv.lvl then .error k.illegal
  else if kind.toNat % 4 = 1 ∧ bits w.toNat 16 48 ≠ 0 then .error k.illegal
  else
    .ok { act := fun s =>
      let own : BitVec 16 := match k.r.task with | some t => t.asid | none => 0
      let hit := tlbiHits kind.toNat k.r.part own w
      if kind.toNat < 4 then s.modCube k.c fun q => tlbDrop q hit
      else
        match partOf s k.r.part with
        | some d => (allCubes.filter fun c => d.cubes.getLsbD c.val).foldl (fun s c => s.modCube c fun q => tlbDrop q hit) s
        | none => s.modCube k.c fun q => tlbDrop q hit }
def execTlbi (kind : BitVec 3) (adr : Reg) (s : State) : Host.Outcome State Fault Refusal :=
  solo s (.tlbi kind adr) (slotTlbi kind adr)

/-- The stop itself is judged before the commit; the slot has no other effect (R276). -/
def slotDbg (_code : BitVec 16) (_ : Ctx) (_ : State) : SlotRes := .ok {}
def execDbg (code : BitVec 16) (s : State) : Host.Outcome State Fault Refusal := solo s (.dbg code) (slotDbg code)

end Sys2Proof.Machine
end

