-- ==== Sys2Proof/Machine/Manage.lean ====
section
/-! DEFINITION. Bring-up, firmware and recovery, the mailbox with its commands, attestation, partitions, pins, and debug
(R9, R353, R360, R370, R371, R390, R392 to R402). -/

namespace Sys2Proof.Machine

/-! Images and records in module flash (R393, R394). -/

/-- n bytes of a list from an offset; short lists read as zero. -/
def sliceB (l : List Byte) (o n : Nat) : List Byte := (List.range n).map fun i => l.getD (o + i) 0
def wordAt (l : List Byte) (o : Nat) : Nat := leVal (sliceB l o 8)

def imgSeq (l : List Byte) : Nat := wordAt l 0
def imgLen (l : List Byte) : Nat := wordAt l 8
/-- An image verifies: body against digest, signature over header bytes 0x00 to 0x4F (R394). -/
def imageOk (key l : List Byte) : Bool :=
  decide (0xC0 + imgLen l ≤ l.length) &&
  (Config.sha512 (sliceB l 0xC0 (imgLen l)) == sliceB l 0x10 64) &&
  Config.ed25519Verify key (Config.sha512 (sliceB l 0 0x50)) (sliceB l 0x50 64)
/-- The package record stands: signature, ICMAX and LCAP (R393). -/
def recordOk (key l : List Byte) : Bool :=
  decide (l.length = 0x1E0) && Config.ed25519Verify key (Config.sha512 (sliceB l 0 0x1A0)) (sliceB l 0x1A0 64)
    && decide (recField l 0x10 ≤ 1150) && decide (recField l 0x28 ≤ 828)
/-- The device private key of the package record (R393). -/
def deviceKey (record : List Byte) : List Byte := sliceB record 0x160 64
/-- The sequence record of an active image, signed with a device key (R394). -/
def seqRecord (key img : List Byte) : List Byte :=
  let head := leBytes 8 (imgSeq img) ++ (Config.sha512 (sliceB img 0 0x50)).take 64
  head ++ (Config.ed25519Sign key (Config.sha512 head)).take 64 ++ List.replicate 56 0
/-- The sequence record's signature holds under the device public key of the package record (R395). -/
def seqOkUnder (record sq : List Byte) : Bool :=
  Config.ed25519Verify (sliceB record 0x40 32) (Config.sha512 (sliceB sq 0 0x48)) (sliceB sq 0x48 64)
def minSeq (t : Teasel) : Nat := recField t.flash.record 8

/-! Partition descriptors (R371). -/

/-- A descriptor of 64 bytes. -/
structure Desc where
  w0 : Nat
  asidtab : Nat
  pintab : Nat
  queues : Nat
  pmap : List Nat
deriving DecidableEq, Repr

def descOf (l : List Byte) (o : Nat) : Desc :=
  ⟨wordAt l o, wordAt l (o + 8), wordAt l (o + 16), wordAt l (o + 24),
   (List.range 4).map fun i => wordAt l (o + 32 + 8 * i)⟩
def Desc.cubes (d : Desc) : BitVec 4 := BitVec.ofNat 4 d.w0

/-- A table of n bytes lies in the cubes of a mask, in populated space. -/
def tableIn (cubes : BitVec 4) (a n : Nat) : Bool :=
  a % 65536 = 0 && (List.range (ceilDiv n 65536)).all fun i =>
    populated (a + 65536 * i) && cubes.getLsbD (localCube (a + 65536 * i))
/-- One descriptor by itself. -/
def Desc.ok (d : Desc) : Bool :=
  decide (d.w0 < 1 <<< 28) && bits d.w0 4 12 = 0 && d.cubes ≠ 0
    && tableIn d.cubes d.asidtab 0x100000 && tableIn d.cubes d.pintab 2113536
    && (List.range 4).all fun i => d.cubes.getLsbD i || d.pmap.getD i 0 = 0
    && decide (d.pmap.getD i 0 < 1 <<< 32)
/-- A set: each stands, no two share a cube or a queue, and each cube belongs to one of them (R370, R371). -/
def descsOk (l : List Desc) : Bool :=
  l.all Desc.ok && l.foldl (fun m d => m ||| d.cubes) 0 = 0xF && l.zipIdx.all fun (d, i) => l.zipIdx.all fun (e, j) =>
    i = j || (d.cubes &&& e.cubes = 0 && Nat.land d.queues e.queues = 0)

/-- The partition of a descriptor; one whose cubes stay keeps its identifiers and retained records. -/
def partOfDesc (old : Option Part) (d : Desc) : Part :=
  let keep : Bool := match old with | some p => p.cubes = d.cubes | none => false
  { cubes := d.cubes, fpid := BitVec.ofNat 12 (bits d.w0 16 12), asidtab := d.asidtab, pintab := d.pintab
    queues := BitVec.ofNat 64 d.queues
    pmap := Vector.ofFn fun i => BitVec.ofNat 32 (d.pmap.getD i.val 0)
    nextId := match old with | some p => if keep then p.nextId else 1 | none => 1
    retained := match old with | some p => if keep then p.retained else [] | none => [] }

/-- A descriptor set put in force: partitions, and the port maps of their cubes, lanes of dead ports on surviving ones (R366,
R371). -/
def applyDescs (s : State) (l : List Desc) : State :=
  let parts := l.zipIdx.map fun (d, i) => partOfDesc s.hub.parts[i]? d
  let s := s.modHub fun h => { h with parts := parts }
  postHeld <| allCubes.foldl (fun s c =>
    match l.find? fun d => d.cubes.getLsbD c.val with
    | some d =>
      let w := d.pmap.getD c.val 0
      s.modCube c fun q =>
        let live := fun (p : Nat) => if q.fab.deadPorts.contains p then (nextPort q).getD p else p
        { q with fab := { q.fab with pmap := Vector.ofFn fun i => BitVec.ofNat 4 (live (bits w (4 * i.val) 4)) } }
    | none => s) s

/-- The bytes of the descriptor set in force (R398). -/
def descBytes (s : State) : List Byte :=
  s.hub.parts.flatMap fun d =>
    leBytes 8 (d.cubes.toNat + d.fpid.toNat <<< 16) ++ leBytes 8 d.asidtab ++ leBytes 8 d.pintab ++ leBytes 8 d.queues.toNat
      ++ d.pmap.toList.flatMap fun p => leBytes 8 p.toNat

/-- Where the record's descriptors do not stand: one partition of all cubes and queues.
DESIGN CHOICE, assumption 64. -/
def wholePackage : Desc := ⟨0xF, 0, 0x100000, 0xFFFFFFFFFFFFFFFF, []⟩

/-! Boot (R9, R390, R392). -/

/-- The factory map: physical layers but the spare, in ascending order (R9). -/
def factoryMap (spare : Nat) : List Nat := (List.range 9).filter (· ≠ spare)
/-- Logical layers after the self-test: the lowest failing index takes the spare (R9, R390). A seed of 9 to 15 names no
spare. DESIGN CHOICE, assumption 85. -/
def layerMap (spare : Nat) (pass : BitVec 9) : List (Option Nat) × Option Nat :=
  let m := factoryMap spare
  let bad := (List.range 8).find? fun i => !pass.getLsbD (m.getD i 0)
  let takes := pass.getLsbD spare && decide (spare < 9)
  ((List.range 8).map fun i =>
    if pass.getLsbD (m.getD i 0) then some (m.getD i 0)
    else if bad = some i ∧ takes then some spare else none,
   if takes ∧ bad.isNone then some spare else none)

/-- A cube after its self-test, trim with its margin, memory training and link-up. -/
def bootCube (now : Nat) (lim : Limits) (spare : Nat) (pass : BitVec 9) (links : List Bool) (stations : List StationMode)
    (margin : Nat) (trim : List Nat) (hbm : BitVec 2) : Cube :=
  let (l, sp) := layerMap spare pass
  let m := (List.range 8).foldl (fun (m : BitVec 8) i => if (l.getD i none).isSome then m ||| (1#8 <<< i) else m) 0
  let free := { Frame.free with ctl := { Ctl.zero with layers := m } }
  { Cube.zero with
    frames := Vector.replicate 2 free
    camp := { Cube.zero.camp with lim := lim, lrep := min 828 lim.lcap }
    pow := Vector.ofFn fun z => ⟨if m.getLsbD z.val then .active else .withdrawn, 0, 0, 0, false⟩
    fab := { Cube.zero.fab with
      phys := Vector.ofFn fun i => l.getD i.val none, spare := sp, insvc := m
      stations := Vector.ofFn fun i => stations.getD i.val .x4
      trim := (List.range 512).foldl (fun m i =>
        match trim[i]? with | some p => fset trimNominal m i (trimWithin (p + margin)) | none => m) []
      hbm := hbm
      trimAt := now
      deadPorts := (List.range 16).filter fun i => !(links.getD i true) } }

/-- What a reset leaves of the machine: module flash, mask ROM, the host's memory, the other packages, and the layers that
have failed (R390). PRESUMED, assumption 63. -/
def coldState (s : State) : State :=
  { State.reset with
    pkg := s.pkg, fresh := s.fresh, agenda := s.agenda
    cubes := s.cubes.map fun q => { Cube.zero with fab := { Cube.zero.fab with lost := q.fab.lost } }
    hub := { Hub.zero with remotes := s.hub.remotes }
    teasel := { Teasel.zero with flash := s.teasel.flash, romVersion := s.teasel.romVersion, vendorKey := s.teasel.vendorKey
                                 bus := s.teasel.bus } }

/-- Recovery: the mask ROM's window and nothing else (R395). DESIGN CHOICE, assumption 17. -/
def intoRecovery (s : State) : State := s.modTeasel fun t => { t with recov := true, up := false }

/-- Steps 4 to 7 of R392 once record and image stand. -/
def bootOn (s : State) (i : BootInput) : State :=
  let r := s.teasel.flash.record
  let lim := recordLimits s.teasel
  let seed := recField r 0x38
  let pass := fun (c : CubeId) => i.pass.getD c.val 0x1FF &&& ~~~(s.cube c).fab.lost
  let links := fun (c : Nat) => (List.range 16).map fun j => i.ports.getD (16 * c + j) true
  let modes := fun (c : Nat) => (List.range 4).map fun j => i.stations.getD (4 * c + j) .x4
  let hbmOf := fun (c : Nat) => BitVec.ofNat 2 (bnat (i.hbm.getD (2 * c) true) + 2 * bnat (i.hbm.getD (2 * c + 1) true))
  let boot := fun (c : CubeId) =>
    let q := bootCube s.now lim (bits seed (4 * c.val) 4) (pass c) (links c.val) (modes c.val) (trimMargin s.teasel)
      (i.trim.getD c.val []) (hbmOf c.val)
    { q with fab := { q.fab with lost := (s.cube c).fab.lost } }
  let s := { s with cubes := Vector.ofFn boot }
  let all := (List.range 4).map fun k => descOf r (0x60 + 64 * k)
  let used := all.takeWhile fun d => d.cubes ≠ 0
  let good := descsOk used && decide (used ≠ []) && (all.drop used.length).all fun d => d = ⟨0, 0, 0, 0, [0, 0, 0, 0]⟩
  let s := applyDescs s (if good then used else [wholePackage])
  let s := allCubes.foldl (fun s c =>
    let q := s.cube c
    let s := logEvent s 0x11 c.val [w64 ((List.range 8).foldl (fun n i => n + ((q.fab.phys.toList.getD i none).getD 15) <<< (4 * i)) 0)]
    let s := if q.fab.insvc = 0 then logEvent s 0x13 c.val [0] else s
    let s := if q.fab.hbm ≠ 3 then logEvent s 0x13 c.val [2, w64 (~~~q.fab.hbm).toNat] else s
    if q.fab.deadPorts ≠ [] then logEvent s 0x13 c.val [1, w64 (q.fab.deadPorts.foldl (fun m p => m + 1 <<< p) 0)] else s) s
  let s := s.modTeasel fun t =>
    let stale := decide (imgSeq t.flash.active ≠ wordAt t.flash.seqrec 0)
    { t with up := true, kick := s.now
             flash := { t.flash with seqrec := if stale then seqRecord (deviceKey r) t.flash.active else t.flash.seqrec } }
  logEvent s 0x10 255 []

/-- POWER_ON_RESET and the boot of a package reset (R392). -/
def bootRun (s : State) (i : BootInput) : State :=
  let s := coldState s
  let t := s.teasel
  if !imageOk t.vendorKey t.flash.active then intoRecovery s
  else if !recordOk t.vendorKey t.flash.record then logEvent (intoRecovery s) 0x12 255 [0]
  else bootOn s i

/-- POWER_LOSS: only module flash keeps its contents. While an update is being copied, the power goes before the copy or
during it, which leaves an active image that does not verify (R394). DESIGN CHOICE, assumption 107. -/
def powerLossRun (s : State) (duringCopy : Bool) : State :=
  let torn := duringCopy && s.teasel.copying
  (coldState s).modTeasel fun t =>
    { t with power := false, flash := { t.flash with active := if torn then t.flash.staging.take 64 else t.flash.active } }

/-- What a boot meets that no event names: free values. DESIGN CHOICE, assumption 17. -/
def freeBoot (n : Nat) : BootInput where
  pass := (List.range 4).map fun c => (Config.free (n + c)).setWidth 9
  ports := (List.range 64).map (Config.free (n + 4)).getLsbD
  stations := (List.range 16).map fun i => match bits (Config.free (n + 5)).toNat (2 * i) 2 with | 0 => .x4 | 1 => .x2 | _ => .x1
  hbm := (List.range 8).map (Config.free (n + 6)).getLsbD
  trim := (List.range 4).map fun c => (List.range 512).map fun i => (Config.free (n + 7 + 512 * c + i)).toNat

/-- RECOVERY_SUBMIT: an accepted image is written to both copies, status 1 is reported and the package resets and boots (R392,
R395). -/
def recoveryRun (s : State) : State :=
  let t := s.teasel
  if !t.recov then s
  else
    let raw := (List.range 0xC0).map fun i => fget 0 t.window i
    let img := (List.range (min (0xC0 + imgLen raw) 0x3FFFFF0)).map fun i => fget 0 t.window i
    let rec_ := t.flash.record
    let floor := recordOk t.vendorKey rec_ && decide (minSeq t ≤ imgSeq img)
    let last := !seqOkUnder rec_ t.flash.seqrec || decide (wordAt t.flash.seqrec 0 ≤ imgSeq img)
    if imageOk t.vendorKey img ∧ floor ∧ last then
      let s := s.modTeasel fun x => { x with flash := { x.flash with active := img, staging := img } }
      (bootRun { s with fresh := s.fresh + 2055 } (freeBoot s.fresh)).modTeasel fun x => { x with recStatus := 1 }
    else s.modTeasel fun x => { x with recStatus := 2 }

/-! Completion by force (R383, R392). -/

/-- A live record ends at once: its gangs stop, and it completes with STATE 4 and CAUSE 0. -/
def abortRec (s : State) (k : Rec) : State :=
  let s := k.gangs.foldl (fun s g => releaseGang s k g.idx) s
  let s := modRec s k.part k.id fun k =>
    { k with err := some (0, 0, 0), depFail := false, cancelled := k.cancelled + (k.total - k.next), next := k.total
             doneAt := List.range k.total }
  let s := match findRec s k.part k.id with | some k => leaveQueue s k | none => s
  let s := releaseHolds s k
  if k.isSpan then tellSpan s k.part (partCube s k.part) k (.spanDone (wireId s k.id) ((k.ownRank s).getD 0) (some (0, 0, 0))) else s

/-- FUNCTION_LEVEL_RESET of a partition: each of its live records completes with STATE 4, those that depend on another too
(R392). DEDUCED, assumption 62. -/
def flrRun (s : State) (p : Nat) : State :=
  let l := s.hub.recs.filter fun k => k.part = p
  let s := l.foldl abortRec s
  let s := l.foldl (fun s k => recordCompleteRun (modRec s p k.id fun k => { k with depFail := false }) p k.id) s
  let s := s.modHub fun h => { h with recs := h.recs.filter fun k => k.part ≠ p }
  turnCores ((List.range 64).foldl (fun s q =>
    if queuePart s q = some p then modQueue s q fun x => { x with pend := [], aged := false } else s) s)

/-! The mailbox (R396, R397). -/

def mailOf (s : State) (fn : Fin 4) : Mailbox := s.teasel.mail[fn]
def reqByte (s : State) (fn : Fin 4) (o : Nat) : Byte := fget 0 (mailOf s fn).req o
def reqWord (s : State) (fn : Fin 4) (o : Nat) : Nat := leVal ((List.range 8).map fun i => reqByte s fn (o + i))

/-- A request's head word (R397). -/
structure Head where
  code : Nat
  part : Nat
  cube : Nat
  action : Nat
  clean : Bool
deriving DecidableEq, Repr

def headOf (s : State) (fn : Fin 4) : Head :=
  let w := reqWord s fn 0
  ⟨bits w 0 8, bits w 8 2, bits w 10 2, bits w 16 8, bits w 12 4 = 0 && bits w 24 40 = 0⟩

/-- The response and status of a command; every byte not listed is zero. -/
def reply (s : State) (fn : Fin 4) (status : Nat) (l : List (Nat × List Byte)) : State :=
  let bytes := l.foldl (fun m (o, b) => b.zipIdx.foldl (fun m (x, i) => fset 0 m (o + i) x) m) ([] : FMap Byte)
  s.modTeasel fun t => { t with mail := t.mail.set fn { t.mail[fn] with resp := bytes, status := status } }
def done (s : State) (fn : Fin 4) (l : List (Nat × List Byte) := []) : State := reply s fn 1 l
def refuse (s : State) (fn : Fin 4) (reason : Nat) : State := reply s fn 2 [(0, [BitVec.ofNat 8 reason])]

/-- Request bytes outside the listed fields are zero. -/
def onlyFields (s : State) (fn : Fin 4) (l : List (Nat × Nat)) : Bool :=
  (mailOf s fn).req.all fun e => decide (512 ≤ e.1) || decide (e.1 < 8) || l.any fun (o, n) => decide (o ≤ e.1) && decide (e.1 < o + n)

/-- Who may issue a command: function 0 alone, any function, or one for its own partition (R396). -/
inductive Who where
  | zero | any | own
deriving DecidableEq, Repr

/-- Whether a command has no action code: any but 0 is refused (R397). -/
def noAction (code : Nat) : Bool := decide (code ≤ 4) || code = 6 || code = 7

/-- A command at its doorbell: enabled for its code and action, checked for its function and for the fields it lists.
DEDUCED, assumption 59. -/
def command (s : State) (fn : Fin 4) (who : Who) (code : Nat) (acts : Nat → Bool) (fields : List (Nat × Nat)) (named : Bool)
    (body : State → Head → State) : State :=
  let h := headOf s fn
  let live := s.teasel.up && (fn.val = 0 || decide (fn.val < s.hub.parts.length))
  let busy : Bool := (mailOf s fn).status = 0 && (code != 3 || (s.teasel.copying && fn.val = 0))
  if !live ∨ h.code ≠ code ∨ !acts h.action ∨ busy then s
  else
    let s := s.modTeasel fun t => { t with kick := s.now }
    let mine : Bool := fn.val = 0 || (match who with | .zero => false | .any => h.part = fn.val | .own => h.part = fn.val)
    if !mine then reply s fn 3 []
    else if !h.clean ∨ (noAction code ∧ h.action ≠ 0) ∨ (!named ∧ h.cube ≠ 0) ∨ s.hub.parts.length ≤ h.part ∨ !onlyFields s fn fields then refuse s fn 0xFF
    else body s h

/-- The cube that a request names within its partition (R397). -/
def namedCube (s : State) (h : Head) : Option CubeId :=
  match partOf s h.part with
  | some d => (allCubes.filter fun c => d.cubes.getLsbD c.val)[h.cube]?
  | none => none
def isAct (n : Nat) (a : Nat) : Bool := a = n
def anyAct (_ : Nat) : Bool := true
def busBytes (s : State) (a n : Nat) : List Byte := (List.range n).map fun i => fget 0 s.teasel.bus (a + i)

/-- UNKNOWN_COMMAND (R396). -/
def unknownRun (s : State) (fn : Fin 4) : State :=
  let h := headOf s fn
  if s.teasel.up ∧ (fn.val = 0 ∨ fn.val < s.hub.parts.length) ∧ (h.code = 0 ∨ 9 < h.code) ∧ (mailOf s fn).status ≠ 0 then reply s fn 4 [] else s

/-- PACKAGE_RESET: command 0x01 (R392, R397). -/
def packageResetRun (s : State) (fn : Fin 4) (i : BootInput) : State :=
  let ok := command s fn .zero 1 anyAct [] false fun s _ => done s fn
  let h := headOf s fn
  if (mailOf ok fn).status = 1 ∧ h.code = 1 ∧ h.action = 0 ∧ s.teasel.up ∧ fn.val = 0 ∧ h.clean ∧ h.cube = 0
      ∧ h.part < s.hub.parts.length ∧ onlyFields s fn [] then bootRun ok i
  else ok

/-- WRITE_PARTITION_DESCRIPTORS: command 0x02 (R371). -/
def descriptorsRun (s : State) (fn : Fin 4) : State :=
  command s fn .zero 2 anyAct [(8, 8), (16, 8)] false fun s _ =>
    let a := reqWord s fn 8
    let n := reqWord s fn 16
    if a % 64 ≠ 0 ∨ n = 0 ∨ 4 < n then refuse s fn 0xFF
    else
      let l := (List.range n).map fun i => descOf (busBytes s (a + 64 * i) 64) 0
      if !descsOk l then refuse s fn 1
      else
        let live := (List.range 4).any fun p =>
          (s.hub.recs.any fun k => k.part = p) &&
          (match s.hub.parts[p]?, l[p]? with
           | some d, some e => d.cubes ≠ e.cubes
           | some _, none => true
           | none, _ => false)
        if live then refuse s fn 2 else done (applyDescs s l) fn

/-- The pin code of one page written (R360). -/
def setPin (s : State) (tab l code : Nat) : State :=
  let e := pinIndex l
  let a := s.pkg <<< 42 + tab + e / 4
  let b := (gRead s a 1)
  let sh := 2 * (e % 4)
  gWriteVal s a 1 (b - (bits b sh 2) <<< sh + code <<< sh)

/-- Whether a request that was checked against the pins of a range of pages has still to perform: a write of another package
in the merge buffer, or an open request of a message with a global destination (R360). -/
def pinBusy (s : State) (a n : Nat) : Bool :=
  let hit := fun (lo len : Nat) => decide (lo < a + 65536 * n) && decide (a < lo + len)
  s.merge.any (fun w => w.src.1 ≠ s.pkg && paPkg w.pa = s.pkg && hit (paLocal w.pa) w.bytes.length) ||
  allCubes.any fun c => (s.cube c).reqs.any fun q => q.recv.isNone && !q.closed && hit (paLocal q.dst) q.len

/-- PIN_TABLE_CHANGE: command 0x03 (R360); it runs on, its status 0, while a request checked against the old entries has
still to perform, and the entries change when none has. DESIGN CHOICE, assumption 84. -/
def pinRun (s : State) (fn : Fin 4) : State :=
  command s fn .own 3 anyAct [(8, 8), (16, 8), (24, 8)] false fun s h =>
    let a := reqWord s fn 8
    let n := reqWord s fn 16
    let code := reqWord s fn 24
    if a % 65536 ≠ 0 ∨ n = 0 ∨ 1 <<< 24 < n ∨ 3 < code then refuse s fn 0xFF
    else
      match partOf s h.part with
      | none => refuse s fn 0xFF
      | some d =>
        if !(List.range n).all (fun i => inPart d (a + 65536 * i)) then refuse s fn 1
        else if code = 2 then refuse s fn 2
        else if pinBusy s a n then s.modTeasel fun t => { t with mail := t.mail.set fn { t.mail[fn] with status := 0 } }
        else
          let s := (List.range n).foldl (fun s i => setPin s d.pintab (a + 65536 * i) code) s
          done s fn [(8, leBytes 8 n)]

/-- COMMIT_LIMIT_SET: command 0x04, a whole set or none (R377). -/
def limitsRun (s : State) (fn : Fin 4) : State :=
  command s fn .zero 4 anyAct [(8, 8), (16, 8), (24, 8), (32, 8), (40, 8)] false fun s _ =>
    let mask := reqWord s fn 8
    let lim : Limits := ⟨reqWord s fn 16, reqWord s fn 24, reqWord s fn 32, reqWord s fn 40⟩
    let top := recordLimits s.teasel
    if 15 < mask then refuse s fn 0xFF
    else if top.icmax < lim.icmax ∨ top.tthr < lim.tthr ∨ top.ttrip < lim.ttrip ∨ top.lcap < lim.lcap then refuse s fn 1
    else if lim.ttrip ≤ lim.tthr then refuse s fn 2
    else
      let s := (allCubes.filter fun c => Nat.testBit mask c.val).foldl (fun s c => modCamp s c fun k => { k with lim := lim }) s
      done (s.modTeasel fun t => { t with fallback := false }) fn

/-- Ranges of SEL for a source (R397). -/
def selOk (src sel : Nat) : Bool := match src with
  | 3 => decide (sel ≤ 523)
  | 4 => decide (sel ≤ 37)
  | _ => sel = 0

/-- MONITOR_CONFIGURE: command 0x05, action 0; an action that no row names is refused here (R387, R397). -/
def monConfigureRun (s : State) (fn : Fin 4) : State :=
  command s fn .own 5 (fun a => a != 1) [(8, 8), (16, 8), (24, 8), (32, 8), (40, 8)] true fun s h =>
    let m := reqWord s fn 8
    let src := reqWord s fn 16
    let sel := reqWord s fn 24
    let base := reqWord s fn 32
    let shift := reqWord s fn 40
    match namedCube s h with
    | none => refuse s fn 0xFF
    | some c =>
      if h.action ≠ 0 ∨ 7 < m ∨ 7 < src ∨ 1 <<< 32 ≤ base ∨ 31 < shift then refuse s fn 0xFF
      else if 4 < src then refuse s fn 1
      else if !selOk src sel then refuse s fn 2
      else
        let x : Monitor := { Monitor.zero with src := src, sel := sel, base := base, shift := shift }
        done (s.modCube c fun q => { q with mons := q.mons.set (m % 8) x (Nat.mod_lt _ (by decide)) }) fn

/-- MONITOR_READ: command 0x05, action 1 (R397). -/
def monReadRun (s : State) (fn : Fin 4) : State :=
  command s fn .own 5 (isAct 1) [(8, 8)] true fun s h =>
    let m := reqWord s fn 8
    match namedCube s h with
    | none => refuse s fn 0xFF
    | some c =>
      if 7 < m then refuse s fn 0xFF
      else
        let x := (s.cube c).mons.toList.getD m Monitor.zero
        done s fn ([(8, leBytes 4 x.min), (0xC, leBytes 4 x.max), (0x10, leBytes 4 x.count), (0x14, x.bins.toList.flatMap (leBytes 4)),
          (0x58, leBytes 8 x.src), (0x60, leBytes 8 x.sel), (0x68, leBytes 8 x.base), (0x70, leBytes 8 x.shift)])

/-- The copy of an accepted image ends: the active copy is verified, the sequence record written, and Teasel restarts, cubes
running on (R394). -/
def copyFirmware (s : State) : State :=
  let s := s.modTeasel fun t =>
    let img := t.flash.staging
    { t with copying := false, kick := s.now, flash := { t.flash with active := img, seqrec := seqRecord (deviceKey t.flash.record) img } }
  let seq := imgSeq s.teasel.flash.active
  done (logEvent s 0x20 255 [w64 seq]) 0 [(8, leBytes 8 seq)]

/-- FIRMWARE_UPDATE: command 0x06; an image is staged and verified, and an accepted one is copied at the event after (R394).
DESIGN CHOICE, assumption 107. -/
def firmwareRun (s : State) (fn : Fin 4) : State :=
  if s.teasel.copying ∧ fn.val = 0 then copyFirmware s else
  command s fn .zero 6 anyAct [(8, 8), (16, 8)] false fun s _ =>
    let a := reqWord s fn 8
    let n := reqWord s fn 16
    if a % 64 ≠ 0 then refuse s fn 0xFF
    else
      let img := busBytes s a n
      let t := s.teasel
      let s := s.modTeasel fun t => { t with flash := { t.flash with staging := img } }
      if !imageOk t.vendorKey img then refuse (logEvent s 0x12 255 [1]) fn 1
      else if imgSeq img < minSeq t ∨ imgSeq img ≤ wordAt t.flash.seqrec 0 then refuse (logEvent s 0x12 255 [2]) fn 2
      else
        s.modTeasel fun t => { t with copying := true, mail := t.mail.set fn { t.mail[fn] with status := 0 } }

/-- ATTESTATION_QUOTE: command 0x07 (R398). -/
def quoteRun (s : State) (fn : Fin 4) : State :=
  command s fn .any 7 anyAct [(8, 32)] false fun s _ =>
    let nonce := (List.range 32).map fun i => reqByte s fn (8 + i)
    let t := s.teasel
    let d1 := (Config.sha512 t.flash.record).take 64
    let img := t.flash.active
    let d2 := sliceB img 0x10 64
    let d3 := (Config.sha512 (descBytes s)).take 64
    let sq := leBytes 8 (imgSeq img)
    let rom := leBytes 8 t.romVersion.toNat
    let sig := (Config.ed25519Sign (deviceKey t.flash.record) (Config.sha512 (nonce ++ d1 ++ sq ++ d2 ++ rom ++ d3))).take 64
    done s fn [(8, d1), (0x48, sq), (0x50, d2), (0x90, rom), (0x98, d3), (0xD8, sig)]

/-! Address-space identifiers (R353, R397). -/

/-- ASID_REGISTER: command 0x09, action 0; an action that no row names is refused here. -/
def asidRegisterRun (s : State) (fn : Fin 4) : State :=
  command s fn .own 9 (fun a => a != 1) [(8, 8), (16, 8)] false fun s h =>
    let asid := reqWord s fn 8
    let root := reqWord s fn 16
    match partOf s h.part with
    | none => refuse s fn 0xFF
    | some d =>
      if h.action ≠ 0 ∨ 65535 < asid ∨ root % 256 ≠ 0 then refuse s fn 0xFF
      else if asid = 0 then refuse s fn 1
      else if !inPart d root then refuse s fn 3
      else
        let a := s.pkg <<< 42 + d.asidtab + 16 * asid
        done (gWriteVal (gWriteVal s a 8 (root + 1)) (a + 8) 8 0) fn

/-- ASID_DROP: command 0x09, action 1; every TLB of the partition drops the identifier (R359, R397). -/
def asidDropRun (s : State) (fn : Fin 4) : State :=
  command s fn .own 9 (isAct 1) [(8, 8)] false fun s h =>
    let asid := reqWord s fn 8
    match partOf s h.part with
    | none => refuse s fn 0xFF
    | some d =>
      if 65535 < asid then refuse s fn 0xFF
      else if asid = 0 then refuse s fn 1
      else if s.hub.recs.any fun k => k.part = h.part && k.asid.toNat = asid then refuse s fn 2
      else
        let a := s.pkg <<< 42 + d.asidtab + 16 * asid
        let w := gRead s a 8
        let s := gWriteVal s a 8 (w - w % 2)
        let s := (allCubes.filter fun c => d.cubes.getLsbD c.val).foldl (fun s c => s.modCube c fun q =>
          tlbDrop q fun e => e.part = h.part && e.asid.toNat = asid) s
        done s fn

/-! Debug (R401, R402). -/

/-- A debug action on a cube: refused unless the cube is attached. -/
def dbgCommand (s : State) (fn : Fin 4) (acts : Nat → Bool) (fields : List (Nat × Nat)) (attach : Bool)
    (body : State → Head → CubeId → State) : State :=
  command s fn .zero 8 acts fields true fun s h =>
    match namedCube s h with
    | none => refuse s fn 0xFF
    | some c => if !attach && !(s.cube c).dbgAttached then refuse s fn 1 else body s h c

/-- DEBUG_ATTACH; an action that no row names is refused here. -/
def attachRun (s : State) (fn : Fin 4) : State :=
  dbgCommand s fn (fun a => a = 0 || decide (8 < a)) [] true fun s h c =>
    if h.action ≠ 0 then refuse s fn 0xFF
    else done (logEvent (s.modCube c fun q => { q with dbgAttached := true }) 0x60 c.val [1]) fn

def unhalt (r : Frame) : Frame := { r with issue := { r.issue with dbg := .run } }

/-- DEBUG_DETACH resumes every halted frame. -/
def detachRun (s : State) (fn : Fin 4) : State :=
  dbgCommand s fn (isAct 1) [] false fun s _ c =>
    done (logEvent (s.modCube c fun q => { q with dbgAttached := false, frames := q.frames.map unhalt }) 0x60 c.val [0]) fn
def eventsRun (s : State) (fn : Fin 4) (on : Bool) : State :=
  dbgCommand s fn (isAct (if on then 2 else 3)) [] false fun s _ c =>
    done (s.modCube c fun q => { q with dbgEvents := on }) fn

/-- An action on a frame that holds a task. -/
def onTask (s : State) (fn : Fin 4) (c : CubeId) (body : FrameId → State) : State :=
  let n := reqWord s fn 8
  if 1 < n then refuse s fn 0xFF
  else if (s.frame c (frameOf n)).task.isNone then refuse s fn 3
  else body (frameOf n)
def setDbg (s : State) (c : CubeId) (f : FrameId) (d : DbgRun) : State :=
  s.modFrame c f fun r => { r with issue := { r.issue with dbg := d } }

def haltRun (s : State) (fn : Fin 4) : State :=
  dbgCommand s fn (isAct 4) [(8, 8)] false fun s _ c => onTask s fn c fun f => done (setDbg s c f .halted) fn
def stepRun (s : State) (fn : Fin 4) : State :=
  dbgCommand s fn (isAct 5) [(8, 8), (16, 8)] false fun s _ c =>
    let n := reqWord s fn 16
    if n = 0 ∨ 65536 < n then refuse s fn 0xFF
    else onTask s fn c fun f => done (setDbg s c f (.step n)) fn
def resumeRun (s : State) (fn : Fin 4) : State :=
  dbgCommand s fn (isAct 6) [(8, 8)] false fun s _ c => onTask s fn c fun f => done (setDbg s c f .run) fn
/-- DEBUG_STEP_DONE: the count is reached and the frame stands. -/
def stepDoneRun (s : State) (c : CubeId) (f : FrameId) : State :=
  match (s.frame c f).issue.dbg with
  | .step 0 => setDbg s c f .halted
  | _ => s

/-- Statuses of R402: OK, WOKE, UNAVAIL, POISON; 0xFF where a layer is not touched. -/
def layerStatuses (touched : Option (Nat × Nat)) : List Byte :=
  (List.range 8).map fun z => match touched with
    | some (t, st) => if z = t then BitVec.ofNat 8 st else 0xFF
    | none => 0xFF
/-- The status of a face access on a layer, before it wakes (R402). -/
def faceStatus (q : Cube) (z : Nat) (poison : Bool) : Nat :=
  match (q.pow.toList.getD z ⟨.withdrawn, 0, 0, 0, false⟩).st with
  | .parked | .withdrawn => 2
  | .retention => if poison then 3 else 1
  | _ => if poison then 3 else 0
/-- A level-S view of a frame, which the debugger's control-register accesses take. DEDUCED, assumption 60. -/
def asS (r : Frame) : Frame := { r with priv := { r.priv with lvl := true } }
/-- File and register of a debug address (R397). -/
def dbgReg (a : Nat) : Option (FileNo × Nat) :=
  let f := bits a 9 3
  let n := bits a 0 9
  let size := match f with | 3 => 384 | 4 => 16 | _ => 32
  if a < 1 <<< 12 ∧ f < 5 ∧ n < size then some (f, n) else none
/-- The accumulator word of a debug address: physical slot, row, column. -/
def dbgAcc (r : Frame) (a : Nat) : Option Nat :=
  if a < 1 <<< 18 ∧ bits a 0 4 < accN r then some (accKey (accOf r (bits a 0 4)) (bits a 4 7) (bits a 11 7)) else none
/-- A run of face bytes of the frame's task within one face of one layer: its key. -/
def dbgFace (r : Frame) (a n : Nat) : Option Nat :=
  if a < 1 <<< 32 ∧ 1 ≤ n ∧ n ≤ 256 ∧ spInside r a n then some (r.key a) else none
/-- Addresses of the bytes of a virtual range under the task's identifier. -/
def dbgVirt (s : State) (c : CubeId) (r : Frame) (need : Need) (va n : Nat) : Option (List Nat) :=
  match r.task with
  | some t =>
    if n = 0 ∨ 256 < n then none
    else allSome ((List.range n).map fun i =>
      match translate s c t.part t.asid need (va + i) with
      | .ok a => if (accessCheck s t.part a need.w).isSome then none else some a
      | .error _ => none)
  | none => none
/-- A refused virtual access logs the walk of its first failing byte that read a poisoned line (R356). -/
def logDbg (s : State) (c : CubeId) (r : Frame) (va n : Nat) : State :=
  match r.task with
  | some t =>
    let at_ := fun (i : Nat) => lookup s c t.part t.asid (va + i) .ls
    (match (List.range (min n 256)).find? fun i => match at_ i with | .error _ => true | .ok _ => false with
     | some i => logFail s c.val t.part t.asid (va + i) (at_ i)
     | none => s)
  | none => s
def linesOf (key n : Nat) : List Nat := (List.range (ceilDiv (key % 64 + n) 64)).map fun i => key / 64 * 64 + 64 * i

/-- The checks that both accesses share: frame, space, and a halted frame for spaces 0 to 2 (R397). -/
def dbgAccess (s : State) (fn : Fin 4) (act : Nat) (fields : List (Nat × Nat))
    (body : State → CubeId → FrameId → Nat → Nat → Nat → State) : State :=
  dbgCommand s fn (isAct act) fields false fun s _ c =>
    let sp := reqWord s fn 0x18
    if 4 < sp then refuse s fn 0xFF
    else
      let f := frameOf (reqWord s fn 8)
      let halted : Bool := match (s.frame c f).issue.dbg with | .halted => true | _ => false
      if reqWord s fn 8 ≤ 1 ∧ sp < 3 ∧ !halted then refuse s fn 2
      else onTask s fn c fun f => body s c f sp (reqWord s fn 0x20) (reqWord s fn 0x28)

/-- DEBUG_READ. -/
def dbgReadRun (s : State) (fn : Fin 4) : State :=
  dbgAccess s fn 7 [(8, 8), (0x18, 8), (0x20, 8), (0x28, 8)] fun s c f sp a n =>
    let q := s.cube c
    let r := s.frame c f
    let plain := fun (b : List Byte) => done s fn [(8, layerStatuses none), (0x100, b)]
    let bad := refuse s fn 0xFF
    match sp with
    | 0 => (match dbgReg a with | some (file, i) => plain (leBytes 256 (r.regs.rdNo file i)) | none => bad)
    | 1 => (match crnRead q (asS r) a with
        | some v => plain (leBytes 8 (if a = 0x100 then privWord r else v.toNat))
        | none => bad)
    | 2 => (match dbgAcc r a with | some k => plain (leBytes 5 (fget 0 q.acc k).toNat) | none => bad)
    | 3 =>
      (match dbgFace r a n with
       | some key =>
         let z := spLayer a
         let st := faceStatus q z ((linesOf key n).any (facePoisoned q))
         let b := if st = 2 then List.replicate n 0xFF else faceBytes q key n
         done (wakeLayers s c [z]) fn [(8, layerStatuses (some (z, st))), (0x100, b)]
       | none => bad)
    | _ => (match dbgVirt s c r { r := true } a n with | some l => plain (l.map (mergedByte s)) | none => refuse (logDbg s c r a n) fn 0xFF)

/-- DEBUG_WRITE: taint sets and poison stay as they are (R401, R402). -/
def dbgWriteRun (s : State) (fn : Fin 4) : State :=
  dbgAccess s fn 8 [(8, 8), (0x18, 8), (0x20, 8), (0x28, 8), (0x100, 256)] fun s c f sp a n =>
    let q := s.cube c
    let r := s.frame c f
    let data := (List.range 256).map fun i => reqByte s fn (0x100 + i)
    let v := leVal data
    let ok := fun (s : State) (st : Option (Nat × Nat)) => done s fn [(8, layerStatuses st)]
    let bad := refuse s fn 0xFF
    match sp with
    | 0 => (match dbgReg a with
        | some (file, i) => ok (s.modFrame c f fun r => { r with regs := r.regs.wr file i (BitVec.ofNat 2048 v) }) none
        | none => bad)
    | 1 => (match (if a = 0x00D then none else crnWrite (asS r) a (w64 v)) with
        | some (g, h) => ok ((s.modFrame c f g).modCube c h) none
        | none => bad)
    | 2 => (match dbgAcc r a with
        | some k => ok (s.setCube c { q with acc := fset 0 q.acc k (BitVec.ofNat 40 v) }) none
        | none => bad)
    | 3 =>
      (match dbgFace r a n with
       | some key =>
         let z := spLayer a
         let st := faceStatus q z ((linesOf key n).any (facePoisoned q))
         let s := if st = 2 then s else s.modCube c fun q => faceSetList q key (data.take n)
         ok (wakeLayers s c [z]) (some (z, st))
       | none => bad)
    | _ => (match dbgVirt s c r { w := true } a n with
        | some l => ok (l.zip data |>.foldl (fun s (p, b) => gWrite s p [b]) s) none
        | none => refuse (logDbg s c r a n) fn 0xFF)

end Sys2Proof.Machine
end

