-- ==== Sys2Proof/Machine/Scalar.lean ====
section
/-! DEFINITION. The scalar integer, compare, select, constant and predicate instructions of X and Y (R157 to R164). -/

namespace Sys2Proof.Machine

/-- The w-bit operand of a register under a type (R157). -/
def opW (t : Ty) (v : Word) : Nat := v.toNat % (1 <<< t.width)
/-- A w-bit result in a register: sign-extended under a signed type (R157). -/
def outW (t : Ty) (r : Nat) : Word :=
  let r := r % (1 <<< t.width)
  if t.signed then w64 (lowBits 64 (toSigned t.width r)) else w64 r

/-- The registers of a scalar slot and their taint. -/
def Ctx.xr (k : Ctx) (u : XY) (r : Reg) : Word := k.rd (xyFile u) r
def Ctx.xt (k : Ctx) (u : XY) (r : Reg) : Taint := k.tnt (xyFile u) r

/-- An instruction of two sources on w bits with latency n (R157, R121). -/
def bin (k : Ctx) (u : XY) (t : Ty) (n : Nat) (d s1 s2 : Reg) (op : Nat → Nat → Nat) : SlotRes :=
  .ok (landW k (xyFile u) d n (outW t (op (opW t (k.xr u s1)) (opW t (k.xr u s2)))) (k.xt u s1 ||| k.xt u s2))
/-- An instruction of one source on w bits. -/
def una (k : Ctx) (u : XY) (t : Ty) (d s1 : Reg) (op : Nat → Nat) : SlotRes :=
  .ok (landW k (xyFile u) d 1 (outW t (op (opW t (k.xr u s1)))) (k.xt u s1))

/-- A sum or difference, exact, clamped under `.sat` (R158). -/
def sumOf (t : Ty) (sat : Bool) (i : Int) : Nat := lowBits t.width (if sat then clampInt (tyMin t) (tyMax t) i else i)

def slotAdd (u : XY) (t : Ty) (sat : Bool) (d s1 s2 : Reg) (k : Ctx) (_ : State) : SlotRes :=
  bin k u t 1 d s1 s2 fun a b => sumOf t sat (intVal t a + intVal t b)
def execAdd (u : XY) (t : Ty) (sat : Bool) (d s1 s2 : Reg) (s : State) : Host.Outcome State Fault Refusal :=
  solo s (.add u t sat d s1 s2) (slotAdd u t sat d s1 s2)

def slotAddi (u : XY) (d s1 : Reg) (imm : BitVec 13) (k : Ctx) (_ : State) : SlotRes :=
  .ok (landW k (xyFile u) d 1 (k.xr u s1 + imm.signExtend 64) (k.xt u s1))
def execAddi (u : XY) (d s1 : Reg) (imm : BitVec 13) (s : State) : Host.Outcome State Fault Refusal :=
  solo s (.addi u d s1 imm) (slotAddi u d s1 imm)

def slotSub (u : XY) (t : Ty) (sat : Bool) (d s1 s2 : Reg) (k : Ctx) (_ : State) : SlotRes :=
  bin k u t 1 d s1 s2 fun a b => sumOf t sat (intVal t a - intVal t b)
def execSub (u : XY) (t : Ty) (sat : Bool) (d s1 s2 : Reg) (s : State) : Host.Outcome State Fault Refusal :=
  solo s (.sub u t sat d s1 s2) (slotSub u t sat d s1 s2)

def slotMul (u : XY) (t : Ty) (d s1 s2 : Reg) (k : Ctx) (_ : State) : SlotRes := bin k u t 3 d s1 s2 fun a b => a * b
def execMul (u : XY) (t : Ty) (d s1 s2 : Reg) (s : State) : Host.Outcome State Fault Refusal :=
  solo s (.mul u t d s1 s2) (slotMul u t d s1 s2)

/-- Bits [2w−1:w] of the signed product (R158). -/
def slotMulh (u : XY) (t : Ty) (d s1 s2 : Reg) (k : Ctx) (_ : State) : SlotRes :=
  bin k u t 3 d s1 s2 fun a b => lowBits (2 * t.width) (toSigned t.width a * toSigned t.width b) >>> t.width
def execMulh (u : XY) (t : Ty) (d s1 s2 : Reg) (s : State) : Host.Outcome State Fault Refusal :=
  solo s (.mulh u t d s1 s2) (slotMulh u t d s1 s2)

def slotMulhz (u : XY) (t : Ty) (d s1 s2 : Reg) (k : Ctx) (_ : State) : SlotRes :=
  bin k u t 3 d s1 s2 fun a b => (a * b) >>> t.width
def execMulhz (u : XY) (t : Ty) (d s1 s2 : Reg) (s : State) : Host.Outcome State Fault Refusal :=
  solo s (.mulhz u t d s1 s2) (slotMulhz u t d s1 s2)

/-- Quotient and remainder, truncated toward zero; all ones and the dividend for a zero divisor (R159). -/
def divOf (t : Ty) (a b : Nat) : Nat × Nat :=
  if b = 0 then ((1 <<< t.width) - 1, a)
  else
    let x := intVal t a
    let y := intVal t b
    (lowBits t.width (x.tdiv y), lowBits t.width (x.tmod y))

/-- A result of `div` or `rem`, with `CSTAT.IDZ` at landing for a zero divisor (R121, R159). -/
def divLike (k : Ctx) (u : XY) (t : Ty) (d s1 s2 : Reg) (pick : Nat × Nat → Nat) : SlotRes :=
  let a := opW t (k.xr u s1)
  let b := opW t (k.xr u s2)
  .ok (onFrame k fun r => r.addLanding
    { mkLanding k.r (no3 (xyFile u)) d.toNat 20 ((outW t (pick (divOf t a b))).setWidth 2048) (k.xt u s1 ||| k.xt u s2) with
      idz := decide (b = 0) })

def slotDiv (u : XY) (t : Ty) (d s1 s2 : Reg) (k : Ctx) (_ : State) : SlotRes := divLike k u t d s1 s2 Prod.fst
def execDiv (u : XY) (t : Ty) (d s1 s2 : Reg) (s : State) : Host.Outcome State Fault Refusal :=
  solo s (.div u t d s1 s2) (slotDiv u t d s1 s2)
def slotRem (u : XY) (t : Ty) (d s1 s2 : Reg) (k : Ctx) (_ : State) : SlotRes := divLike k u t d s1 s2 Prod.snd
def execRem (u : XY) (t : Ty) (d s1 s2 : Reg) (s : State) : Host.Outcome State Fault Refusal :=
  solo s (.rem u t d s1 s2) (slotRem u t d s1 s2)

def slotAnd (u : XY) (t : Ty) (d s1 s2 : Reg) (k : Ctx) (_ : State) : SlotRes := bin k u t 1 d s1 s2 Nat.land
def execAnd (u : XY) (t : Ty) (d s1 s2 : Reg) (s : State) : Host.Outcome State Fault Refusal :=
  solo s (.and u t d s1 s2) (slotAnd u t d s1 s2)
def slotAndn (u : XY) (t : Ty) (d s1 s2 : Reg) (k : Ctx) (_ : State) : SlotRes :=
  bin k u t 1 d s1 s2 fun a b => Nat.land a (Nat.xor b ((1 <<< t.width) - 1))
def execAndn (u : XY) (t : Ty) (d s1 s2 : Reg) (s : State) : Host.Outcome State Fault Refusal :=
  solo s (.andn u t d s1 s2) (slotAndn u t d s1 s2)
def slotOr (u : XY) (t : Ty) (d s1 s2 : Reg) (k : Ctx) (_ : State) : SlotRes := bin k u t 1 d s1 s2 Nat.lor
def execOr (u : XY) (t : Ty) (d s1 s2 : Reg) (s : State) : Host.Outcome State Fault Refusal :=
  solo s (.or u t d s1 s2) (slotOr u t d s1 s2)
def slotXor (u : XY) (t : Ty) (d s1 s2 : Reg) (k : Ctx) (_ : State) : SlotRes := bin k u t 1 d s1 s2 Nat.xor
def execXor (u : XY) (t : Ty) (d s1 s2 : Reg) (s : State) : Host.Outcome State Fault Refusal :=
  solo s (.xor u t d s1 s2) (slotXor u t d s1 s2)

/-- Shifts and the rotate take the count modulo w (R158). -/
def slotSll (u : XY) (t : Ty) (d s1 s2 : Reg) (k : Ctx) (_ : State) : SlotRes :=
  bin k u t 1 d s1 s2 fun a b => a <<< (b % t.width)
def execSll (u : XY) (t : Ty) (d s1 s2 : Reg) (s : State) : Host.Outcome State Fault Refusal :=
  solo s (.sll u t d s1 s2) (slotSll u t d s1 s2)
def slotSrl (u : XY) (t : Ty) (d s1 s2 : Reg) (k : Ctx) (_ : State) : SlotRes :=
  bin k u t 1 d s1 s2 fun a b => a >>> (b % t.width)
def execSrl (u : XY) (t : Ty) (d s1 s2 : Reg) (s : State) : Host.Outcome State Fault Refusal :=
  solo s (.srl u t d s1 s2) (slotSrl u t d s1 s2)
def slotSra (u : XY) (t : Ty) (d s1 s2 : Reg) (k : Ctx) (_ : State) : SlotRes :=
  bin k u t 1 d s1 s2 fun a b => lowBits t.width (toSigned t.width a >>> (b % t.width))
def execSra (u : XY) (t : Ty) (d s1 s2 : Reg) (s : State) : Host.Outcome State Fault Refusal :=
  solo s (.sra u t d s1 s2) (slotSra u t d s1 s2)
def slotRol (u : XY) (t : Ty) (d s1 s2 : Reg) (k : Ctx) (_ : State) : SlotRes :=
  bin k u t 1 d s1 s2 fun a b => a <<< (b % t.width) + a >>> (t.width - b % t.width)
def execRol (u : XY) (t : Ty) (d s1 s2 : Reg) (s : State) : Host.Outcome State Fault Refusal :=
  solo s (.rol u t d s1 s2) (slotRol u t d s1 s2)

def slotMin (u : XY) (t : Ty) (d s1 s2 : Reg) (k : Ctx) (_ : State) : SlotRes :=
  bin k u t 1 d s1 s2 fun a b => if toSigned t.width b < toSigned t.width a then b else a
def execMin (u : XY) (t : Ty) (d s1 s2 : Reg) (s : State) : Host.Outcome State Fault Refusal :=
  solo s (.min u t d s1 s2) (slotMin u t d s1 s2)
def slotMax (u : XY) (t : Ty) (d s1 s2 : Reg) (k : Ctx) (_ : State) : SlotRes :=
  bin k u t 1 d s1 s2 fun a b => if toSigned t.width a < toSigned t.width b then b else a
def execMax (u : XY) (t : Ty) (d s1 s2 : Reg) (s : State) : Host.Outcome State Fault Refusal :=
  solo s (.max u t d s1 s2) (slotMax u t d s1 s2)
def slotMinz (u : XY) (t : Ty) (d s1 s2 : Reg) (k : Ctx) (_ : State) : SlotRes := bin k u t 1 d s1 s2 Nat.min
def execMinz (u : XY) (t : Ty) (d s1 s2 : Reg) (s : State) : Host.Outcome State Fault Refusal :=
  solo s (.minz u t d s1 s2) (slotMinz u t d s1 s2)
def slotMaxz (u : XY) (t : Ty) (d s1 s2 : Reg) (k : Ctx) (_ : State) : SlotRes := bin k u t 1 d s1 s2 Nat.max
def execMaxz (u : XY) (t : Ty) (d s1 s2 : Reg) (s : State) : Host.Outcome State Fault Refusal :=
  solo s (.maxz u t d s1 s2) (slotMaxz u t d s1 s2)

/-- R160: T gives the width, the condition the signedness. -/
def slotCmp (u : XY) (c : Cnd) (t : Ty) (pd : Pred) (s1 s2 : Reg) (k : Ctx) (_ : State) : SlotRes :=
  .ok (landP k pd 1 (icmpHolds c t.width (opW t (k.xr u s1)) (opW t (k.xr u s2))) (k.xt u s1 ||| k.xt u s2))
def execCmp (u : XY) (c : Cnd) (t : Ty) (pd : Pred) (s1 s2 : Reg) (s : State) : Host.Outcome State Fault Refusal :=
  solo s (.cmp u c t pd s1 s2) (slotCmp u c t pd s1 s2)
def slotCmpi (u : XY) (c : Cnd) (pd : Pred) (s1 : Reg) (imm : BitVec 10) (k : Ctx) (_ : State) : SlotRes :=
  .ok (landP k pd 1 (icmpHolds c 64 (k.xr u s1).toNat (imm.signExtend 64).toNat) (k.xt u s1))
def execCmpi (u : XY) (c : Cnd) (pd : Pred) (s1 : Reg) (imm : BitVec 10) (s : State) : Host.Outcome State Fault Refusal :=
  solo s (.cmpi u c pd s1 imm) (slotCmpi u c pd s1 imm)

/-- R161. -/
def slotSel (u : XY) (ps : Pred) (d s1 s2 : Reg) (k : Ctx) (_ : State) : SlotRes :=
  .ok (landW k (xyFile u) d 1 (if k.r.regs.pred ps then k.xr u s1 else k.xr u s2)
    (k.r.taint.pred ps ||| k.xt u s1 ||| k.xt u s2))
def execSel (u : XY) (ps : Pred) (d s1 s2 : Reg) (s : State) : Host.Outcome State Fault Refusal :=
  solo s (.sel u ps d s1 s2) (slotSel u ps d s1 s2)

/-- Leading zeros, trailing zeros and set bits of the w low bits (R158). -/
def clzOf (w v : Nat) : Nat := ((List.range w).find? fun i => Nat.testBit v (w - 1 - i)).getD w
def ctzOf (w v : Nat) : Nat := ((List.range w).find? fun i => Nat.testBit v i).getD w
def popcOf (w v : Nat) : Nat := ((List.range w).filter fun i => Nat.testBit v i).length

def slotClz (u : XY) (t : Ty) (d s1 : Reg) (k : Ctx) (_ : State) : SlotRes := una k u t d s1 (clzOf t.width)
def execClz (u : XY) (t : Ty) (d s1 : Reg) (s : State) : Host.Outcome State Fault Refusal :=
  solo s (.clz u t d s1) (slotClz u t d s1)
def slotCtz (u : XY) (t : Ty) (d s1 : Reg) (k : Ctx) (_ : State) : SlotRes := una k u t d s1 (ctzOf t.width)
def execCtz (u : XY) (t : Ty) (d s1 : Reg) (s : State) : Host.Outcome State Fault Refusal :=
  solo s (.ctz u t d s1) (slotCtz u t d s1)
def slotPopc (u : XY) (t : Ty) (d s1 : Reg) (k : Ctx) (_ : State) : SlotRes := una k u t d s1 (popcOf t.width)
def execPopc (u : XY) (t : Ty) (d s1 : Reg) (s : State) : Host.Outcome State Fault Refusal :=
  solo s (.popc u t d s1) (slotPopc u t d s1)
def slotSext (u : XY) (t : Ty) (d s1 : Reg) (k : Ctx) (_ : State) : SlotRes := una k u t d s1 id
def execSext (u : XY) (t : Ty) (d s1 : Reg) (s : State) : Host.Outcome State Fault Refusal :=
  solo s (.sext u t d s1) (slotSext u t d s1)
def slotZext (u : XY) (t : Ty) (d s1 : Reg) (k : Ctx) (_ : State) : SlotRes := una k u t d s1 id
def execZext (u : XY) (t : Ty) (d s1 : Reg) (s : State) : Host.Outcome State Fault Refusal :=
  solo s (.zext u t d s1) (slotZext u t d s1)

def slotMov (u : XY) (d s1 : Reg) (k : Ctx) (_ : State) : SlotRes :=
  .ok (landW k (xyFile u) d 1 (k.xr u s1) (k.xt u s1))
def execMov (u : XY) (d s1 : Reg) (s : State) : Host.Outcome State Fault Refusal := solo s (.mov u d s1) (slotMov u d s1)

/-- R162. -/
def slotMovi (u : XY) (d : Reg) (imm : BitVec 18) (k : Ctx) (_ : State) : SlotRes :=
  .ok (landW k (xyFile u) d 1 (imm.signExtend 64) 0)
def execMovi (u : XY) (d : Reg) (imm : BitVec 18) (s : State) : Host.Outcome State Fault Refusal :=
  solo s (.movi u d imm) (slotMovi u d imm)
def slotMovhi (u : XY) (d : Reg) (imm : BitVec 16) (pos : BitVec 2) (k : Ctx) (_ : State) : SlotRes :=
  let n := 16 * pos.toNat
  .ok (landW k (xyFile u) d 1 ((k.xr u d &&& ~~~(0xFFFF#64 <<< n)) ||| (imm.setWidth 64 <<< n)) (k.xt u d))
def execMovhi (u : XY) (d : Reg) (imm : BitVec 16) (pos : BitVec 2) (s : State) : Host.Outcome State Fault Refusal :=
  solo s (.movhi u d imm pos) (slotMovhi u d imm pos)

/-- R163. -/
def predOp (k : Ctx) (pd pa pb : Pred) (op : Bool → Bool → Bool) : SlotRes :=
  .ok (landP k pd 1 (op (k.r.regs.pred pa) (k.r.regs.pred pb)) (k.r.taint.pred pa ||| k.r.taint.pred pb))
def slotPand (_ : XY) (pd pa pb : Pred) (k : Ctx) (_ : State) : SlotRes := predOp k pd pa pb and
def execPand (u : XY) (pd pa pb : Pred) (s : State) : Host.Outcome State Fault Refusal :=
  solo s (.pand u pd pa pb) (slotPand u pd pa pb)
def slotPor (_ : XY) (pd pa pb : Pred) (k : Ctx) (_ : State) : SlotRes := predOp k pd pa pb or
def execPor (u : XY) (pd pa pb : Pred) (s : State) : Host.Outcome State Fault Refusal :=
  solo s (.por u pd pa pb) (slotPor u pd pa pb)
def slotPxor (_ : XY) (pd pa pb : Pred) (k : Ctx) (_ : State) : SlotRes := predOp k pd pa pb xor
def execPxor (u : XY) (pd pa pb : Pred) (s : State) : Host.Outcome State Fault Refusal :=
  solo s (.pxor u pd pa pb) (slotPxor u pd pa pb)
def slotPnot (_ : XY) (pd pa : Pred) (k : Ctx) (_ : State) : SlotRes := predOp k pd pa pa fun a _ => !a
def execPnot (u : XY) (pd pa : Pred) (s : State) : Host.Outcome State Fault Refusal :=
  solo s (.pnot u pd pa) (slotPnot u pd pa)

/-- R164. -/
def slotXmov (u : XY) (dc : File3) (d s1 : Reg) (k : Ctx) (_ : State) : SlotRes :=
  .ok (landW k dc d 2 (k.xr u s1) (k.xt u s1))
def execXmov (u : XY) (dc : File3) (d s1 : Reg) (s : State) : Host.Outcome State Fault Refusal :=
  solo s (.xmov u dc d s1) (slotXmov u dc d s1)

end Sys2Proof.Machine
end

