-- ==== Sys2Proof/Machine/ScalarFp.lean ====
section
/-! DEFINITION. The scalar floating-point instructions (R165 to R170). -/

namespace Sys2Proof.Machine

/-- A floating result of latency 4 with its flags (R121, R165). -/
def fland (k : Ctx) (u : XY) (d : Reg) (x : Nat × Flags5) (t : Taint) : SlotRes :=
  .ok (landW k (xyFile u) d 4 (w64 x.1) t x.2)
def fbin (k : Ctx) (u : XY) (t : Ty) (d s1 s2 : Reg) (op : Nat → Nat → Nat × Flags5) : SlotRes :=
  fland k u d (op (opW t (k.xr u s1)) (opW t (k.xr u s2))) (k.xt u s1 ||| k.xt u s2)

def slotFadd (u : XY) (t : Ty) (rm : RM) (d s1 s2 : Reg) (k : Ctx) (_ : State) : SlotRes :=
  fbin k u t d s1 s2 (faddBits t rm false)
def execFadd (u : XY) (t : Ty) (rm : RM) (d s1 s2 : Reg) (s : State) : Host.Outcome State Fault Refusal :=
  solo s (.fadd u t rm d s1 s2) (slotFadd u t rm d s1 s2)
def slotFsub (u : XY) (t : Ty) (rm : RM) (d s1 s2 : Reg) (k : Ctx) (_ : State) : SlotRes :=
  fbin k u t d s1 s2 (fsubBits t rm false)
def execFsub (u : XY) (t : Ty) (rm : RM) (d s1 s2 : Reg) (s : State) : Host.Outcome State Fault Refusal :=
  solo s (.fsub u t rm d s1 s2) (slotFsub u t rm d s1 s2)
def slotFmul (u : XY) (t : Ty) (rm : RM) (d s1 s2 : Reg) (k : Ctx) (_ : State) : SlotRes :=
  fbin k u t d s1 s2 (fmulBits t rm false)
def execFmul (u : XY) (t : Ty) (rm : RM) (d s1 s2 : Reg) (s : State) : Host.Outcome State Fault Refusal :=
  solo s (.fmul u t rm d s1 s2) (slotFmul u t rm d s1 s2)
/-- D is read at issue and its taint joins (R166). -/
def slotFma (u : XY) (t : Ty) (rm : RM) (d s1 s2 : Reg) (k : Ctx) (_ : State) : SlotRes :=
  fland k u d (fmaBits t rm false (opW t (k.xr u s1)) (opW t (k.xr u s2)) (opW t (k.xr u d)))
    (k.xt u s1 ||| k.xt u s2 ||| k.xt u d)
def execFma (u : XY) (t : Ty) (rm : RM) (d s1 s2 : Reg) (s : State) : Host.Outcome State Fault Refusal :=
  solo s (.fma u t rm d s1 s2) (slotFma u t rm d s1 s2)
def slotFmin (u : XY) (t : Ty) (d s1 s2 : Reg) (k : Ctx) (_ : State) : SlotRes :=
  fbin k u t d s1 s2 fun a b => (fminmaxBits false t a b, 0)
def execFmin (u : XY) (t : Ty) (d s1 s2 : Reg) (s : State) : Host.Outcome State Fault Refusal :=
  solo s (.fmin u t d s1 s2) (slotFmin u t d s1 s2)
def slotFmax (u : XY) (t : Ty) (d s1 s2 : Reg) (k : Ctx) (_ : State) : SlotRes :=
  fbin k u t d s1 s2 fun a b => (fminmaxBits true t a b, 0)
def execFmax (u : XY) (t : Ty) (d s1 s2 : Reg) (s : State) : Host.Outcome State Fault Refusal :=
  solo s (.fmax u t d s1 s2) (slotFmax u t d s1 s2)

/-- R167. -/
def slotFcmp (u : XY) (c : Cnd) (t : Ty) (pd : Pred) (s1 s2 : Reg) (k : Ctx) (_ : State) : SlotRes :=
  .ok (landP k pd 4 (fcmpHolds c (fval t (opW t (k.xr u s1))) (fval t (opW t (k.xr u s2)))) (k.xt u s1 ||| k.xt u s2))
def execFcmp (u : XY) (c : Cnd) (t : Ty) (pd : Pred) (s1 s2 : Reg) (s : State) : Host.Outcome State Fault Refusal :=
  solo s (.fcmp u c t pd s1 s2) (slotFcmp u c t pd s1 s2)

/-- R169: the result is sign-extended for the integer types read as signed, zero-extended for every other. -/
def fcvtOut (td : Ty) (r : Nat) : Word := if td = .tern then w64 (r % 4) else outW td r
def slotFcvt (u : XY) (td ts : Ty) (rm : RM) (sat : Bool) (d s1 : Reg) (k : Ctx) (_ : State) : SlotRes :=
  let x := convertBits ts td rm sat (opW ts (k.xr u s1))
  .ok (landW k (xyFile u) d 4 (fcvtOut td x.1) (k.xt u s1) x.2)
def execFcvt (u : XY) (td ts : Ty) (rm : RM) (sat : Bool) (d s1 : Reg) (s : State) : Host.Outcome State Fault Refusal :=
  solo s (.fcvt u td ts rm sat d s1) (slotFcvt u td ts rm sat d s1)

/-- R170: the magnitude bits of S1 with a sign; latency 1, no flag. -/
def fsgnBits (t : Ty) (m : SgnMode) (a b : Nat) : Nat :=
  let p := t.width - 1
  let sb := Nat.testBit b p
  let sg := match m with | .cpy => sb | .neg => !sb | .xor => xor (Nat.testBit a p) sb
  a % (1 <<< p) + (bnat sg) <<< p
def slotFsgn (u : XY) (t : Ty) (m : SgnMode) (d s1 s2 : Reg) (k : Ctx) (_ : State) : SlotRes :=
  .ok (landW k (xyFile u) d 1 (w64 (fsgnBits t m (opW t (k.xr u s1)) (opW t (k.xr u s2)))) (k.xt u s1 ||| k.xt u s2))
def execFsgn (u : XY) (t : Ty) (m : SgnMode) (d s1 s2 : Reg) (s : State) : Host.Outcome State Fault Refusal :=
  solo s (.fsgn u t m d s1 s2) (slotFsgn u t m d s1 s2)

/-- R168. -/
def slotFrcp (u : XY) (t : Ty) (rm : RM) (d s1 : Reg) (k : Ctx) (_ : State) : SlotRes :=
  fland k u d (frcpBits t rm (opW t (k.xr u s1))) (k.xt u s1)
def execFrcp (u : XY) (t : Ty) (rm : RM) (d s1 : Reg) (s : State) : Host.Outcome State Fault Refusal :=
  solo s (.frcp u t rm d s1) (slotFrcp u t rm d s1)
def slotFrsq (u : XY) (t : Ty) (rm : RM) (d s1 : Reg) (k : Ctx) (_ : State) : SlotRes :=
  fland k u d (frsqBits t rm (opW t (k.xr u s1))) (k.xt u s1)
def execFrsq (u : XY) (t : Ty) (rm : RM) (d s1 : Reg) (s : State) : Host.Outcome State Fault Refusal :=
  solo s (.frsq u t rm d s1) (slotFrsq u t rm d s1)

end Sys2Proof.Machine
end

