-- ==== Sys2Proof/Machine/Vector.lean ====
section
/-! DEFINITION. The vector slots (R173 to R192): each instruction's lanes are those of `Lanes` and `Transc`; here stand
its operands, latency and taint. -/

namespace Sys2Proof.Machine

/-- Two, or one, register's taint (R174). -/
def Ctx.vt2 (k : Ctx) (a b : VSpec) : Taint := k.vt a ||| k.vt b
/-- Latency of an integer or floating form (R121, R175). -/
def vlat (t : Ty) : Nat := if t.isFp then 5 else 2

def slotVadd (t : Ty) (rm : RM) (sat : Bool) (d s1 s2 : VSpec) (k : Ctx) (_ : State) : SlotRes :=
  .ok (landV k d (vlat t) (vmap2 t (laneAdd t rm sat) (k.v s1) (k.v s2)) (k.vt2 s1 s2))
def execVadd (t : Ty) (rm : RM) (sat : Bool) (d s1 s2 : VSpec) (s : State) : Host.Outcome State Fault Refusal :=
  solo s (.vadd t rm sat d s1 s2) (slotVadd t rm sat d s1 s2)

def slotVsub (t : Ty) (rm : RM) (sat : Bool) (d s1 s2 : VSpec) (k : Ctx) (_ : State) : SlotRes :=
  .ok (landV k d (vlat t) (vmap2 t (laneSub t rm sat) (k.v s1) (k.v s2)) (k.vt2 s1 s2))
def execVsub (t : Ty) (rm : RM) (sat : Bool) (d s1 s2 : VSpec) (s : State) : Host.Outcome State Fault Refusal :=
  solo s (.vsub t rm sat d s1 s2) (slotVsub t rm sat d s1 s2)

def slotVmul (t : Ty) (rm : RM) (sat : Bool) (d s1 s2 : VSpec) (k : Ctx) (_ : State) : SlotRes :=
  .ok (landV k d (vlat t) (vmap2 t (laneMul t rm sat) (k.v s1) (k.v s2)) (k.vt2 s1 s2))
def execVmul (t : Ty) (rm : RM) (sat : Bool) (d s1 s2 : VSpec) (s : State) : Host.Outcome State Fault Refusal :=
  solo s (.vmul t rm sat d s1 s2) (slotVmul t rm sat d s1 s2)

/-- D is read at issue (R174, R175). -/
def slotVfma (t : Ty) (rm : RM) (sat : Bool) (d s1 s2 : VSpec) (k : Ctx) (_ : State) : SlotRes :=
  .ok (landV k d 5 (vmap3 t (laneFma t rm sat) (k.v s1) (k.v s2) (k.v d)) (k.vt2 s1 s2 ||| k.vt d))
def execVfma (t : Ty) (rm : RM) (sat : Bool) (d s1 s2 : VSpec) (s : State) : Host.Outcome State Fault Refusal :=
  solo s (.vfma t rm sat d s1 s2) (slotVfma t rm sat d s1 s2)

def slotVmin (t : Ty) (d s1 s2 : VSpec) (k : Ctx) (_ : State) : SlotRes :=
  .ok (landV k d (vlat t) (vmap2 t (fun a b => (laneMin t a b, 0)) (k.v s1) (k.v s2)) (k.vt2 s1 s2))
def execVmin (t : Ty) (d s1 s2 : VSpec) (s : State) : Host.Outcome State Fault Refusal :=
  solo s (.vmin t d s1 s2) (slotVmin t d s1 s2)

def slotVmax (t : Ty) (d s1 s2 : VSpec) (k : Ctx) (_ : State) : SlotRes :=
  .ok (landV k d (vlat t) (vmap2 t (fun a b => (laneMax t a b, 0)) (k.v s1) (k.v s2)) (k.vt2 s1 s2))
def execVmax (t : Ty) (d s1 s2 : VSpec) (s : State) : Host.Outcome State Fault Refusal :=
  solo s (.vmax t d s1 s2) (slotVmax t d s1 s2)

def slotVabs (t : Ty) (sat : Bool) (d s1 : VSpec) (k : Ctx) (_ : State) : SlotRes :=
  .ok (landV k d (vlat t) (vmap1 t (fun a => (laneAbs t sat a, 0)) (k.v s1)) (k.vt s1))
def execVabs (t : Ty) (sat : Bool) (d s1 : VSpec) (s : State) : Host.Outcome State Fault Refusal :=
  solo s (.vabs t sat d s1) (slotVabs t sat d s1)

def slotVneg (t : Ty) (sat : Bool) (d s1 : VSpec) (k : Ctx) (_ : State) : SlotRes :=
  .ok (landV k d (vlat t) (vmap1 t (fun a => (laneNeg t sat a, 0)) (k.v s1)) (k.vt s1))
def execVneg (t : Ty) (sat : Bool) (d s1 : VSpec) (s : State) : Host.Outcome State Fault Refusal :=
  solo s (.vneg t sat d s1) (slotVneg t sat d s1)

def slotVand (t : Ty) (d s1 s2 : VSpec) (k : Ctx) (_ : State) : SlotRes :=
  let _ := t
  .ok (landV k d 2 ⟨k.v s1 &&& k.v s2, 0, 0⟩ (k.vt2 s1 s2))
def execVand (t : Ty) (d s1 s2 : VSpec) (s : State) : Host.Outcome State Fault Refusal :=
  solo s (.vand t d s1 s2) (slotVand t d s1 s2)

def slotVor (t : Ty) (d s1 s2 : VSpec) (k : Ctx) (_ : State) : SlotRes :=
  let _ := t
  .ok (landV k d 2 ⟨k.v s1 ||| k.v s2, 0, 0⟩ (k.vt2 s1 s2))
def execVor (t : Ty) (d s1 s2 : VSpec) (s : State) : Host.Outcome State Fault Refusal :=
  solo s (.vor t d s1 s2) (slotVor t d s1 s2)

def slotVxor (t : Ty) (d s1 s2 : VSpec) (k : Ctx) (_ : State) : SlotRes :=
  let _ := t
  .ok (landV k d 2 ⟨k.v s1 ^^^ k.v s2, 0, 0⟩ (k.vt2 s1 s2))
def execVxor (t : Ty) (d s1 s2 : VSpec) (s : State) : Host.Outcome State Fault Refusal :=
  solo s (.vxor t d s1 s2) (slotVxor t d s1 s2)

def slotVshl (t : Ty) (d s1 s2 : VSpec) (k : Ctx) (_ : State) : SlotRes :=
  .ok (landV k d 2 (vmap2 t (fun a b => (laneShl t a b, 0)) (k.v s1) (k.v s2)) (k.vt2 s1 s2))
def execVshl (t : Ty) (d s1 s2 : VSpec) (s : State) : Host.Outcome State Fault Refusal :=
  solo s (.vshl t d s1 s2) (slotVshl t d s1 s2)

def slotVshr (t : Ty) (d s1 s2 : VSpec) (k : Ctx) (_ : State) : SlotRes :=
  .ok (landV k d 2 (vmap2 t (fun a b => (laneShr t a b, 0)) (k.v s1) (k.v s2)) (k.vt2 s1 s2))
def execVshr (t : Ty) (d s1 s2 : VSpec) (s : State) : Host.Outcome State Fault Refusal :=
  solo s (.vshr t d s1 s2) (slotVshr t d s1 s2)

def slotVcmp (c : Cnd) (t : Ty) (d s1 s2 : VSpec) (k : Ctx) (_ : State) : SlotRes :=
  .ok (landV k d 2 (vmap2 t (fun a b => (laneCmp c t a b, 0)) (k.v s1) (k.v s2)) (k.vt2 s1 s2))
def execVcmp (c : Cnd) (t : Ty) (d s1 s2 : VSpec) (s : State) : Host.Outcome State Fault Refusal :=
  solo s (.vcmp c t d s1 s2) (slotVcmp c t d s1 s2)

/-- S3 selects; every source taints (R180). -/
def slotVsel (t : Ty) (d s1 s2 s3 : VSpec) (k : Ctx) (_ : State) : SlotRes :=
  .ok (landV k d 2 (vselRes t (k.v s1) (k.v s2) (k.v s3)) (k.vt2 s1 s2 ||| k.vt s3))
def execVsel (t : Ty) (d s1 s2 s3 : VSpec) (s : State) : Host.Outcome State Fault Refusal :=
  solo s (.vsel t d s1 s2 s3) (slotVsel t d s1 s2 s3)

/-- A narrowing form keeps and reads D (R182). -/
def slotVcvt (td ts : Ty) (part : BitVec 2) (rm : RM) (sat : Bool) (d s1 s2 : VSpec) (k : Ctx) (_ : State) : SlotRes :=
  let _ := s2
  .ok (landV k d 5 (vcvtRes td ts part.toNat rm sat (k.v s1) (k.v d))
    (k.vt s1 ||| (if td.width < ts.width then k.vt d else 0)))
def execVcvt (td ts : Ty) (part : BitVec 2) (rm : RM) (sat : Bool) (d s1 s2 : VSpec) (s : State) : Host.Outcome State Fault Refusal :=
  solo s (.vcvt td ts part rm sat d s1 s2) (slotVcvt td ts part rm sat d s1 s2)

def slotVpack (t : Ty) (part : BitVec 6) (rm : RM) (sat : Bool) (d s1 s2 : VSpec) (k : Ctx) (_ : State) : SlotRes :=
  let _ := s2
  .ok (landV k d 5 (vpackRes t part.toNat rm sat (k.v s1) (k.v d)) (k.vt2 s1 d))
def execVpack (t : Ty) (part : BitVec 6) (rm : RM) (sat : Bool) (d s1 s2 : VSpec) (s : State) : Host.Outcome State Fault Refusal :=
  solo s (.vpack t part rm sat d s1 s2) (slotVpack t part rm sat d s1 s2)

def slotVunpack (t : Ty) (part : BitVec 6) (d s1 s2 : VSpec) (k : Ctx) (_ : State) : SlotRes :=
  let _ := s2
  .ok (landV k d 5 (vunpackRes t part.toNat (k.v s1)) (k.vt s1))
def execVunpack (t : Ty) (part : BitVec 6) (d s1 s2 : VSpec) (s : State) : Host.Outcome State Fault Refusal :=
  solo s (.vunpack t part d s1 s2) (slotVunpack t part d s1 s2)

def slotVscale (blk16 : Bool) (sb : BitVec 5) (rm : RM) (sat : Bool) (d s1 s2 : VSpec) (k : Ctx) (_ : State) : SlotRes :=
  .ok (landV k d 5 (vscaleRes blk16 sb.toNat rm sat (k.v s1) (k.v s2)) (k.vt2 s1 s2))
def execVscale (blk16 : Bool) (sb : BitVec 5) (rm : RM) (sat : Bool) (d s1 s2 : VSpec) (s : State) : Host.Outcome State Fault Refusal :=
  solo s (.vscale blk16 sb rm sat d s1 s2) (slotVscale blk16 sb rm sat d s1 s2)

def slotVbcast (t : Ty) (k7 : BitVec 7) (d s1 : VSpec) (k : Ctx) (_ : State) : SlotRes :=
  .ok (landV k d 3 (vbcastRes t k7.toNat (k.v s1)) (k.vt s1))
def execVbcast (t : Ty) (k7 : BitVec 7) (d s1 : VSpec) (s : State) : Host.Outcome State Fault Refusal :=
  solo s (.vbcast t k7 d s1) (slotVbcast t k7 d s1)

def slotVperm (t : Ty) (d s1 s2 : VSpec) (k : Ctx) (_ : State) : SlotRes :=
  .ok (landV k d 3 (vpermRes t (k.v s1) (k.v s2)) (k.vt2 s1 s2))
def execVperm (t : Ty) (d s1 s2 : VSpec) (s : State) : Host.Outcome State Fault Refusal :=
  solo s (.vperm t d s1 s2) (slotVperm t d s1 s2)

def slotVshuf (pat : Shuf) (t : Ty) (d s1 s2 : VSpec) (k : Ctx) (_ : State) : SlotRes :=
  let two := match pat with | .rev | .swp => 0 | _ => k.vt s2
  .ok (landV k d 3 (vshufRes pat t (k.v s1) (k.v s2)) (k.vt s1 ||| two))
def execVshuf (pat : Shuf) (t : Ty) (d s1 s2 : VSpec) (s : State) : Host.Outcome State Fault Refusal :=
  solo s (.vshuf pat t d s1 s2) (slotVshuf pat t d s1 s2)

def slotVrot (t : Ty) (k7 : BitVec 7) (d s1 : VSpec) (k : Ctx) (_ : State) : SlotRes :=
  .ok (landV k d 3 (vrotRes t k7.toNat (k.v s1)) (k.vt s1))
def execVrot (t : Ty) (k7 : BitVec 7) (d s1 : VSpec) (s : State) : Host.Outcome State Fault Refusal :=
  solo s (.vrot t k7 d s1) (slotVrot t k7 d s1)

def slotVlane (t : Ty) (k7 : BitVec 7) (d s1 : VSpec) (k : Ctx) (_ : State) : SlotRes :=
  .ok (landV k d 3 (vlaneRes t k7.toInt (k.v s1)) (k.vt s1))
def execVlane (t : Ty) (k7 : BitVec 7) (d s1 : VSpec) (s : State) : Host.Outcome State Fault Refusal :=
  solo s (.vlane t k7 d s1) (slotVlane t k7 d s1)

def slotVins (t : Ty) (k7 : BitVec 7) (d s1 : VSpec) (k : Ctx) (_ : State) : SlotRes :=
  .ok (landV k d 3 (vinsRes t k7.toNat (k.v s1) (k.v d)) (k.vt2 s1 d))
def execVins (t : Ty) (k7 : BitVec 7) (d s1 : VSpec) (s : State) : Host.Outcome State Fault Refusal :=
  solo s (.vins t k7 d s1) (slotVins t k7 d s1)

def slotVext (t : Ty) (k7 : BitVec 7) (d s1 s2 : VSpec) (k : Ctx) (_ : State) : SlotRes :=
  .ok (landV k d 3 (vextRes t k7.toNat (k.v s1) (k.v s2)) (k.vt2 s1 s2))
def execVext (t : Ty) (k7 : BitVec 7) (d s1 s2 : VSpec) (s : State) : Host.Outcome State Fault Refusal :=
  solo s (.vext t k7 d s1 s2) (slotVext t k7 d s1 s2)

def slotVscan (op : ScanOp) (exc seg : Bool) (t : Ty) (rm : RM) (sat : Bool) (d s1 s2 : VSpec) (k : Ctx) (_ : State) : SlotRes :=
  .ok (landV k d 8 (vscanRes op exc seg t rm sat (k.v s1) (k.v s2)) (k.vt s1 ||| (if seg then k.vt s2 else 0)))
def execVscan (op : ScanOp) (exc seg : Bool) (t : Ty) (rm : RM) (sat : Bool) (d s1 s2 : VSpec) (s : State) : Host.Outcome State Fault Refusal :=
  solo s (.vscan op exc seg t rm sat d s1 s2) (slotVscan op exc seg t rm sat d s1 s2)

def slotVred (op : ScanOp) (t : Ty) (rm : RM) (sat : Bool) (d s1 s2 : VSpec) (k : Ctx) (_ : State) : SlotRes :=
  let _ := s2
  .ok (landV k d 8 (vredRes op t rm sat (k.v s1)) (k.vt s1))
def execVred (op : ScanOp) (t : Ty) (rm : RM) (sat : Bool) (d s1 s2 : VSpec) (s : State) : Host.Outcome State Fault Refusal :=
  solo s (.vred op t rm sat d s1 s2) (slotVred op t rm sat d s1 s2)

/-- Three results (R190). -/
def slotVpart (t : Ty) (d s1 s2 s3 : VSpec) (k : Ctx) (_ : State) : SlotRes :=
  let (p, q, n) := vpartRes t (k.v s3)
  let tn := k.vt s3
  .ok (onFrame k fun r =>
    let l := fun (v : VSpec) (x : VReg) => mkLanding k.r 3 (physV k.r.ctl v) 8 x tn
    ((r.addLanding (l d p)).addLanding (l s1 q)).addLanding (l s2 n))
def execVpart (t : Ty) (d s1 s2 s3 : VSpec) (s : State) : Host.Outcome State Fault Refusal :=
  solo s (.vpart t d s1 s2 s3) (slotVpart t d s1 s2 s3)

def slotVexp2 (t : Ty) (d s1 : VSpec) (k : Ctx) (_ : State) : SlotRes :=
  .ok (landV k d 12 (vmap1 t (transcLane .exp2 t) (k.v s1)) (k.vt s1))
def execVexp2 (t : Ty) (d s1 : VSpec) (s : State) : Host.Outcome State Fault Refusal :=
  solo s (.vexp2 t d s1) (slotVexp2 t d s1)

def slotVlog2 (t : Ty) (d s1 : VSpec) (k : Ctx) (_ : State) : SlotRes :=
  .ok (landV k d 12 (vmap1 t (transcLane .log2 t) (k.v s1)) (k.vt s1))
def execVlog2 (t : Ty) (d s1 : VSpec) (s : State) : Host.Outcome State Fault Refusal :=
  solo s (.vlog2 t d s1) (slotVlog2 t d s1)

def slotVrcp (t : Ty) (rm : RM) (d s1 : VSpec) (k : Ctx) (_ : State) : SlotRes :=
  .ok (landV k d 12 (vmap1 t (frcpBits t rm) (k.v s1)) (k.vt s1))
def execVrcp (t : Ty) (rm : RM) (d s1 : VSpec) (s : State) : Host.Outcome State Fault Refusal :=
  solo s (.vrcp t rm d s1) (slotVrcp t rm d s1)

def slotVrsqrt (t : Ty) (rm : RM) (d s1 : VSpec) (k : Ctx) (_ : State) : SlotRes :=
  .ok (landV k d 12 (vmap1 t (frsqBits t rm) (k.v s1)) (k.vt s1))
def execVrsqrt (t : Ty) (rm : RM) (d s1 : VSpec) (s : State) : Host.Outcome State Fault Refusal :=
  solo s (.vrsqrt t rm d s1) (slotVrsqrt t rm d s1)

def slotVtanh (t : Ty) (d s1 : VSpec) (k : Ctx) (_ : State) : SlotRes :=
  .ok (landV k d 12 (vmap1 t (transcLane .tanh t) (k.v s1)) (k.vt s1))
def execVtanh (t : Ty) (d s1 : VSpec) (s : State) : Host.Outcome State Fault Refusal :=
  solo s (.vtanh t d s1) (slotVtanh t d s1)

def slotVmov (d s1 : VSpec) (k : Ctx) (_ : State) : SlotRes :=
  .ok (landV k d 2 ⟨k.v s1, 0, 0⟩ (k.vt s1))
def execVmov (d s1 : VSpec) (s : State) : Host.Outcome State Fault Refusal :=
  solo s (.vmov d s1) (slotVmov d s1)

def slotVmovi (w : Bool) (imm : BitVec 32) (d : VSpec) (k : Ctx) (_ : State) : SlotRes :=
  .ok (landV k d 2 ⟨vmoviRes w imm, 0, 0⟩ 0)
def execVmovi (w : Bool) (imm : BitVec 32) (d : VSpec) (s : State) : Host.Outcome State Fault Refusal :=
  solo s (.vmovi w imm d) (slotVmovi w imm d)

end Sys2Proof.Machine
end

