-- ==== Sys2Proof/Machine/Bundle.lean ====
section
/-! DEFINITION. The bundle as a whole: the meaning of each slot instruction by name, the steps BUNDLE_ISSUE, BUBBLE,
DRAIN_POINT and the two landings, and a turn of the control core. -/

namespace Sys2Proof.Machine

/-- The meaning of a slot instruction. An event of the table stands in no slot. -/
def slotMeaning (i : Instr) (k : Ctx) (s : State) : SlotRes :=
  match i with
  | .nop => slotNop k s
  | .br off => slotBr off k s
  | .bri tg => slotBri tg k s
  | .call off => slotCall off k s
  | .calli lk tg => slotCalli lk tg k s
  | .ret tg => slotRet tg k s
  | .lsetImm lv cnt => slotLsetImm lv cnt k s
  | .lsetReg lv cl c => slotLsetReg lv cl c k s
  | .lstride lv ad st => slotLstride lv ad st k s
  | .loop lv => slotLoop lv k s
  | .lexit lv off => slotLexit lv off k s
  | .wcfg sz wo st => slotWcfg sz wo st k s
  | .setfmt af bf acm scm orm => slotSetfmt af bf acm scm orm k s
  | .setfid b0 b1 b2 => slotSetfid b0 b1 b2 k s
  | .yield => slotYield k s
  | .trap code => slotTrapOp code k s
  | .halt => slotHalt k s
  | .add u t sat d s1 s2 => slotAdd u t sat d s1 s2 k s
  | .addi u d s1 imm => slotAddi u d s1 imm k s
  | .sub u t sat d s1 s2 => slotSub u t sat d s1 s2 k s
  | .mul u t d s1 s2 => slotMul u t d s1 s2 k s
  | .mulh u t d s1 s2 => slotMulh u t d s1 s2 k s
  | .mulhz u t d s1 s2 => slotMulhz u t d s1 s2 k s
  | .div u t d s1 s2 => slotDiv u t d s1 s2 k s
  | .rem u t d s1 s2 => slotRem u t d s1 s2 k s
  | .and u t d s1 s2 => slotAnd u t d s1 s2 k s
  | .andn u t d s1 s2 => slotAndn u t d s1 s2 k s
  | .or u t d s1 s2 => slotOr u t d s1 s2 k s
  | .xor u t d s1 s2 => slotXor u t d s1 s2 k s
  | .sll u t d s1 s2 => slotSll u t d s1 s2 k s
  | .srl u t d s1 s2 => slotSrl u t d s1 s2 k s
  | .sra u t d s1 s2 => slotSra u t d s1 s2 k s
  | .rol u t d s1 s2 => slotRol u t d s1 s2 k s
  | .min u t d s1 s2 => slotMin u t d s1 s2 k s
  | .max u t d s1 s2 => slotMax u t d s1 s2 k s
  | .minz u t d s1 s2 => slotMinz u t d s1 s2 k s
  | .maxz u t d s1 s2 => slotMaxz u t d s1 s2 k s
  | .cmp u c t pd s1 s2 => slotCmp u c t pd s1 s2 k s
  | .cmpi u c pd s1 imm => slotCmpi u c pd s1 imm k s
  | .sel u ps d s1 s2 => slotSel u ps d s1 s2 k s
  | .clz u t d s1 => slotClz u t d s1 k s
  | .ctz u t d s1 => slotCtz u t d s1 k s
  | .popc u t d s1 => slotPopc u t d s1 k s
  | .sext u t d s1 => slotSext u t d s1 k s
  | .zext u t d s1 => slotZext u t d s1 k s
  | .mov u d s1 => slotMov u d s1 k s
  | .movi u d imm => slotMovi u d imm k s
  | .movhi u d imm pos => slotMovhi u d imm pos k s
  | .pand u pd pa pb => slotPand u pd pa pb k s
  | .por u pd pa pb => slotPor u pd pa pb k s
  | .pxor u pd pa pb => slotPxor u pd pa pb k s
  | .pnot u pd pa => slotPnot u pd pa k s
  | .xmov u dc d s0 => slotXmov u dc d s0 k s
  | .fadd u t rm d s1 s2 => slotFadd u t rm d s1 s2 k s
  | .fsub u t rm d s1 s2 => slotFsub u t rm d s1 s2 k s
  | .fmul u t rm d s1 s2 => slotFmul u t rm d s1 s2 k s
  | .fma u t rm d s1 s2 => slotFma u t rm d s1 s2 k s
  | .fmin u t d s1 s2 => slotFmin u t d s1 s2 k s
  | .fmax u t d s1 s2 => slotFmax u t d s1 s2 k s
  | .fcmp u c t pd s1 s2 => slotFcmp u c t pd s1 s2 k s
  | .fcvt u td ts rm sat d s1 => slotFcvt u td ts rm sat d s1 k s
  | .fsgn u t m d s1 s2 => slotFsgn u t m d s1 s2 k s
  | .frcp u t rm d s1 => slotFrcp u t rm d s1 k s
  | .frsq u t rm d s1 => slotFrsq u t rm d s1 k s
  | .aadd d s1 s2 => slotAadd d s1 s2 k s
  | .aaddi d s1 imm => slotAaddi d s1 imm k s
  | .asub d s1 s2 => slotAsub d s1 s2 k s
  | .aidx d s1 s2 sh => slotAidx d s1 s2 sh k s
  | .amov d s0 => slotAmov d s0 k s
  | .amovi d imm => slotAmovi d imm k s
  | .acmp c pd s1 s2 => slotAcmp c pd s1 s2 k s
  | .amod d s1 s2 s3 => slotAmod d s1 s2 s3 k s
  | .vadd t rm sat d s1 s2 => slotVadd t rm sat d s1 s2 k s
  | .vsub t rm sat d s1 s2 => slotVsub t rm sat d s1 s2 k s
  | .vmul t rm sat d s1 s2 => slotVmul t rm sat d s1 s2 k s
  | .vfma t rm sat d s1 s2 => slotVfma t rm sat d s1 s2 k s
  | .vmin t d s1 s2 => slotVmin t d s1 s2 k s
  | .vmax t d s1 s2 => slotVmax t d s1 s2 k s
  | .vabs t sat d s1 => slotVabs t sat d s1 k s
  | .vneg t sat d s1 => slotVneg t sat d s1 k s
  | .vand t d s1 s2 => slotVand t d s1 s2 k s
  | .vor t d s1 s2 => slotVor t d s1 s2 k s
  | .vxor t d s1 s2 => slotVxor t d s1 s2 k s
  | .vshl t d s1 s2 => slotVshl t d s1 s2 k s
  | .vshr t d s1 s2 => slotVshr t d s1 s2 k s
  | .vcmp c t d s1 s2 => slotVcmp c t d s1 s2 k s
  | .vsel t d s1 s2 s3 => slotVsel t d s1 s2 s3 k s
  | .vcvt td ts part rm sat d s1 s2 => slotVcvt td ts part rm sat d s1 s2 k s
  | .vpack t part rm sat d s1 s2 => slotVpack t part rm sat d s1 s2 k s
  | .vunpack t part d s1 s2 => slotVunpack t part d s1 s2 k s
  | .vscale blk16 sb rm sat d s1 s2 => slotVscale blk16 sb rm sat d s1 s2 k s
  | .vbcast t k7 d s1 => slotVbcast t k7 d s1 k s
  | .vperm t d s1 s2 => slotVperm t d s1 s2 k s
  | .vshuf pat t d s1 s2 => slotVshuf pat t d s1 s2 k s
  | .vrot t k7 d s1 => slotVrot t k7 d s1 k s
  | .vlane t k7 d s1 => slotVlane t k7 d s1 k s
  | .vins t k7 d s1 => slotVins t k7 d s1 k s
  | .vext t k7 d s1 s2 => slotVext t k7 d s1 s2 k s
  | .vscan op exc seg t rm sat d s1 s2 => slotVscan op exc seg t rm sat d s1 s2 k s
  | .vred op t rm sat d s1 s2 => slotVred op t rm sat d s1 s2 k s
  | .vpart t d s1 s2 s3 => slotVpart t d s1 s2 s3 k s
  | .vexp2 t d s1 => slotVexp2 t d s1 k s
  | .vlog2 t d s1 => slotVlog2 t d s1 k s
  | .vrcp t rm d s1 => slotVrcp t rm d s1 k s
  | .vrsqrt t rm d s1 => slotVrsqrt t rm d s1 k s
  | .vtanh t d s1 => slotVtanh t d s1 k s
  | .vmov d s1 => slotVmov d s1 k s
  | .vmovi w imm d => slotVmovi w imm d k s
  | .ld f t d b imm => slotLd f t d b imm k s
  | .st f t d b imm => slotSt f t d b imm k s
  | .vld v b imm => slotVld v b imm k s
  | .vst v b imm => slotVst v b imm k s
  | .vgath t scl ix b v => slotVgath t scl ix b v k s
  | .vscat t scl ix b v => slotVscat t scl ix b v k s
  | .gld f t d b imm => slotGld f t d b imm k s
  | .gst f t d b imm => slotGst f t d b imm k s
  | .gvld v b imm => slotGvld v b imm k s
  | .gvst v b imm => slotGvst v b imm k s
  | .gpf b imm => slotGpf b imm k s
  | .atom op sco fe sz f d b s0 c => slotAtom op sco fe sz f d b s0 c k s
  | .drain k7 => slotDrain k7 k s
  | .tclr f first last => slotTclr f first last k s
  | .tctl => slotTctl k s
  | .tget d src => slotTget d src k s
  | .spt f reg layer gran => slotSpt f reg layer gran k s
  | .ldt f reg layer gran => slotLdt f reg layer gran k s
  | .bdecl buf base len nl => slotBdecl buf base len nl k s
  | .bstate full buf => slotBstate full buf k s
  | .bfree buf => slotBfree buf k s
  | .semi sem ceil count => slotSemi sem ceil count k s
  | .sems sem n rmt tgt => slotSems sem n rmt tgt k s
  | .semw sem n => slotSemw sem n k s
  | .bar kind bid => slotBar kind bid k s
  | .cmma acc aop bop shp mask sig => slotCmma acc aop bop shp mask sig k s
  | .cmmz acc aop bop shp mask sig => slotCmmz acc aop bop shp mask sig k s
  | .accrd t acc row cg v => slotAccrd t acc row cg v k s
  | .accwr t acc row cg v => slotAccwr t acc row cg v k s
  | .copy rec_ sig => slotCopy rec_ sig k s
  | .msend rec_ cls sig => slotMsend rec_ cls sig k s
  | .putfImm adr imm sig => slotPutfImm adr imm sig k s
  | .putfReg adr val sig => slotPutfReg adr val sig k s
  | .nmc rec_ fe fd sig => slotNmc rec_ fe fd sig k s
  | .pleave cls dur => slotPleave cls dur k s
  | .wlaunch rec_ sig => slotWlaunch rec_ sig k s
  | .crr x crn => slotCrr x crn k s
  | .crw x crn => slotCrw x crn k s
  | .sys code => slotSys code k s
  | .rfe => slotRfe k s
  | .tlbi kind adr => slotTlbi kind adr k s
  | .dbg code => slotDbg code k s
  | .bundleIssue .. | .bubble | .drainPoint | .resultLand | .variableResultLand | .accessSend ..
  | .pageWalk .. | .writeAccepted .. | .writePerforms .. | .atomicPerform .. | .loadPerforms ..
  | .remoteRequestArrive .. | .remoteAccessFault .. | .queuedTranslationFault .. | .poisonConsumed ..
  | .semaphoreCeilingTrap .. | .cubeOpStart .. | .cubeOpLand .. | .cubeOperandFault .. | .copyStart ..
  | .copyComplete .. | .msgAccept .. | .headerRetry .. | .grantToken .. | .msgLineArrive .. | .tokenExpire ..
  | .reRequest .. | .msgFillComplete .. | .msgComplete .. | .orphan .. | .putfComplete .. | .nmcComplete ..
  | .wlaunchDecided .. | .barrierPhaseEnd .. | .trapEntry .. | .preemptionRequest .. | .preemption ..
  | .asyncInterrupt .. | .drainPointOverdue .. | .stallSwitchTimeout .. | .timeSliceExpiry ..
  | .residentSwitch .. | .forcedSwitch .. | .layerWithdrawal .. | .taskComplete .. | .gangComplete ..
  | .gangFailureStop .. | .windowSubmit .. | .windowRegisterWrite .. | .schedulingDecision ..
  | .dictionaryLoad .. | .headAging .. | .reservationMature .. | .spanHoldRequest .. | .spanHoldTimeout ..
  | .recordComplete .. | .campionTick .. | .fastComparator .. | .lReport .. | .thermalTrip ..
  | .thermalResume .. | .tripTimeout .. | .leaveGrant .. | .leaveExpiry .. | .railTrim .. | .railRiseDone ..
  | .layerGate .. | .layerRetention .. | .layerWake .. | .ivrPhaseFailure .. | .storageRemap ..
  | .portFailure .. | .telemetrySample .. | .monitorSample .. | .watchdogTimeout | .powerOnReset ..
  | .functionLevelReset .. | .recoverySubmit | .packageReset .. | .writePartitionDescriptors ..
  | .pinTableChange .. | .commitLimitSet .. | .monitorConfigure .. | .monitorRead .. | .firmwareUpdate ..
  | .attestationQuote .. | .debugAttach .. | .debugDetach .. | .debugEventsOn .. | .debugEventsOff ..
  | .debugHalt .. | .debugStep .. | .debugStepDone .. | .debugResume .. | .debugRead .. | .debugWrite ..
  | .asidRegister .. | .asidDrop .. | .powerLoss .. | .unknownCommand .. => .ok {}

/-- A bundle is attempted in a frame; results that are due at its boundary land first (R118, R121, R138). -/
def tryBundle (s : State) (c : CubeId) (f : FrameId) (b : Bundle) (next : Word) : State :=
  let s := landDue s c f
  match bundleIn (s.frame c f).issue.pc b next with
  | .error t => enterTrap s c f t
  | .ok x => attempt s c f x slotMeaning (ready slotMeaning)

/-- The bundle after the one at the PC: by the packet that holds it (R109), or by its length where the code stream
holds none there. -/
def nextOf (s : State) (c : CubeId) (f : FrameId) (lit : Bool) : Word :=
  match fetchAt s c f with
  | .ok x => x.next
  | .error _ => (s.frame c f).issue.pc + (if lit then 50 else 2)

/-- An event meets the package under power. DESIGN CHOICE, assumption 71. -/
def powered (s : State) (s' : State) : Host.Outcome State Fault Refusal :=
  if s.teasel.power then .next s' else .fault .unpowered

/-- BUNDLE_ISSUE in the running frame of the current cube (R118). -/
def execBundleIssue (lit : Bool) (b : Bundle) (s : State) : Host.Outcome State Fault Refusal :=
  powered s (if mayIssue s s.cur s.curF then tryBundle s s.cur s.curF b (nextOf s s.cur s.curF lit) else s)

/-- BUBBLE: an empty bundle issues while the bundle at the PC, at whose boundary what is due has landed, waits for an armed
register (R121, R124). -/
def bubbleRun (s : State) (c : CubeId) (f : FrameId) : State :=
  if mayIssue s c f then
    let u := landDue s c f
    match fetchAt u c f with
    | .error _ => s
    | .ok x =>
      match bundleIn (u.frame c f).issue.pc x.b x.next with
      | .error _ => s
      | .ok b => (match judge u c f b slotMeaning with | .bubble => bubbleAt u c f | _ => s)
  else s
def execBubble (s : State) : Host.Outcome State Fault Refusal := powered s (bubbleRun s s.cur s.curF)

/-- DRAIN_POINT: what is taken there before the bundle issues, if anything is due (R29, R30, R320). -/
def drainPointRun (s : State) (c : CubeId) (f : FrameId) : State :=
  if mayIssue s c f ∧ atDrainPoint s c f then
    match fetchAt s c f with
    | .error _ => s
    | .ok x =>
      match bundleIn (s.frame c f).issue.pc x.b x.next with
      | .error _ => s
      | .ok b =>
        (match judge s c f b slotMeaning with
         | .trap _ => s
         | _ => (match atDrain s c f b (ready slotMeaning) with | some s' => s' | none => s))
  else s
def execDrainPoint (s : State) : Host.Outcome State Fault Refusal := powered s (drainPointRun s s.cur s.curF)

/-! Traps due at a boundary (R320). -/

/-- The trap that stands first at the boundary a frame has reached: the causes of the bundle at the PC, then the conditions
due; a task that has executed `halt` has no bundle there (R138, R156, R320). -/
def boundaryFirst (s : State) (c : CubeId) (f : FrameId) : Option TrapInfo :=
  let s := landDue (s.modFrame c f landArrived) c f
  if (s.frame c f).issue.halted then afterTrap s c f
  else
    match fetchAt s c f with
    | .error t => some t
    | .ok x =>
      match bundleIn (s.frame c f).issue.pc x.b x.next with
      | .error t => some t
      | .ok b =>
        (match judge s c f b slotMeaning with
         | .trap t => some t
         | v => boundaryTrap s c f b v)

/-- The first due trap of a boundary is entered, if it is of the kind asked for and the control core runs (R320, R383). -/
def takeFirst (s : State) (c : CubeId) (f : FrameId) (p : TrapInfo → Bool) : State :=
  match boundaryFirst s c f with
  | some t =>
    if (s.cube c).camp.trip.isNone && !(s.cube c).fab.coreOff && p t then enterTrap (s.modFrame c f fun r => dropDue r t) c f t else s
  | none => s

/-- TRAP_ENTRY: a trap found after issue is taken before the next bundle (R318, R320). -/
def trapEntryRun (s : State) (c : CubeId) (f : FrameId) : State := takeFirst s c f fun t => decide (afterTrap s c f = some t)
/-- DRAIN_POINT_OVERDUE: the trap of R325, when it is the first due. -/
def overdueRun (s : State) (c : CubeId) (f : FrameId) : State := takeFirst s c f fun t => decide (overdue s c f = some t)
/-- POISON_CONSUMED: poison and withdrawals, where they fall due (R78, R388). -/
def poisonConsumedRun (s : State) (c : CubeId) (f : FrameId) : State :=
  let x := (s.frame c f).fl
  takeFirst s c f fun t => x.traps.any (fun u => u = t && (t.cause = 12 || t.cause = 13)) || x.due.any fun d => d.info = t
/-- SEMAPHORE_CEILING_TRAP: a refused addition, where it falls due (R104). -/
def semCeilingRun (s : State) (c : CubeId) (f : FrameId) : State := takeFirst s c f fun t => t.cause = 8

/-- RESULT_LAND: fixed-latency results whose landing bundle is the one at the PC (R121, R123). -/
def execResultLand (s : State) : Host.Outcome State Fault Refusal := powered s (landDue s s.cur s.curF)

/-- VARIABLE_RESULT_LAND: results whose values have arrived (R122). -/
def execVariableResultLand (s : State) : Host.Outcome State Fault Refusal := powered s (s.modCf landArrived)

/-! A turn of the control core. -/

/-- The frame has left the core for good or until it is turned to again: it stopped, or stands in its block (R28,
R32, R34). DEDUCED, assumption 45. -/
def offCore (s : State) (r : Frame) : Bool := r.task.isNone || r.issue.stopped || r.issue.swapped || gangHolds s r

/-- Whether a bundle that stalls leaves everything as it is (R138). -/
def standing (s : State) (c : CubeId) (f : FrameId) (b : BundleIn) : Bool :=
  let r := s.frame c f
  match judge s c f b slotMeaning with
  | .stall w =>
    (boundaryTrap s c f b (.stall w)).isNone && (!w || (s.cube c).stallSince.isSome) && !forcedDue (ready slotMeaning) s c f &&
      !(b.dp && r.fl.land.isEmpty && drained s c f && (atDrain s c f b (ready slotMeaning)).isSome)
  | _ => false

/-- The bundle at the PC of a frame that may issue; `none` while it stalls. -/
def issueTurn (s : State) (c : CubeId) (f : FrameId) : Option State :=
  match fetchAt s c f with
  | .error t => some (enterTrap (logFetch s c f t) c f t)
  | .ok x =>
    match bundleIn (s.frame c f).issue.pc x.b x.next with
    | .error t => some (enterTrap s c f t)
    | .ok b => if standing s c f b then none else some (attempt s c f b slotMeaning (ready slotMeaning))

/-- A turn of a cube's control core: results land, then the bundle at the PC issues, traps, or stalls; a task that has
executed `halt` still takes the traps found after it (R156, R204); a core whose frame has left it turns to a resident
that is ready (R28). `none` where the core has nothing to do. -/
def coreTurn (s : State) (c : CubeId) : Option State :=
  let s := { s with cur := c }
  let f := s.curF
  let r := s.cf
  if (s.cube c).camp.trip.isSome || (s.cube c).fab.coreOff then none
  else if offCore s r then (if ready slotMeaning s c (otherF f) then some (switchCore s c) else none)
  else if r.issue.halted then
    (match afterTrap s c f with
     | some t => some (enterTrap (s.modFrame c f fun r => dropTrap r t) c f t)
     | none => if r.fl.land.isEmpty && r.fl.var.all (·.val.isNone) then none else some (landHalted s c f))
  else if mayIssue s c f then issueTurn (landDue ((sliceExpiryRun s c).modFrame c f landArrived) c f) c f
  else none

/-- The sync queues of every frame go as far as they can: their operations are no steps of the table of their own
(R105). DEDUCED, assumption 74. -/
def syncAll (s : State) : State :=
  allFrames.foldl (fun s x => syncRun (s.frame x.1 x.2).fl.syncQ.length s x.1 x.2) s

end Sys2Proof.Machine
end

