-- ==== Sys2Proof/Machine/Events.lean ====
section
/-! DEFINITION. The events of the opcode table: each row's meaning, where its item is present and its conditions hold;
where they do not, the machine stands as it is. -/

namespace Sys2Proof.Machine

/-- LAYER_WITHDRAWAL: at a drain point of a task that storage still has to leave (R36). -/
def withdrawalRun (s : State) (c : CubeId) (f : FrameId) : State :=
  let r := s.frame c f
  if !r.priv.lvl && atDrainPoint s c f && withdrawalDue (s.cube c) r then withdraw s c f else s

/-- ACCESS_SEND: a queued access is sent (R91). -/
def execAccessSend (c : CubeId) (f : FrameId) (id : Nat) (line : Nat) (s : State) : Host.Outcome State Fault Refusal :=
  powered s (accessSendRun s c f id line)
/-- PAGE_WALK: a walk of the page tables (R356, R358). -/
def execPageWalk (c : CubeId) (f : FrameId) (src : Stream) (va : Word) (s : State) : Host.Outcome State Fault Refusal :=
  powered s (pageWalkRun s c f src va)
/-- WRITE_ACCEPTED: a write enters the merge buffer (R84). -/
def execWriteAccepted (c : CubeId) (f : FrameId) (id : Nat) (line : Nat) (s : State) : Host.Outcome State Fault Refusal :=
  powered s (acceptWrite s c f id line)
/-- WRITE_PERFORMS: an accepted write becomes visible (R84). -/
def execWritePerforms (mid : Nat) (s : State) : Host.Outcome State Fault Refusal := powered s (performWrite s mid)
/-- ATOMIC_PERFORM: an atomic at its home (R85, R205). -/
def execAtomicPerform (c : CubeId) (f : FrameId) (id : Nat) (s : State) : Host.Outcome State Fault Refusal :=
  powered s (performAtom s c f id)
/-- LOAD_PERFORMS: a tracked load performs and its tag is released (R89). -/
def execLoadPerforms (c : CubeId) (f : FrameId) (id : Nat) (s : State) : Host.Outcome State Fault Refusal :=
  powered s (loadPerform s c f id)
/-- REMOTE_REQUEST_ARRIVE: a request from another package (R361, R363). -/
def execRemoteRequestArrive (q : RemoteReq) (s : State) : Host.Outcome State Fault Refusal :=
  powered s (spanArriveRun s q)
/-- REMOTE_ACCESS_FAULT: a refused access returns to its issuer (R361). -/
def execRemoteAccessFault (c : CubeId) (f : FrameId) (id : Nat) (s : State) : Host.Outcome State Fault Refusal :=
  powered s (remoteFault s c f id)
/-- QUEUED_TRANSLATION_FAULT: a queued access does not translate (R204, R244, R255). -/
def execQueuedTranslationFault (c : CubeId) (f : FrameId) (src : Stream) (s : State) : Host.Outcome State Fault Refusal :=
  powered s (queuedFaultRun s c f src)
/-- POISON_CONSUMED: poison consumed (R78). -/
def execPoisonConsumed (c : CubeId) (f : FrameId) (s : State) : Host.Outcome State Fault Refusal :=
  powered s (poisonConsumedRun s c f)
/-- SEMAPHORE_CEILING_TRAP: a refused addition at a drain point (R104). -/
def execSemaphoreCeilingTrap (c : CubeId) (f : FrameId) (s : State) : Host.Outcome State Fault Refusal :=
  powered s (semCeilingRun s c f)
/-- CUBE_OP_START: the head of the cube queue starts (R229). -/
def execCubeOpStart (c : CubeId) (f : FrameId) (s : State) : Host.Outcome State Fault Refusal :=
  powered s (cubeStart s c f)
/-- CUBE_OP_LAND: a cube operation lands (R230). -/
def execCubeOpLand (c : CubeId) (f : FrameId) (id : Nat) (s : State) : Host.Outcome State Fault Refusal :=
  powered s (cubeLand s c f id)
/-- CUBE_OPERAND_FAULT: a global operand does not translate (R244). -/
def execCubeOperandFault (c : CubeId) (f : FrameId) (id : Nat) (s : State) : Host.Outcome State Fault Refusal :=
  powered s (cubeOperandFault s c f id)
/-- COPY_START: the copy engine starts (R255). -/
def execCopyStart (c : CubeId) (f : FrameId) (s : State) : Host.Outcome State Fault Refusal :=
  powered s (copyStart s c f)
/-- COPY_COMPLETE: a copy completes (R100). -/
def execCopyComplete (c : CubeId) (f : FrameId) (id : Nat) (s : State) : Host.Outcome State Fault Refusal :=
  powered s (copyComplete s c f id)
/-- MSG_ACCEPT: a header is accepted or refused (R258). -/
def execMsgAccept (src : MsgSrc) (s : State) : Host.Outcome State Fault Refusal := powered s (msgAcceptRun s src)
/-- HEADER_RETRY: a header is tried again (R368). -/
def execHeaderRetry (c : CubeId) (f : FrameId) (msgid : Nat) (s : State) : Host.Outcome State Fault Refusal :=
  powered s (headerRetryRun s c f msgid)
/-- GRANT_TOKEN: Yarrow grants a token (R368). -/
def execGrantToken (c : CubeId) (s : State) : Host.Outcome State Fault Refusal := powered s (grantRun s c)
/-- MSG_LINE_ARRIVE: a message line arrives (R369). -/
def execMsgLineArrive (c : CubeId) (tok : Nat) (line : Nat) (data : MsgLine) (s : State) : Host.Outcome State Fault Refusal :=
  powered s (lineArriveRun s c tok line data)
/-- TOKEN_EXPIRE: a token expires (R369). -/
def execTokenExpire (c : CubeId) (tok : Nat) (s : State) : Host.Outcome State Fault Refusal :=
  powered s (expireRun s c tok)
/-- RE_REQUEST: returned lines are asked for again (R369). -/
def execReRequest (c : CubeId) (req : Nat) (s : State) : Host.Outcome State Fault Refusal :=
  powered s (reRequestRun s c req)
/-- MSG_FILL_COMPLETE: a receiver's fill completes (R259). -/
def execMsgFillComplete (c : CubeId) (req : Nat) (s : State) : Host.Outcome State Fault Refusal :=
  powered s (fillCompleteRun s c req)
/-- MSG_COMPLETE: a message ends at its sender (R261). -/
def execMsgComplete (c : CubeId) (f : FrameId) (msgid : Nat) (s : State) : Host.Outcome State Fault Refusal :=
  powered s (msgCompleteRun s c f msgid)
/-- ORPHAN: a message is orphaned (R263). -/
def execOrphan (c : CubeId) (req : Nat) (s : State) : Host.Outcome State Fault Refusal :=
  powered s (orphanRun s c req)
/-- PUTF_COMPLETE: a flag write performs (R264). -/
def execPutfComplete (c : CubeId) (f : FrameId) (id : Nat) (s : State) : Host.Outcome State Fault Refusal :=
  powered s (putfCompleteRun s c f id)
/-- NMC_COMPLETE: a near-memory command finishes (R266). -/
def execNmcComplete (c : CubeId) (f : FrameId) (id : Nat) (s : State) : Host.Outcome State Fault Refusal :=
  powered s (nmcComplete s c f id)
/-- WLAUNCH_DECIDED: a `wlaunch` is decided (R340). -/
def execWlaunchDecided (c : CubeId) (f : FrameId) (s : State) : Host.Outcome State Fault Refusal :=
  powered s (wlaunchRun s c f)
/-- BARRIER_PHASE_END: a phase reaches its count (R220). -/
def execBarrierPhaseEnd (launch : LaunchName) (gang : Nat) (kind : BarKind) (bid : BitVec 4) (s : State) : Host.Outcome State Fault Refusal :=
  powered s (barrierPhaseRun s launch.part launch.id gang kind bid)
/-- TRAP_ENTRY: a due trap is taken (R318, R320). -/
def execTrapEntry (c : CubeId) (f : FrameId) (s : State) : Host.Outcome State Fault Refusal :=
  powered s (trapEntryRun s c f)
/-- PREEMPTION_REQUEST: a pre-emption request (R31). -/
def execPreemptionRequest (launch : LaunchName) (gang : Nat) (s : State) : Host.Outcome State Fault Refusal :=
  powered s (preemptionRequestRun s launch.part launch.id gang)
/-- PREEMPTION: a task stops at a drain point (R324). -/
def execPreemption (c : CubeId) (f : FrameId) (s : State) : Host.Outcome State Fault Refusal :=
  powered s (preemptionRun s c f)
/-- ASYNC_INTERRUPT: an interrupt at a drain point (R30). -/
def execAsyncInterrupt (c : CubeId) (f : FrameId) (s : State) : Host.Outcome State Fault Refusal :=
  powered s (asyncRun s c f)
/-- DRAIN_POINT_OVERDUE: DPLIMIT bundles without a drain point (R325). -/
def execDrainPointOverdue (c : CubeId) (f : FrameId) (s : State) : Host.Outcome State Fault Refusal :=
  powered s (overdueRun s c f)
/-- STALL_SWITCH_TIMEOUT: 512 cycles of a stall (R28). -/
def execStallSwitchTimeout (c : CubeId) (s : State) : Host.Outcome State Fault Refusal :=
  powered s (stallSwitchRun slotMeaning s c)
/-- TIME_SLICE_EXPIRY: a time slice ends (R28). -/
def execTimeSliceExpiry (c : CubeId) (s : State) : Host.Outcome State Fault Refusal := powered s (sliceExpiryRun s c)
/-- RESIDENT_SWITCH: the core turns to the other resident (R28). -/
def execResidentSwitch (c : CubeId) (s : State) : Host.Outcome State Fault Refusal :=
  powered s (residentSwitchRun slotMeaning s c)
/-- FORCED_SWITCH: a switch by force (R28). -/
def execForcedSwitch (c : CubeId) (s : State) : Host.Outcome State Fault Refusal := powered s (forcedSwitchRun slotMeaning s c)
/-- LAYER_WITHDRAWAL: storage leaves service for a task at its drain point (R36). -/
def execLayerWithdrawal (c : CubeId) (f : FrameId) (s : State) : Host.Outcome State Fault Refusal :=
  powered s (withdrawalRun s c f)
/-- TASK_COMPLETE: a halted task completes (R33). -/
def execTaskComplete (c : CubeId) (f : FrameId) (s : State) : Host.Outcome State Fault Refusal :=
  powered s (taskCompleteRun s c f)
/-- GANG_COMPLETE: a gang completes (R33). -/
def execGangComplete (launch : LaunchName) (gang : Nat) (s : State) : Host.Outcome State Fault Refusal :=
  powered s (gangCompleteRun s launch.part launch.id gang)
/-- GANG_FAILURE_STOP: members of a failed gang stop (R34). -/
def execGangFailureStop (launch : LaunchName) (gang : Nat) (s : State) : Host.Outcome State Fault Refusal :=
  powered s (gangFailureRun s launch.part launch.id gang)
/-- WINDOW_SUBMIT: a write to SUBMIT (R334). -/
def execWindowSubmit (q : WindowName) (s : State) : Host.Outcome State Fault Refusal :=
  powered s (windowSubmitRun s q.fn q.q.toNat)
/-- WINDOW_REGISTER_WRITE: a write to a window register (R333). -/
def execWindowRegisterWrite (q : WindowName) (off : Nat) (val : Word) (s : State) : Host.Outcome State Fault Refusal :=
  powered s (windowWriteRun s q.fn q.q.toNat off val)
/-- SCHEDULING_DECISION: a decision of the scheduler (R346). -/
def execSchedulingDecision (part : Fin 4) (s : State) : Host.Outcome State Fault Refusal :=
  powered s (schedulingRun s part.val)
/-- DICTIONARY_LOAD: dictionary halves are loaded (R111). -/
def execDictionaryLoad (launch : LaunchName) (gang : Nat) (s : State) : Host.Outcome State Fault Refusal :=
  powered s (dictionaryLoadRun s launch.part launch.id gang)
/-- HEAD_AGING: a queue head ages (R346). -/
def execHeadAging (q : BitVec 6) (s : State) : Host.Outcome State Fault Refusal := powered s (headAgingRun s q.toNat)
/-- RESERVATION_MATURE: a reservation of 10 ms (R350). -/
def execReservationMature (c : CubeId) (s : State) : Host.Outcome State Fault Refusal :=
  powered s (reservationMatureRun s c)
/-- SPAN_HOLD_REQUEST: a hold for a span (R352). -/
def execSpanHoldRequest (launch : LaunchName) (pkg : Nat) (s : State) : Host.Outcome State Fault Refusal :=
  powered s (spanHoldRun s launch.part launch.id pkg)
/-- SPAN_HOLD_TIMEOUT: holds not all given (R352). -/
def execSpanHoldTimeout (launch : LaunchName) (s : State) : Host.Outcome State Fault Refusal :=
  powered s (spanTimeoutRun s launch.part launch.id)
/-- RECORD_COMPLETE: a record completes (R342). -/
def execRecordComplete (launch : LaunchName) (s : State) : Host.Outcome State Fault Refusal :=
  powered s (recordCompleteRun s launch.part launch.id)
/-- CAMPION_TICK: Campion evaluates (R378). -/
def execCampionTick (c : CubeId) (amps : Nat) (temp : Nat) (s : State) : Host.Outcome State Fault Refusal :=
  powered s (campionTickRun s c amps temp)
/-- FAST_COMPARATOR: the fast comparator (R378). -/
def execFastComparator (c : CubeId) (amps : Nat) (s : State) : Host.Outcome State Fault Refusal :=
  powered s (fastComparatorRun s c amps)
/-- L_REPORT: the limit L is reported (R381). -/
def execLReport (c : CubeId) (s : State) : Host.Outcome State Fault Refusal := powered s (lReportRun s c)
/-- THERMAL_TRIP: a trip (R383). -/
def execThermalTrip (c : CubeId) (temp : Nat) (s : State) : Host.Outcome State Fault Refusal :=
  powered s (thermalTripRun s c temp)
/-- THERMAL_RESUME: a cube resumes (R383). -/
def execThermalResume (c : CubeId) (temp : Nat) (s : State) : Host.Outcome State Fault Refusal :=
  powered s (thermalResumeRun s c temp)
/-- TRIP_TIMEOUT: a trip of 1 s (R383). -/
def execTripTimeout (c : CubeId) (s : State) : Host.Outcome State Fault Refusal := powered s (tripTimeoutRun s c)
/-- LEAVE_GRANT: a leave is granted (R384). -/
def execLeaveGrant (c : CubeId) (s : State) : Host.Outcome State Fault Refusal := powered s (leaveGrantRun s c)
/-- LEAVE_EXPIRY: a leave ends (R269). -/
def execLeaveExpiry (c : CubeId) (f : FrameId) (s : State) : Host.Outcome State Fault Refusal :=
  powered s (leaveExpiryRun s c f)
/-- RAIL_TRIM: a rail is trimmed (R374). -/
def execRailTrim (c : CubeId) (pass : List Nat) (s : State) : Host.Outcome State Fault Refusal :=
  powered s (railTrimRun s c pass)
/-- RAIL_RISE_DONE: a rail reaches its target (R375). -/
def execRailRiseDone (c : CubeId) (layer : Fin 8) (s : State) : Host.Outcome State Fault Refusal :=
  powered s (railRiseRun s c layer)
/-- LAYER_GATE: a layer's clock stops (R376). -/
def execLayerGate (c : CubeId) (layer : Fin 8) (s : State) : Host.Outcome State Fault Refusal :=
  powered s (layerGateRun s c layer)
/-- LAYER_RETENTION: a layer enters RETENTION (R376). -/
def execLayerRetention (c : CubeId) (layer : Fin 8) (s : State) : Host.Outcome State Fault Refusal :=
  powered s (layerRetentionRun s c layer)
/-- LAYER_WAKE: a layer returns to ACTIVE (R376). -/
def execLayerWake (c : CubeId) (layer : Fin 8) (s : State) : Host.Outcome State Fault Refusal :=
  powered s (layerWakeRun s c layer)
/-- IVR_PHASE_FAILURE: a regulator phase fails (R388). -/
def execIvrPhaseFailure (c : CubeId) (layer : Fin 8) (group : Fin 16) (rail : Fin 4) (s : State) : Host.Outcome State Fault Refusal :=
  powered s (ivrRun s c layer group rail)
/-- STORAGE_REMAP: a remap or a retirement (R389). -/
def execStorageRemap (x : StorageFault) (s : State) : Host.Outcome State Fault Refusal := powered s (storageRun s x)
/-- PORT_FAILURE: a port fails (R366). -/
def execPortFailure (c : CubeId) (port : BitVec 4) (newPort : BitVec 4) (s : State) : Host.Outcome State Fault Refusal :=
  powered s (portFailureRun s c port newPort)
/-- TELEMETRY_SAMPLE: telemetry is recorded (R386). -/
def execTelemetrySample (values : List Word) (s : State) : Host.Outcome State Fault Refusal :=
  powered s (telemetryRun s values)
/-- MONITOR_SAMPLE: a monitor takes a sample (R387). -/
def execMonitorSample (c : CubeId) (m : Fin 8) (v : Nat) (s : State) : Host.Outcome State Fault Refusal :=
  powered s (monitorSampleRun s c m v)
/-- WATCHDOG_TIMEOUT: the watchdog (R391). -/
def execWatchdogTimeout (s : State) : Host.Outcome State Fault Refusal := powered s (watchdogRun s)
/-- POWER_ON_RESET: power comes on and the boot sequence runs (R392). -/
def execPowerOnReset (i : BootInput) (s : State) : Host.Outcome State Fault Refusal :=
  .next (bootRun { s with teasel := { s.teasel with power := true } } i)
/-- FUNCTION_LEVEL_RESET: a function-level reset (R392). -/
def execFunctionLevelReset (p : Fin 4) (s : State) : Host.Outcome State Fault Refusal := powered s (flrRun s p.val)
/-- RECOVERY_SUBMIT: a write to the recovery trigger (R395). -/
def execRecoverySubmit (s : State) : Host.Outcome State Fault Refusal := powered s (recoveryRun s)
/-- PACKAGE_RESET: command 0x01 (R397). -/
def execPackageReset (fn : Fin 4) (i : BootInput) (s : State) : Host.Outcome State Fault Refusal :=
  powered s (packageResetRun s fn i)
/-- WRITE_PARTITION_DESCRIPTORS: command 0x02 (R371). -/
def execWritePartitionDescriptors (fn : Fin 4) (s : State) : Host.Outcome State Fault Refusal :=
  powered s (descriptorsRun s fn)
/-- PIN_TABLE_CHANGE: command 0x03 (R360). -/
def execPinTableChange (fn : Fin 4) (s : State) : Host.Outcome State Fault Refusal := powered s (pinRun s fn)
/-- COMMIT_LIMIT_SET: command 0x04 (R377). -/
def execCommitLimitSet (fn : Fin 4) (s : State) : Host.Outcome State Fault Refusal := powered s (limitsRun s fn)
/-- MONITOR_CONFIGURE: command 0x05, action 0 (R387). -/
def execMonitorConfigure (fn : Fin 4) (s : State) : Host.Outcome State Fault Refusal :=
  powered s (monConfigureRun s fn)
/-- MONITOR_READ: command 0x05, action 1 (R397). -/
def execMonitorRead (fn : Fin 4) (s : State) : Host.Outcome State Fault Refusal := powered s (monReadRun s fn)
/-- FIRMWARE_UPDATE: command 0x06 (R394). -/
def execFirmwareUpdate (fn : Fin 4) (s : State) : Host.Outcome State Fault Refusal := powered s (firmwareRun s fn)
/-- ATTESTATION_QUOTE: command 0x07 (R398). -/
def execAttestationQuote (fn : Fin 4) (s : State) : Host.Outcome State Fault Refusal := powered s (quoteRun s fn)
/-- DEBUG_ATTACH: ATTACH (R401). -/
def execDebugAttach (fn : Fin 4) (s : State) : Host.Outcome State Fault Refusal := powered s (attachRun s fn)
/-- DEBUG_DETACH: DETACH (R401). -/
def execDebugDetach (fn : Fin 4) (s : State) : Host.Outcome State Fault Refusal := powered s (detachRun s fn)
/-- DEBUG_EVENTS_ON: EVENTS on (R401). -/
def execDebugEventsOn (fn : Fin 4) (s : State) : Host.Outcome State Fault Refusal := powered s (eventsRun s fn true)
/-- DEBUG_EVENTS_OFF: EVENTS off (R401). -/
def execDebugEventsOff (fn : Fin 4) (s : State) : Host.Outcome State Fault Refusal := powered s (eventsRun s fn false)
/-- DEBUG_HALT: HALT (R401). -/
def execDebugHalt (fn : Fin 4) (s : State) : Host.Outcome State Fault Refusal := powered s (haltRun s fn)
/-- DEBUG_STEP: STEP (R401). -/
def execDebugStep (fn : Fin 4) (s : State) : Host.Outcome State Fault Refusal := powered s (stepRun s fn)
/-- DEBUG_STEP_DONE: the count of STEP is reached (R401). -/
def execDebugStepDone (c : CubeId) (f : FrameId) (s : State) : Host.Outcome State Fault Refusal :=
  powered s (stepDoneRun s c f)
/-- DEBUG_RESUME: RESUME (R401). -/
def execDebugResume (fn : Fin 4) (s : State) : Host.Outcome State Fault Refusal := powered s (resumeRun s fn)
/-- DEBUG_READ: READ (R402). -/
def execDebugRead (fn : Fin 4) (s : State) : Host.Outcome State Fault Refusal := powered s (dbgReadRun s fn)
/-- DEBUG_WRITE: WRITE (R402). -/
def execDebugWrite (fn : Fin 4) (s : State) : Host.Outcome State Fault Refusal := powered s (dbgWriteRun s fn)
/-- ASID_REGISTER: command 0x09, action 0 (R397). -/
def execAsidRegister (fn : Fin 4) (s : State) : Host.Outcome State Fault Refusal := powered s (asidRegisterRun s fn)
/-- ASID_DROP: command 0x09, action 1 (R397). -/
def execAsidDrop (fn : Fin 4) (s : State) : Host.Outcome State Fault Refusal := powered s (asidDropRun s fn)
/-- POWER_LOSS: power is lost (R394). -/
def execPowerLoss (duringCopy : Bool) (s : State) : Host.Outcome State Fault Refusal :=
  powered s (powerLossRun s duringCopy)
/-- UNKNOWN_COMMAND: a command that none defines (R396). -/
def execUnknownCommand (fn : Fin 4) (s : State) : Host.Outcome State Fault Refusal := powered s (unknownRun s fn)

end Sys2Proof.Machine
end

