-- ==== Sys2Proof/Machine/Dispatch.lean ====
section
/-! DEFINITION. One arm per constructor of `Instr`, each a call of its meaning. -/

namespace Sys2Proof.Machine

def exec (i : Instr) (s : State) : Host.Outcome State Fault Refusal :=
  match i with
  | .bundleIssue lit b => Sys2Proof.Machine.execBundleIssue lit b s
  | .bubble => Sys2Proof.Machine.execBubble s
  | .drainPoint => Sys2Proof.Machine.execDrainPoint s
  | .resultLand => Sys2Proof.Machine.execResultLand s
  | .variableResultLand => Sys2Proof.Machine.execVariableResultLand s
  | .nop => Sys2Proof.Machine.execNop s
  | .br off => Sys2Proof.Machine.execBr off s
  | .bri tg => Sys2Proof.Machine.execBri tg s
  | .call off => Sys2Proof.Machine.execCall off s
  | .calli lk tg => Sys2Proof.Machine.execCalli lk tg s
  | .ret tg => Sys2Proof.Machine.execRet tg s
  | .lsetImm lv cnt => Sys2Proof.Machine.execLsetImm lv cnt s
  | .lsetReg lv cl c => Sys2Proof.Machine.execLsetReg lv cl c s
  | .lstride lv ad st => Sys2Proof.Machine.execLstride lv ad st s
  | .loop lv => Sys2Proof.Machine.execLoop lv s
  | .lexit lv off => Sys2Proof.Machine.execLexit lv off s
  | .wcfg sz wo st => Sys2Proof.Machine.execWcfg sz wo st s
  | .setfmt af bf acm scm orm => Sys2Proof.Machine.execSetfmt af bf acm scm orm s
  | .setfid b0 b1 b2 => Sys2Proof.Machine.execSetfid b0 b1 b2 s
  | .yield => Sys2Proof.Machine.execYield s
  | .trap code => Sys2Proof.Machine.execTrap code s
  | .halt => Sys2Proof.Machine.execHalt s
  | .add u t sat d s1 s2 => Sys2Proof.Machine.execAdd u t sat d s1 s2 s
  | .addi u d s1 imm => Sys2Proof.Machine.execAddi u d s1 imm s
  | .sub u t sat d s1 s2 => Sys2Proof.Machine.execSub u t sat d s1 s2 s
  | .mul u t d s1 s2 => Sys2Proof.Machine.execMul u t d s1 s2 s
  | .mulh u t d s1 s2 => Sys2Proof.Machine.execMulh u t d s1 s2 s
  | .mulhz u t d s1 s2 => Sys2Proof.Machine.execMulhz u t d s1 s2 s
  | .div u t d s1 s2 => Sys2Proof.Machine.execDiv u t d s1 s2 s
  | .rem u t d s1 s2 => Sys2Proof.Machine.execRem u t d s1 s2 s
  | .and u t d s1 s2 => Sys2Proof.Machine.execAnd u t d s1 s2 s
  | .andn u t d s1 s2 => Sys2Proof.Machine.execAndn u t d s1 s2 s
  | .or u t d s1 s2 => Sys2Proof.Machine.execOr u t d s1 s2 s
  | .xor u t d s1 s2 => Sys2Proof.Machine.execXor u t d s1 s2 s
  | .sll u t d s1 s2 => Sys2Proof.Machine.execSll u t d s1 s2 s
  | .srl u t d s1 s2 => Sys2Proof.Machine.execSrl u t d s1 s2 s
  | .sra u t d s1 s2 => Sys2Proof.Machine.execSra u t d s1 s2 s
  | .rol u t d s1 s2 => Sys2Proof.Machine.execRol u t d s1 s2 s
  | .min u t d s1 s2 => Sys2Proof.Machine.execMin u t d s1 s2 s
  | .max u t d s1 s2 => Sys2Proof.Machine.execMax u t d s1 s2 s
  | .minz u t d s1 s2 => Sys2Proof.Machine.execMinz u t d s1 s2 s
  | .maxz u t d s1 s2 => Sys2Proof.Machine.execMaxz u t d s1 s2 s
  | .cmp u c t pd s1 s2 => Sys2Proof.Machine.execCmp u c t pd s1 s2 s
  | .cmpi u c pd s1 imm => Sys2Proof.Machine.execCmpi u c pd s1 imm s
  | .sel u ps d s1 s2 => Sys2Proof.Machine.execSel u ps d s1 s2 s
  | .clz u t d s1 => Sys2Proof.Machine.execClz u t d s1 s
  | .ctz u t d s1 => Sys2Proof.Machine.execCtz u t d s1 s
  | .popc u t d s1 => Sys2Proof.Machine.execPopc u t d s1 s
  | .sext u t d s1 => Sys2Proof.Machine.execSext u t d s1 s
  | .zext u t d s1 => Sys2Proof.Machine.execZext u t d s1 s
  | .mov u d s1 => Sys2Proof.Machine.execMov u d s1 s
  | .movi u d imm => Sys2Proof.Machine.execMovi u d imm s
  | .movhi u d imm pos => Sys2Proof.Machine.execMovhi u d imm pos s
  | .pand u pd pa pb => Sys2Proof.Machine.execPand u pd pa pb s
  | .por u pd pa pb => Sys2Proof.Machine.execPor u pd pa pb s
  | .pxor u pd pa pb => Sys2Proof.Machine.execPxor u pd pa pb s
  | .pnot u pd pa => Sys2Proof.Machine.execPnot u pd pa s
  | .xmov u dc d s0 => Sys2Proof.Machine.execXmov u dc d s0 s
  | .fadd u t rm d s1 s2 => Sys2Proof.Machine.execFadd u t rm d s1 s2 s
  | .fsub u t rm d s1 s2 => Sys2Proof.Machine.execFsub u t rm d s1 s2 s
  | .fmul u t rm d s1 s2 => Sys2Proof.Machine.execFmul u t rm d s1 s2 s
  | .fma u t rm d s1 s2 => Sys2Proof.Machine.execFma u t rm d s1 s2 s
  | .fmin u t d s1 s2 => Sys2Proof.Machine.execFmin u t d s1 s2 s
  | .fmax u t d s1 s2 => Sys2Proof.Machine.execFmax u t d s1 s2 s
  | .fcmp u c t pd s1 s2 => Sys2Proof.Machine.execFcmp u c t pd s1 s2 s
  | .fcvt u td ts rm sat d s1 => Sys2Proof.Machine.execFcvt u td ts rm sat d s1 s
  | .fsgn u t m d s1 s2 => Sys2Proof.Machine.execFsgn u t m d s1 s2 s
  | .frcp u t rm d s1 => Sys2Proof.Machine.execFrcp u t rm d s1 s
  | .frsq u t rm d s1 => Sys2Proof.Machine.execFrsq u t rm d s1 s
  | .aadd d s1 s2 => Sys2Proof.Machine.execAadd d s1 s2 s
  | .aaddi d s1 imm => Sys2Proof.Machine.execAaddi d s1 imm s
  | .asub d s1 s2 => Sys2Proof.Machine.execAsub d s1 s2 s
  | .aidx d s1 s2 sh => Sys2Proof.Machine.execAidx d s1 s2 sh s
  | .amov d s0 => Sys2Proof.Machine.execAmov d s0 s
  | .amovi d imm => Sys2Proof.Machine.execAmovi d imm s
  | .acmp c pd s1 s2 => Sys2Proof.Machine.execAcmp c pd s1 s2 s
  | .amod d s1 s2 s3 => Sys2Proof.Machine.execAmod d s1 s2 s3 s
  | .vadd t rm sat d s1 s2 => Sys2Proof.Machine.execVadd t rm sat d s1 s2 s
  | .vsub t rm sat d s1 s2 => Sys2Proof.Machine.execVsub t rm sat d s1 s2 s
  | .vmul t rm sat d s1 s2 => Sys2Proof.Machine.execVmul t rm sat d s1 s2 s
  | .vfma t rm sat d s1 s2 => Sys2Proof.Machine.execVfma t rm sat d s1 s2 s
  | .vmin t d s1 s2 => Sys2Proof.Machine.execVmin t d s1 s2 s
  | .vmax t d s1 s2 => Sys2Proof.Machine.execVmax t d s1 s2 s
  | .vabs t sat d s1 => Sys2Proof.Machine.execVabs t sat d s1 s
  | .vneg t sat d s1 => Sys2Proof.Machine.execVneg t sat d s1 s
  | .vand t d s1 s2 => Sys2Proof.Machine.execVand t d s1 s2 s
  | .vor t d s1 s2 => Sys2Proof.Machine.execVor t d s1 s2 s
  | .vxor t d s1 s2 => Sys2Proof.Machine.execVxor t d s1 s2 s
  | .vshl t d s1 s2 => Sys2Proof.Machine.execVshl t d s1 s2 s
  | .vshr t d s1 s2 => Sys2Proof.Machine.execVshr t d s1 s2 s
  | .vcmp c t d s1 s2 => Sys2Proof.Machine.execVcmp c t d s1 s2 s
  | .vsel t d s1 s2 s3 => Sys2Proof.Machine.execVsel t d s1 s2 s3 s
  | .vcvt td ts part rm sat d s1 s2 => Sys2Proof.Machine.execVcvt td ts part rm sat d s1 s2 s
  | .vpack t part rm sat d s1 s2 => Sys2Proof.Machine.execVpack t part rm sat d s1 s2 s
  | .vunpack t part d s1 s2 => Sys2Proof.Machine.execVunpack t part d s1 s2 s
  | .vscale blk16 sb rm sat d s1 s2 => Sys2Proof.Machine.execVscale blk16 sb rm sat d s1 s2 s
  | .vbcast t k d s1 => Sys2Proof.Machine.execVbcast t k d s1 s
  | .vperm t d s1 s2 => Sys2Proof.Machine.execVperm t d s1 s2 s
  | .vshuf pat t d s1 s2 => Sys2Proof.Machine.execVshuf pat t d s1 s2 s
  | .vrot t k d s1 => Sys2Proof.Machine.execVrot t k d s1 s
  | .vlane t k d s1 => Sys2Proof.Machine.execVlane t k d s1 s
  | .vins t k d s1 => Sys2Proof.Machine.execVins t k d s1 s
  | .vext t k d s1 s2 => Sys2Proof.Machine.execVext t k d s1 s2 s
  | .vscan op exc seg t rm sat d s1 s2 => Sys2Proof.Machine.execVscan op exc seg t rm sat d s1 s2 s
  | .vred op t rm sat d s1 s2 => Sys2Proof.Machine.execVred op t rm sat d s1 s2 s
  | .vpart t d s1 s2 s3 => Sys2Proof.Machine.execVpart t d s1 s2 s3 s
  | .vexp2 t d s1 => Sys2Proof.Machine.execVexp2 t d s1 s
  | .vlog2 t d s1 => Sys2Proof.Machine.execVlog2 t d s1 s
  | .vrcp t rm d s1 => Sys2Proof.Machine.execVrcp t rm d s1 s
  | .vrsqrt t rm d s1 => Sys2Proof.Machine.execVrsqrt t rm d s1 s
  | .vtanh t d s1 => Sys2Proof.Machine.execVtanh t d s1 s
  | .vmov d s1 => Sys2Proof.Machine.execVmov d s1 s
  | .vmovi w imm d => Sys2Proof.Machine.execVmovi w imm d s
  | .ld f t d b imm => Sys2Proof.Machine.execLd f t d b imm s
  | .st f t d b imm => Sys2Proof.Machine.execSt f t d b imm s
  | .vld v b imm => Sys2Proof.Machine.execVld v b imm s
  | .vst v b imm => Sys2Proof.Machine.execVst v b imm s
  | .vgath t scl ix b v => Sys2Proof.Machine.execVgath t scl ix b v s
  | .vscat t scl ix b v => Sys2Proof.Machine.execVscat t scl ix b v s
  | .gld f t d b imm => Sys2Proof.Machine.execGld f t d b imm s
  | .gst f t d b imm => Sys2Proof.Machine.execGst f t d b imm s
  | .gvld v b imm => Sys2Proof.Machine.execGvld v b imm s
  | .gvst v b imm => Sys2Proof.Machine.execGvst v b imm s
  | .gpf b imm => Sys2Proof.Machine.execGpf b imm s
  | .atom op sco fe sz f d b s0 c => Sys2Proof.Machine.execAtom op sco fe sz f d b s0 c s
  | .drain k => Sys2Proof.Machine.execDrain k s
  | .tclr f first last => Sys2Proof.Machine.execTclr f first last s
  | .tctl => Sys2Proof.Machine.execTctl s
  | .tget d src => Sys2Proof.Machine.execTget d src s
  | .spt f reg layer gran => Sys2Proof.Machine.execSpt f reg layer gran s
  | .ldt f reg layer gran => Sys2Proof.Machine.execLdt f reg layer gran s
  | .bdecl buf base len nl => Sys2Proof.Machine.execBdecl buf base len nl s
  | .bstate full buf => Sys2Proof.Machine.execBstate full buf s
  | .bfree buf => Sys2Proof.Machine.execBfree buf s
  | .semi sem ceil count => Sys2Proof.Machine.execSemi sem ceil count s
  | .sems sem n rmt tgt => Sys2Proof.Machine.execSems sem n rmt tgt s
  | .semw sem n => Sys2Proof.Machine.execSemw sem n s
  | .bar kind bid => Sys2Proof.Machine.execBar kind bid s
  | .cmma acc aop bop shp mask sig => Sys2Proof.Machine.execCmma acc aop bop shp mask sig s
  | .cmmz acc aop bop shp mask sig => Sys2Proof.Machine.execCmmz acc aop bop shp mask sig s
  | .accrd t acc row cg v => Sys2Proof.Machine.execAccrd t acc row cg v s
  | .accwr t acc row cg v => Sys2Proof.Machine.execAccwr t acc row cg v s
  | .copy rec_ sig => Sys2Proof.Machine.execCopy rec_ sig s
  | .msend rec_ cls sig => Sys2Proof.Machine.execMsend rec_ cls sig s
  | .putfImm adr imm sig => Sys2Proof.Machine.execPutfImm adr imm sig s
  | .putfReg adr val sig => Sys2Proof.Machine.execPutfReg adr val sig s
  | .nmc rec_ fe fd sig => Sys2Proof.Machine.execNmc rec_ fe fd sig s
  | .pleave cls dur => Sys2Proof.Machine.execPleave cls dur s
  | .wlaunch rec_ sig => Sys2Proof.Machine.execWlaunch rec_ sig s
  | .crr x crn => Sys2Proof.Machine.execCrr x crn s
  | .crw x crn => Sys2Proof.Machine.execCrw x crn s
  | .sys code => Sys2Proof.Machine.execSys code s
  | .rfe => Sys2Proof.Machine.execRfe s
  | .tlbi kind adr => Sys2Proof.Machine.execTlbi kind adr s
  | .dbg code => Sys2Proof.Machine.execDbg code s
  | .accessSend c f id line => Sys2Proof.Machine.execAccessSend c f id line s
  | .pageWalk c f src va => Sys2Proof.Machine.execPageWalk c f src va s
  | .writeAccepted c f id line => Sys2Proof.Machine.execWriteAccepted c f id line s
  | .writePerforms mid => Sys2Proof.Machine.execWritePerforms mid s
  | .atomicPerform c f id => Sys2Proof.Machine.execAtomicPerform c f id s
  | .loadPerforms c f id => Sys2Proof.Machine.execLoadPerforms c f id s
  | .remoteRequestArrive q => Sys2Proof.Machine.execRemoteRequestArrive q s
  | .remoteAccessFault c f id => Sys2Proof.Machine.execRemoteAccessFault c f id s
  | .queuedTranslationFault c f src => Sys2Proof.Machine.execQueuedTranslationFault c f src s
  | .poisonConsumed c f => Sys2Proof.Machine.execPoisonConsumed c f s
  | .semaphoreCeilingTrap c f => Sys2Proof.Machine.execSemaphoreCeilingTrap c f s
  | .cubeOpStart c f => Sys2Proof.Machine.execCubeOpStart c f s
  | .cubeOpLand c f id => Sys2Proof.Machine.execCubeOpLand c f id s
  | .cubeOperandFault c f id => Sys2Proof.Machine.execCubeOperandFault c f id s
  | .copyStart c f => Sys2Proof.Machine.execCopyStart c f s
  | .copyComplete c f id => Sys2Proof.Machine.execCopyComplete c f id s
  | .msgAccept src => Sys2Proof.Machine.execMsgAccept src s
  | .headerRetry c f msgid => Sys2Proof.Machine.execHeaderRetry c f msgid s
  | .grantToken c => Sys2Proof.Machine.execGrantToken c s
  | .msgLineArrive c tok line data => Sys2Proof.Machine.execMsgLineArrive c tok line data s
  | .tokenExpire c tok => Sys2Proof.Machine.execTokenExpire c tok s
  | .reRequest c req => Sys2Proof.Machine.execReRequest c req s
  | .msgFillComplete c req => Sys2Proof.Machine.execMsgFillComplete c req s
  | .msgComplete c f msgid => Sys2Proof.Machine.execMsgComplete c f msgid s
  | .orphan c req => Sys2Proof.Machine.execOrphan c req s
  | .putfComplete c f id => Sys2Proof.Machine.execPutfComplete c f id s
  | .nmcComplete c f id => Sys2Proof.Machine.execNmcComplete c f id s
  | .wlaunchDecided c f => Sys2Proof.Machine.execWlaunchDecided c f s
  | .barrierPhaseEnd launch gang kind bid => Sys2Proof.Machine.execBarrierPhaseEnd launch gang kind bid s
  | .trapEntry c f => Sys2Proof.Machine.execTrapEntry c f s
  | .preemptionRequest launch gang => Sys2Proof.Machine.execPreemptionRequest launch gang s
  | .preemption c f => Sys2Proof.Machine.execPreemption c f s
  | .asyncInterrupt c f => Sys2Proof.Machine.execAsyncInterrupt c f s
  | .drainPointOverdue c f => Sys2Proof.Machine.execDrainPointOverdue c f s
  | .stallSwitchTimeout c => Sys2Proof.Machine.execStallSwitchTimeout c s
  | .timeSliceExpiry c => Sys2Proof.Machine.execTimeSliceExpiry c s
  | .residentSwitch c => Sys2Proof.Machine.execResidentSwitch c s
  | .forcedSwitch c => Sys2Proof.Machine.execForcedSwitch c s
  | .layerWithdrawal c f => Sys2Proof.Machine.execLayerWithdrawal c f s
  | .taskComplete c f => Sys2Proof.Machine.execTaskComplete c f s
  | .gangComplete launch gang => Sys2Proof.Machine.execGangComplete launch gang s
  | .gangFailureStop launch gang => Sys2Proof.Machine.execGangFailureStop launch gang s
  | .windowSubmit q => Sys2Proof.Machine.execWindowSubmit q s
  | .windowRegisterWrite q off val => Sys2Proof.Machine.execWindowRegisterWrite q off val s
  | .schedulingDecision part => Sys2Proof.Machine.execSchedulingDecision part s
  | .dictionaryLoad launch gang => Sys2Proof.Machine.execDictionaryLoad launch gang s
  | .headAging q => Sys2Proof.Machine.execHeadAging q s
  | .reservationMature c => Sys2Proof.Machine.execReservationMature c s
  | .spanHoldRequest launch pkg => Sys2Proof.Machine.execSpanHoldRequest launch pkg s
  | .spanHoldTimeout launch => Sys2Proof.Machine.execSpanHoldTimeout launch s
  | .recordComplete launch => Sys2Proof.Machine.execRecordComplete launch s
  | .campionTick c amps temp => Sys2Proof.Machine.execCampionTick c amps temp s
  | .fastComparator c amps => Sys2Proof.Machine.execFastComparator c amps s
  | .lReport c => Sys2Proof.Machine.execLReport c s
  | .thermalTrip c temp => Sys2Proof.Machine.execThermalTrip c temp s
  | .thermalResume c temp => Sys2Proof.Machine.execThermalResume c temp s
  | .tripTimeout c => Sys2Proof.Machine.execTripTimeout c s
  | .leaveGrant c => Sys2Proof.Machine.execLeaveGrant c s
  | .leaveExpiry c f => Sys2Proof.Machine.execLeaveExpiry c f s
  | .railTrim c pass => Sys2Proof.Machine.execRailTrim c pass s
  | .railRiseDone c layer => Sys2Proof.Machine.execRailRiseDone c layer s
  | .layerGate c layer => Sys2Proof.Machine.execLayerGate c layer s
  | .layerRetention c layer => Sys2Proof.Machine.execLayerRetention c layer s
  | .layerWake c layer => Sys2Proof.Machine.execLayerWake c layer s
  | .ivrPhaseFailure c layer group rail => Sys2Proof.Machine.execIvrPhaseFailure c layer group rail s
  | .storageRemap x => Sys2Proof.Machine.execStorageRemap x s
  | .portFailure c port newPort => Sys2Proof.Machine.execPortFailure c port newPort s
  | .telemetrySample values => Sys2Proof.Machine.execTelemetrySample values s
  | .monitorSample c m v => Sys2Proof.Machine.execMonitorSample c m v s
  | .watchdogTimeout => Sys2Proof.Machine.execWatchdogTimeout s
  | .powerOnReset b => Sys2Proof.Machine.execPowerOnReset b s
  | .functionLevelReset p => Sys2Proof.Machine.execFunctionLevelReset p s
  | .recoverySubmit => Sys2Proof.Machine.execRecoverySubmit s
  | .packageReset fn b => Sys2Proof.Machine.execPackageReset fn b s
  | .writePartitionDescriptors fn => Sys2Proof.Machine.execWritePartitionDescriptors fn s
  | .pinTableChange fn => Sys2Proof.Machine.execPinTableChange fn s
  | .commitLimitSet fn => Sys2Proof.Machine.execCommitLimitSet fn s
  | .monitorConfigure fn => Sys2Proof.Machine.execMonitorConfigure fn s
  | .monitorRead fn => Sys2Proof.Machine.execMonitorRead fn s
  | .firmwareUpdate fn => Sys2Proof.Machine.execFirmwareUpdate fn s
  | .attestationQuote fn => Sys2Proof.Machine.execAttestationQuote fn s
  | .debugAttach fn => Sys2Proof.Machine.execDebugAttach fn s
  | .debugDetach fn => Sys2Proof.Machine.execDebugDetach fn s
  | .debugEventsOn fn => Sys2Proof.Machine.execDebugEventsOn fn s
  | .debugEventsOff fn => Sys2Proof.Machine.execDebugEventsOff fn s
  | .debugHalt fn => Sys2Proof.Machine.execDebugHalt fn s
  | .debugStep fn => Sys2Proof.Machine.execDebugStep fn s
  | .debugStepDone c f => Sys2Proof.Machine.execDebugStepDone c f s
  | .debugResume fn => Sys2Proof.Machine.execDebugResume fn s
  | .debugRead fn => Sys2Proof.Machine.execDebugRead fn s
  | .debugWrite fn => Sys2Proof.Machine.execDebugWrite fn s
  | .asidRegister fn => Sys2Proof.Machine.execAsidRegister fn s
  | .asidDrop fn => Sys2Proof.Machine.execAsidDrop fn s
  | .powerLoss duringCopy => Sys2Proof.Machine.execPowerLoss duringCopy s
  | .unknownCommand fn => Sys2Proof.Machine.execUnknownCommand fn s

end Sys2Proof.Machine
end

