-- ==== Sys2Proof/Machine/Schedule.lean ====
section
/-! DEFINITION. What happens next: the inputs of the world, and the model's own order of progress where nothing is
asked for (assumptions 4 and 5). -/

namespace Sys2Proof.Machine

/-- An input that is no event of the table: time, the host's writes, an interrupt, an uncorrectable error. Time and the
host's writes reach an unpowered package as any other, and change nothing that it keeps. -/
def input (s : State) : Choice → State
  | .pass n => { s with now := s.now + n }
  | .mail fn off b =>
    if off < 512 then
      s.modTeasel fun t => { t with mail := Vector.ofFn fun p =>
        if p = fn then { t.mail[p] with req := fset 0 t.mail[p].req off b } else t.mail[p] }
    else s
  | .bus a b => s.modTeasel fun t => { t with bus := fset 0 t.bus a b }
  | .window off b => if s.teasel.recov then s.modTeasel fun t => { t with window := fset 0 t.window off b } else s
  | .irq c f => s.modFrame c f fun r => if r.task.isSome then { r with issue := { r.issue with irq := true } } else r
  | .msix fn v x => s.modHub fun h => writeMsix h fn.val v.val x
  | .badLine pa => if paPkg pa = s.pkg then memError s (paLocal pa) true else setPoison s pa true
  | .farByte pa b => if paPkg pa = s.pkg then s else gWrite s pa [b]
  | .remote m =>
    if m.pkg = s.pkg then s else s.modHub fun h => { h with remotes := h.remotes.filter (·.pkg ≠ m.pkg) ++ [m] }
  | .badFace c key => faceError s c (key / (1 <<< 28)) (key / (1 <<< 26) % 4) (key % (1 <<< 26)) true
  | .core _ => s
  | .event _ => s

/-! The events that may be due of themselves, in the order in which they are tried. -/

/-- Steps of the accesses of a frame. -/
def lsEvents (c : CubeId) (f : FrameId) (r : Frame) : List Instr :=
  List.flatten [
    (r.fl.ls ++ r.fl.fly).flatMap fun e => List.flatten [
      (List.range (max 1 e.lines.length)).flatMap (fun i => [Instr.accessSend c f e.id i, Instr.writeAccepted c f e.id i]),
      [Instr.atomicPerform c f e.id, Instr.loadPerforms c f e.id, Instr.remoteAccessFault c f e.id]],
    r.fl.copyQ.flatMap fun e => [Instr.accessSend c f e.id 0, Instr.remoteAccessFault c f e.id],
    [Instr.queuedTranslationFault c f .ls, Instr.queuedTranslationFault c f .copy]]
/-- Steps of a frame's engines, its messages and its task. -/
def engineEvents (c : CubeId) (f : FrameId) (r : Frame) : List Instr :=
  List.flatten [
    [Instr.cubeOpStart c f],
    r.fl.cubeA.flatMap fun e => [Instr.cubeOpLand c f e.id, Instr.cubeOperandFault c f e.id],
    [Instr.copyStart c f],
    r.fl.copyA.flatMap fun e =>
      [Instr.writeAccepted c f e.id 0, Instr.copyComplete c f e.id, Instr.nmcComplete c f e.id, Instr.putfComplete c f e.id],
    [Instr.msgAccept (.task c f), Instr.wlaunchDecided c f],
    r.fl.msgs.flatMap fun m => [Instr.headerRetry c f m.msgid, Instr.msgComplete c f m.msgid],
    r.fl.cubeA.flatMap fun e => (List.range e.glob.length).flatMap fun i => [Instr.accessSend c f e.id i],
    r.fl.msgs.flatMap fun m => m.granted.map fun i => Instr.accessSend c f m.id i,
    [Instr.queuedTranslationFault c f .cube],
    [Instr.layerWithdrawal c f, Instr.preemption c f, Instr.taskComplete c f, Instr.leaveExpiry c f, Instr.debugStepDone c f]]
def frameEvents (s : State) (x : CubeId × FrameId) : List Instr :=
  let r := s.frame x.1 x.2
  if r.task.isSome then (lsEvents x.1 x.2 r).append (engineEvents x.1 x.2 r) else []

/-- Steps of a cube: Yarrow, Campion, the core's time slice. The lines and re-requests of a sender in another package come
from there (R363, R369). -/
def cubeEvents (s : State) (c : CubeId) : List Instr :=
  let q := s.cube c
  List.flatten [
    [Instr.grantToken c],
    (q.reqs.filter (·.srcPkg = s.pkg)).flatMap (fun x => List.flatten [
      x.pref.map fun i => Instr.msgLineArrive c x.num i ⟨[], false, none⟩,
      (q.toks.filter (·.req = x.num)).flatMap fun t => t.lines.map fun i => Instr.msgLineArrive c t.num i ⟨[], false, none⟩,
      [Instr.reRequest c x.num]]),
    q.toks.map fun t => Instr.tokenExpire c t.num,
    q.reqs.flatMap fun x => [Instr.msgFillComplete c x.num, Instr.orphan c x.num],
    [Instr.leaveGrant c, Instr.timeSliceExpiry c, Instr.forcedSwitch c, Instr.tripTimeout c, Instr.reservationMature c],
    q.fab.pmap.toList.filterMap (fun p =>
      if q.fab.deadPorts.contains p.toNat then (nextPort q).map fun n => Instr.portFailure c p (BitVec.ofNat 4 n) else none),
    (List.finRange 8).flatMap fun z => [Instr.layerWake c z, Instr.railRiseDone c z, Instr.layerRetention c z]]

/-- Steps of the hub: records, gangs, barriers, the schedulers. -/
def hubEvents (s : State) : List Instr :=
  List.flatten [
    s.hub.phases.map fun p => Instr.barrierPhaseEnd ⟨p.part, p.launch⟩ p.gang p.kind (BitVec.ofNat 4 p.bid),
    s.hub.recs.flatMap fun k => List.flatten [
      k.gangs.flatMap fun g =>
        [Instr.dictionaryLoad ⟨k.part, k.id⟩ g.idx, Instr.gangFailureStop ⟨k.part, k.id⟩ g.idx, Instr.gangComplete ⟨k.part, k.id⟩ g.idx],
      [Instr.spanHoldTimeout ⟨k.part, k.id⟩, Instr.recordComplete ⟨k.part, k.id⟩]],
    (List.finRange 64).filterMap fun q =>
      if s.hub.queues[q].pend = [] then none else some (Instr.headAging (BitVec.ofNat 6 q.val)),
    (List.finRange 4).filterMap fun p => if p.val < s.hub.parts.length then some (Instr.schedulingDecision p) else none]

/-- Steps of Teasel: a pin-table change that runs on, the copy of an update, and the sample of each millisecond, whose values are free (R360, R394, R400). -/
def teaselEvents (s : State) : List Instr :=
  List.flatten [
    (List.finRange 4).filterMap fun fn =>
      if (mailOf s fn).status = 0 ∧ (headOf s fn).code = 3 then some (Instr.pinTableChange fn) else none,
    if s.teasel.copying then [Instr.firmwareUpdate 0] else [],
    if s.teasel.up ∧ usCycles 1000 ≤ s.now - s.teasel.telAt then
      [Instr.telemetrySample ((List.range sampleCount).map fun i => Config.free (s.fresh + i))] else []]

/-- Everything that may be due. -/
def candidates (s : State) : List Instr :=
  List.flatten [
    [Instr.variableResultLand], allFrames.flatMap (frameEvents s), s.merge.map fun w => Instr.writePerforms w.mid,
    allCubes.flatMap (cubeEvents s), hubEvents s, teaselEvents s]

/-- The first candidate that changes the machine. -/
def engineTurn (ex : Instr → State → Host.Outcome State Fault Refusal) (s : State) : Option State :=
  (candidates s).findSome? fun i =>
    match ex i s with
    | .next s' => if s' = s then none else some s'
    | _ => none

/-- The cubes from the current one on. -/
def turnOrder (s : State) : List CubeId := [s.cur, s.cur + 1, s.cur + 2, s.cur + 3]

/-- The first core that can act; its bundle takes a cycle. -/
def coresTurn (s : State) : Option State :=
  ((turnOrder s).findSome? (coreTurn s)).map fun s' => { s' with now := s'.now + 1 }

/-- Progress of its own: a core that can act, else an event that is due, else a microsecond passes. In every sixteenth
cycle the events come first, so that a core that spins keeps nothing from happening. DESIGN CHOICE, assumption 5. -/
def ownTurn (ex : Instr → State → Host.Outcome State Fault Refusal) (s : State) : State :=
  let idle := { s with now := s.now + usCycles 1 }
  if s.now % 16 = 15 then ((engineTurn ex { s with now := s.now + 1 }) <|> coresTurn s).getD idle
  else ((coresTurn s) <|> engineTurn ex s).getD idle

/-- What the head of the agenda asks for. -/
def choose (ex : Instr → State → Host.Outcome State Fault Refusal) (c : Choice) (s : State) : Host.Outcome State Fault Refusal :=
  match c with
  | .core c => powered s ((coreTurn s c).getD s)
  | .event i => ex i s
  | c => .next (input s c)

/-! A program placed from outside (assumption 6): `withFetchWord` calls `placeBundle`. -/

/-- The virtual address at which `withFetchWord` places a bundle: halfword 2 of a packet, without tag. -/
def placeVa : Nat := 0x10000
/-- The packet that holds a literal bundle at halfword 2: header, escape, 24 halfwords, padding (R107, R108). -/
def placePacket (w : Nat) : Nat :=
  4 + 0xFFFE <<< 32 + (w % (1 <<< 384)) <<< 48 + ((1 <<< 80) - 1) <<< 432
/-- A task alone in its frame, of no record that the hub holds. -/
def placeTask : Task := ⟨0, 0, 0, 0, 0, 0, 0, 0, #v[0, 0, 0], [], 0⟩
/-- A partition of the whole package, where none stands. -/
def placePart : Part := ⟨15, 0, 0, 0, 0, Vector.replicate 4 0, 1, []⟩

/-- A literal bundle placed where the running frame of the current cube fetches next: its bytes in global memory, the
page in the cube's TLB, the PC at it, and a task that may issue it. DESIGN CHOICE, assumption 6. -/
def placeBundle (s : State) (w : Nat) : State :=
  let c := s.cur
  let s := { s with
    agenda := .core c :: s.agenda
    teasel := { s.teasel with power := true }
    hub := if s.hub.parts = [] then { s.hub with parts := [placePart] } else s.hub }
  let s := s.modCube c fun q => { q with camp := { q.camp with trip := none }, fab := { q.fab with coreOff := false } }
  let s := if mayIssue s c s.curF then s
    else s.modCf fun r => { r with task := some placeTask, issue := { Issue.zero with nb := r.issue.nb, nid := r.issue.nid } }
  let s := s.modCf fun r => { r with issue := { r.issue with pc := w64 (placeVa + 4), seq := false } }
  let pa := s.pkg <<< 42 + placeVa
  let e : TlbEnt := ⟨s.cf.part, s.cf.asid, placeVa >>> 16, 16, pa, true, true, true⟩
  setPoison (gWriteVal (s.modCube c fun q => tlbFill q .fetch e) pa 64 (placePacket w)) pa false

end Sys2Proof.Machine
end

