-- ==== Sys2Proof/Machine/Step.lean ====
section
/-! DEFINITION. One step of the machine: what the agenda asks for, or progress of its own. -/

namespace Sys2Proof.Machine

/-- The step. The sync queues go on by themselves first (R105); then the head of the agenda acts, or, where the agenda
is empty, the machine goes on of its own (assumptions 4 and 5). DESIGN CHOICE, assumption 4. -/
def step (s : State) : Host.Outcome State Fault Refusal :=
  match s.agenda with
  | c :: rest => choose exec c (syncAll { s with agenda := rest })
  | [] => powered s (ownTurn exec (syncAll s))

/-- The bundle whose bits are `w`, placed as a literal at the next fetch of the current cube (R107, R108, R112). -/
def State.withFetchWord (s : State) (nbits w : Nat) : State := placeBundle s (w % (1 <<< nbits))

end Sys2Proof.Machine
end

