-- ==== Sys2Proof/Safety.lean ====
section
/-! DEFINITION. What counts as a well-kept machine and a safe run, in the terms the claims use: sparse maps in canonical
form, a run that never stops, a core at which a bundle issues at once, and the state after it. -/

namespace Sys2Proof.Machine

/-- The global memory and the poison of its lines are in canonical form. -/
abbrev State.memWf (s : State) : Prop := Memory.wf s.mem ∧ fwf false s.poison = true

/-- A run of n steps that meets neither a fault nor a refusal. -/
def runs : Nat → State → Option State
  | 0, s => some s
  | n + 1, s => match step s with | .next s' => runs n s' | _ => none

/-- Nothing is in flight in a frame and nothing is due: no result, no queued or started operation, no trap, no refused
addition, no request, no switch. -/
def Frame.quiet (r : Frame) : Bool :=
  r.fl = { Flight.none with heldDue := r.fl.heldDue, heldTraps := r.fl.heldTraps, heldLand := r.fl.heldLand }
    && r.sync.refusal.isNone && r.issue.preempt.isNone && r.issue.slice.isNone && !r.issue.barred && r.issue.dbgCode.isNone
    && r.taint.out.isEmpty

/-- The running frame of the current cube may issue its next bundle at once (R118, R138). -/
def State.quiet (s : State) : Bool :=
  s.teasel.power && mayIssue s s.cur s.curF && (refusalOf s s.cur s.curF).isNone && s.cf.quiet

/-- The address of the next bundle in sequence after the one at the PC (R109). -/
def State.nextPc (s : State) : Word := (soloBundle s .nop).next

/-- What a slot instruction alone in its bundle sees at its issue. -/
def State.ctx (s : State) (i : Instr) : Ctx :=
  ctxOf s s.cur s.curF (soloBundle s i) ((soloSlot i).getD ⟨.bra, 0, 0, false, false, .nop⟩)

/-- The frame after its bundle has issued: the PC and the counts of bundles move on (R5, R109, R325). -/
def advanced (pc from_ : Word) (seq : Bool) (r : Frame) : Frame :=
  { r with issue := { r.issue with
      pc := pc, from_ := from_, seq := seq, nb := r.issue.nb + 1, nid := r.issue.nid + 1
      yielded := if r.priv.lvl then r.issue.yielded else none, barred := false, lflags := 0, dbgCode := none, dbg := stepDown r.issue.dbg } }

/-- The state after a bundle whose slots change the running frame by `g`, in sequence. -/
def State.issued (s : State) (g : Frame → Frame) : State :=
  (s.modCf fun r => advanced s.nextPc 0 true (g r)).modCube s.cur fun q => { q with stallSince := none }

/-- The same with one fixed-latency result put in flight (R121). -/
def State.landing (s : State) (l : Landing) : State := s.issued fun r => r.addLanding l

/-- The state after a taken branch to a target; results in flight are armed (R124), `g` is what its slot does besides. -/
def State.branched (s : State) (target : Word) (g : Frame → Frame) : State :=
  (s.modCf fun r => advanced target r.issue.pc false (armAll (g r))).modCube s.cur fun q => { q with stallSince := none }

/-- The state after a bundle whose slot acts on the machine by `act`, in sequence. -/
def State.acted (s : State) (act : State → State) : State :=
  ((act s).modFrame s.cur s.curF (advanced s.nextPc 0 true)).modCube s.cur fun q => { q with stallSince := none }

/-- What R138 asks of a bundle apart from its stalls: reserved header bits zero, no F or L without a level, no level named
twice, no register written twice, each slot that issues executes with its effect, a `sys` beside no `halt`, an `rfe` beside
`nop` alone, at most 64 fixed-latency writes, a `semw` within its ceiling, a `bar.span` in a span alone. -/
def State.lawful (s : State) (b : BundleIn) (effs : List (SlotIns × SlotEff)) : Prop :=
  let r := s.cf
  let iss := b.slots.filter (slotIssues r b.lvl)
  b.bad = false ∧ (b.lvl.toNat < 6 ∨ ∀ x ∈ b.slots, x.first = false ∧ x.last = false) ∧
  (b.slots.filterMap fun x => levelOf x.ins).Nodup ∧
  (∀ x ∈ b.slots, ∀ y ∈ b.slots, x.slot.code < y.slot.code → ∀ d ∈ destsOf r x.ins, d ∉ destsOf r y.ins) ∧
  effs.map Prod.fst = iss ∧ (∀ p ∈ effs, slotMeaning p.1.ins (ctxOf s s.cur s.curF b p.1) s = .ok p.2) ∧
  (∀ x ∈ iss, (isSys x.ins = true → ∀ y ∈ iss, isHalt y.ins = false) ∧
    (isRfe x.ins = true → ∀ y ∈ b.slots, y.slot = x.slot ∨ y.ins = .nop) ∧
    (∀ k n, semwOf x.ins = some (k, n) → 0 < n.toNat ∧ n.toNat ≤ (semRead s s.cur s.curF k).2) ∧
    ∀ k bid, barOf x.ins = some (k, bid) → k = .span → taskSsize r ≠ 0) ∧
  overfull r iss = false

/-- `CTAINT` of a frame (R93). -/
def withCt (t : Taint) (r : Frame) : Frame := { r with taint := { r.taint with ct := t } }

/-- The state after the trap that a slot instruction raises at issue: its slot, address and field, a cause and its
information (R317, R318). -/
def State.traps (s : State) (i : Instr) (cause : Nat) (t2 t3 : Word := 0) (fatal : Bool := false) : State :=
  enterTrap s s.cur s.curF ⟨cause, (s.ctx i).info.slot, fatal, false, s.cf.issue.pc, (s.ctx i).info.bits, t2, t3⟩

/-- A result of the bundle at issue: file, register, bundles until it lands, value, taint, flags (R121). -/
def State.result (s : State) (file : FileNo) (reg n : Nat) (v : VReg) (t : Taint) (fl : Flags5 := 0) : Landing :=
  ⟨file, reg, v, t, fl, false, 0, false, s.cf.issue.nb + n, none⟩

/-! What an instruction at issue reads, and the form in which it writes (R116, R117, R157). -/

def State.reg (s : State) (f : File3) (r : Reg) : Word := s.cf.regs.rd f r
def State.tnt (s : State) (f : File3) (r : Reg) : Taint := s.cf.taint.rd f r
def State.pred (s : State) (p : Pred) : Bool := s.cf.regs.pred p
def State.ptnt (s : State) (p : Pred) : Taint := s.cf.taint.pred p
def State.vreg (s : State) (v : VSpec) : VReg := s.cf.regs.rdV (physV s.cf.ctl v)
def State.vtnt (s : State) (v : VSpec) : Taint := s.cf.taint.rdV (physV s.cf.ctl v)

/-- The w bits that a source register contributes (R157). -/
def srcW (t : Ty) (v : Word) : BitVec t.width := v.setWidth t.width
/-- A w-bit result as it is written: sign-extended under the signed types, zero-extended under the others (R157). -/
def dstW (t : Ty) (r : BitVec t.width) : Word := if t.signed then r.signExtend 64 else r.setWidth 64

/-- One result of the bundle at issue: to an X, Y or A register, to a predicate, to a vector register (R121). -/
def State.toReg (s : State) (f : File3) (d : Reg) (n : Nat) (v : Word) (t : Taint) (fl : Flags5 := 0) : Landing :=
  s.result (no3 f) d.toNat n (v.setWidth 2048) t fl
def State.toPred (s : State) (p : Pred) (n : Nat) (v : Bool) (t : Taint) : Landing :=
  s.result 4 p.toNat n (if v then 1 else 0) t
def State.toVec (s : State) (d : VSpec) (n : Nat) (v : VReg) (t : Taint) (fl : Flags5 := 0) : Landing :=
  s.result 3 (physV s.cf.ctl d) n v t fl

/-- The condition codes on w-bit values (R128, R160). -/
def cndHolds {w : Nat} (c : Cnd) (a b : BitVec w) : Bool :=
  match c with
  | .eq => a == b | .ne => a != b | .lt => a.slt b | .le => a.sle b | .ltz => a.ult b | .lez => a.ule b

/-- The integer that w bits read as under a type, and an integer fitted to the type: clamped to its range under `.sat`,
reduced modulo 2^w otherwise (R157, R158, R176). -/
def intOf (t : Ty) (x : BitVec t.width) : Int := if t.signed then x.toInt else x.toNat
def leastOf (t : Ty) : Int := if t.signed then -(2 ^ (t.width - 1)) else 0
def greatestOf (t : Ty) : Int := if t.signed then 2 ^ (t.width - 1) - 1 else 2 ^ t.width - 1
def fitW (t : Ty) (sat : Bool) (i : Int) : BitVec t.width :=
  BitVec.ofInt t.width (if sat then max (leastOf t) (min (greatestOf t) i) else i)

/-- r is the lesser, or the greater, of two floating operands: a NaN gives way to the other, −0 is less than +0 (R166). -/
def lesserIs (greater : Bool) (t : Ty) (a b r : Nat) : Prop :=
  ((fval t a).isNan = true → (fval t b).isNan = true → r = (tyFmt t).nanCode) ∧
  ((fval t a).isNan = true → (fval t b).isNan = false → r = b) ∧
  ((fval t a).isNan = false → (fval t b).isNan = true → r = a) ∧
  ((fval t a).isNan = false → (fval t b).isNan = false → (r = a ∨ r = b) ∧
    (fval t r).cmp (fval t a) ≠ some (if greater then .lt else .gt) ∧
    (fval t r).cmp (fval t b) ≠ some (if greater then .lt else .gt) ∧
    ((fval t a).cmp (fval t b) = some .eq → (fval t r).isNeg =
      if greater then (fval t a).isNeg && (fval t b).isNeg else (fval t a).isNeg || (fval t b).isNeg))

/-- Element i of a vector register under a type (R173). -/
def lane (t : Ty) (v : VReg) (i : Nat) : BitVec t.width := v.extractLsb' (t.width * i) t.width
/-- The elements of a vector register and their joined flags, where lane i holds the low bits of `f i`. -/
def lanesAre (t : Ty) (v : VReg) (f : Nat → Nat) : Prop := ∀ i, i < t.lanes → lane t v i = BitVec.ofNat t.width (f i)
def joinFlags (n : Nat) (f : Nat → Flags5) : Flags5 := (List.range n).foldl (fun u i => u ||| f i) 0

/-- The operation number and slot that a solo instruction gives its queue entry, and its untracked wait set. -/
def State.entry (s : State) (i : Instr) (op : LsOp) (wait : Taint) (tag : Option Nat) (ea : Word) (data : VReg) (l : List Line) : LsEnt :=
  ⟨(s.ctx i).opId, (s.ctx i).info, op, wait ||| s.cf.taint.ct, tag, ea, data, l⟩

/-- An access of n bytes may be made at a scratchpad address: aligned, in the window, its layer in service, in the task's
reservation, no bank retired, no declared buffer that refuses it (R64, R68, R74, R194). -/
def State.scratch (s : State) (ea : Word) (n : Nat) (e : BufEvent) : Prop :=
  let a := bits ea.toNat 0 32
  ea.toNat % min n 64 = 0 ∧ windowOk ea = true ∧ layerIn s.cf (spLayer a) = true ∧ spInside s.cf a n = true ∧
  spRetired s.cf a = false ∧ spRetired s.cf (a + n - 1) = false ∧
  ∀ i b, s.cf.buf i = some b → b.touches (spLayer a) (spFace a) (spOff a) n = true → (bufRow e b).isSome = true
/-- The key of the face byte at a scratchpad address, and the byte (R69, R70). -/
def State.spKey (s : State) (ea : Word) : Nat := s.cf.key (bits ea.toNat 0 32)
def State.faceAt (s : State) (key : Nat) : Byte := faceByte (s.cube s.cur) key
/-- No line under n bytes is poisoned or cannot be moved (R36, R78). -/
def State.clean (s : State) (ea : Word) (n : Nat) : Prop :=
  ∀ i, i < ceilDiv (bits ea.toNat 0 32 % 64 + n) 64 → let ln := s.spKey ea / 64 * 64 + 64 * i
    facePoisoned (s.cube s.cur) ln = false ∧ faceFails (s.cube s.cur) ln = false

/-- A powered machine where what a frame has in flight is `x` and nothing else. -/
abbrev State.flies (s : State) (c : CubeId) (f : FrameId) (x : Flight) : Prop := s.teasel.power = true ∧ (s.frame c f).fl = x

/-- A command stands at a function's doorbell, whole and permitted, none other running: code, partition, cube, action, and no byte set outside
the listed fields; functions 1 to 3 may issue only commands 0x03, 0x05, 0x07 and 0x09, for their own partition (R396, R397). -/
abbrev State.asks (s : State) (fn : Fin 4) (code part cube action : Nat) (fields : List (Nat × Nat)) : Prop :=
  s.teasel.power = true ∧ s.teasel.up = true ∧ ((mailOf s fn).status ≠ 0 ∨ code = 3 ∧ s.teasel.copying = false) ∧ part < s.hub.parts.length ∧ headOf s fn = ⟨code, part, cube, action, true⟩ ∧
  onlyFields s fn fields = true ∧ (fn.val = 0 ∨ (fn.val = part ∧ (code = 3 ∨ code = 5 ∨ code = 7 ∨ code = 9)))
/-- Teasel's firmware has run: its watchdog is written (R391). -/
def State.kicked (s : State) : State := s.modTeasel fun t => { t with kick := s.now }

/-- Everything but the faces, the power of layers and the issue of the running frame is unchanged. -/
def State.kept (s t : State) : Prop :=
  (t.mem = s.mem ∧ t.poison = s.poison ∧ t.merge = s.merge ∧ t.hub = s.hub ∧ t.teasel = s.teasel ∧ t.cur = s.cur) ∧
  (∀ c, c ≠ s.cur → t.cube c = s.cube c) ∧ (∀ f, f ≠ s.curF → t.frame s.cur f = s.frame s.cur f) ∧
  (let q := s.cube s.cur
   let u := t.cube s.cur
   u.running = q.running ∧ u.spill = q.spill ∧ u.shadow = q.shadow ∧ u.acc = q.acc ∧ u.status = q.status ∧ u.dict = q.dict ∧
   u.ctl = q.ctl ∧ u.tlb = q.tlb ∧ u.reqs = q.reqs ∧ u.toks = q.toks ∧ u.camp = q.camp ∧ u.fab = q.fab ∧ u.mons = q.mons ∧
   u.parked = q.parked) ∧
  (let r := s.cf
   let k := t.frame s.cur s.curF
   k.task = r.task ∧ k.regs = r.regs ∧ k.taint = r.taint ∧ k.seq = r.seq ∧ k.ctl = r.ctl ∧ k.priv = r.priv ∧ k.sync = r.sync ∧
   k.bufs = r.bufs ∧ k.fl = r.fl ∧ k.leave = r.leave ∧ k.banks = r.banks ∧ k.issue.pc = s.nextPc)

end Sys2Proof.Machine
end

