-- ==== Sys2Proof/Certificates/Slice0/Obligations.lean ====
section
/-! DEFINITION. The statements for the provers. Most say what a step gives: `exec i s = .next t` with t in full, so that
whatever t does not name is unchanged. -/

open Sys2Proof Sys2Proof.Machine

/-- R158: sums, differences and products on w bits, without `.sat`; `addi` on 64 bits. R158: `.sat` clamps the exact sum
or difference to the range of T. -/
def Obligations.ScalarSumsAndProducts : Prop :=
  (∀ (s : State) (u : XY) (t : Ty) (d s1 s2 : Reg), s.quiet = true →
     let a := srcW t (s.reg (xyFile u) s1)
     let b := srcW t (s.reg (xyFile u) s2)
     let tn := s.tnt (xyFile u) s1 ||| s.tnt (xyFile u) s2
     let gv := fun (n : Nat) (r : BitVec t.width) => s.landing (s.toReg (xyFile u) d n (dstW t r) tn)
     (t.isScalar = true → exec (.add u t false d s1 s2) s = .next (gv 1 (a + b))) ∧
     (t.isScalar = true → exec (.sub u t false d s1 s2) s = .next (gv 1 (a - b))) ∧
     (t.isScalar = true → exec (.mul u t d s1 s2) s = .next (gv 3 (a * b))) ∧
     (t = .s32 ∨ t = .s64 → exec (.mulh u t d s1 s2) s =
       .next (gv 3 ((a.signExtend (2 * t.width) * b.signExtend (2 * t.width)).extractLsb' t.width t.width))) ∧
     (t = .z32 ∨ t = .z64 → exec (.mulhz u t d s1 s2) s =
       .next (gv 3 ((a.setWidth (2 * t.width) * b.setWidth (2 * t.width)).extractLsb' t.width t.width))) ∧
     (∀ imm : BitVec 13, exec (.addi u d s1 imm) s =
       .next (s.landing (s.toReg (xyFile u) d 1 (s.reg (xyFile u) s1 + imm.signExtend 64) (s.tnt (xyFile u) s1))))) ∧
  (∀ (s : State) (u : XY) (t : Ty) (d s1 s2 : Reg), s.quiet = true → t.isScalar = true →
     let a := intOf t (srcW t (s.reg (xyFile u) s1))
     let b := intOf t (srcW t (s.reg (xyFile u) s2))
     let tn := s.tnt (xyFile u) s1 ||| s.tnt (xyFile u) s2
     exec (.add u t true d s1 s2) s = .next (s.landing (s.toReg (xyFile u) d 1 (dstW t (fitW t true (a + b))) tn)) ∧
     exec (.sub u t true d s1 s2) s = .next (s.landing (s.toReg (xyFile u) d 1 (dstW t (fitW t true (a - b))) tn)))

/-- R159: quotients truncate toward zero, the remainder takes the dividend's sign, a zero divisor gives all ones and the
dividend and sets `CSTAT.IDZ` at landing. -/
def Obligations.ScalarDivision : Prop :=
  ∀ (s : State) (u : XY) (t : Ty) (d s1 s2 : Reg), s.quiet = true → t.isScalar = true →
    let a := srcW t (s.reg (xyFile u) s1)
    let b := srcW t (s.reg (xyFile u) s2)
    let tn := s.tnt (xyFile u) s1 ||| s.tnt (xyFile u) s2
    let q := if b = 0 then BitVec.allOnes t.width else if t.signed then a.sdiv b else a / b
    let r := if b = 0 then a else if t.signed then a.srem b else a % b
    let gv := fun (v : BitVec t.width) =>
      s.landing { s.toReg (xyFile u) d 20 (dstW t v) tn with idz := decide (b = 0) }
    exec (.div u t d s1 s2) s = .next (gv q) ∧ exec (.rem u t d s1 s2) s = .next (gv r)

/-- R158: logic, shifts by the count modulo w, lesser and greater. R158: leading zeros, trailing zeros and set bits, w
for a zero operand of `clz` and `ctz`. -/
def Obligations.ScalarLogicShiftsAndCounts : Prop :=
  (∀ (s : State) (u : XY) (t : Ty) (d s1 s2 : Reg), s.quiet = true →
     let a := srcW t (s.reg (xyFile u) s1)
     let b := srcW t (s.reg (xyFile u) s2)
     let n := b.toNat % t.width
     let tn := s.tnt (xyFile u) s1 ||| s.tnt (xyFile u) s2
     let gv := fun (r : BitVec t.width) => s.landing (s.toReg (xyFile u) d 1 (dstW t r) tn)
     (t.isScalar = true →
       exec (.and u t d s1 s2) s = .next (gv (a &&& b)) ∧ exec (.andn u t d s1 s2) s = .next (gv (a &&& ~~~b)) ∧
       exec (.or u t d s1 s2) s = .next (gv (a ||| b)) ∧ exec (.xor u t d s1 s2) s = .next (gv (a ^^^ b)) ∧
       exec (.sll u t d s1 s2) s = .next (gv (a <<< n)) ∧ exec (.srl u t d s1 s2) s = .next (gv (a >>> n)) ∧
       exec (.sra u t d s1 s2) s = .next (gv (a.sshiftRight n)) ∧ exec (.rol u t d s1 s2) s = .next (gv (a.rotateLeft n))) ∧
     (t = .s32 ∨ t = .s64 →
       exec (.min u t d s1 s2) s = .next (gv (if b.slt a then b else a)) ∧
       exec (.max u t d s1 s2) s = .next (gv (if a.slt b then b else a))) ∧
     (t = .z32 ∨ t = .z64 →
       exec (.minz u t d s1 s2) s = .next (gv (if b.ult a then b else a)) ∧
       exec (.maxz u t d s1 s2) s = .next (gv (if a.ult b then b else a)))) ∧
  (∀ (s : State) (u : XY) (t : Ty) (d s1 : Reg), s.quiet = true → t.isScalar = true →
     let a := srcW t (s.reg (xyFile u) s1)
     let gv := fun (n : Nat) => s.landing (s.toReg (xyFile u) d 1 (BitVec.ofNat 64 n) (s.tnt (xyFile u) s1))
     (∃ n, n ≤ t.width ∧ exec (.clz u t d s1) s = .next (gv n) ∧
       (∀ i, i < n → a.getMsbD i = false) ∧ (n < t.width → a.getMsbD n = true)) ∧
     (∃ n, n ≤ t.width ∧ exec (.ctz u t d s1) s = .next (gv n) ∧
       (∀ i, i < n → a.getLsbD i = false) ∧ (n < t.width → a.getLsbD n = true)) ∧
     exec (.popc u t d s1) s = .next (gv ((List.range t.width).countP fun i => a.getLsbD i)))

/-- R158, R161, R162, R164: extensions, moves, constants, selection, the copy to another file. R160, R163, R171:
compares on w bits, with an immediate and of addresses, and predicate logic. -/
def Obligations.ScalarMovesAndPredicates : Prop :=
  (∀ (s : State) (u : XY) (d s1 s2 : Reg), s.quiet = true →
     let f := xyFile u
     let a := s.reg f s1
     (∀ t, t = .s8 ∨ t = .s16 ∨ t = .s32 → exec (.sext u t d s1) s =
       .next (s.landing (s.toReg f d 1 ((srcW t a).signExtend 64) (s.tnt f s1)))) ∧
     (∀ t, t = .z8 ∨ t = .z16 ∨ t = .z32 → exec (.zext u t d s1) s =
       .next (s.landing (s.toReg f d 1 ((srcW t a).setWidth 64) (s.tnt f s1)))) ∧
     exec (.mov u d s1) s = .next (s.landing (s.toReg f d 1 a (s.tnt f s1))) ∧
     (∀ imm : BitVec 18, exec (.movi u d imm) s = .next (s.landing (s.toReg f d 1 (imm.signExtend 64) 0))) ∧
     (∀ (imm : BitVec 16) (pos : BitVec 2), ∃ v : Word,
       exec (.movhi u d imm pos) s = .next (s.landing (s.toReg f d 1 v (s.tnt f d))) ∧
       v.extractLsb' (16 * pos.toNat) 16 = imm ∧
       ∀ i, i < 16 * pos.toNat ∨ 16 * pos.toNat + 16 ≤ i → v.getLsbD i = (s.reg f d).getLsbD i) ∧
      (∀ imm : BitVec 18, ∃ w, encodeXY (.movi u d imm) = some (u, w) ∧ w.extractLsb' 6 7 = 0x1E#7) ∧
      (∀ (imm : BitVec 16) (pos : BitVec 2), ∃ w, encodeXY (.movhi u d imm pos) = some (u, w) ∧ w.extractLsb' 6 7 = 0x1F#7) ∧
     (∀ ps : Pred, exec (.sel u ps d s1 s2) s = .next (s.landing (s.toReg f d 1
       (if s.pred ps then a else s.reg f s2) (s.ptnt ps ||| s.tnt f s1 ||| s.tnt f s2)))) ∧
     (∀ dc : File3, dc ≠ f → exec (.xmov u dc d s1) s = .next (s.landing (s.toReg dc d 2 a (s.tnt f s1))))) ∧
  (∀ (s : State) (u : XY) (c : Cnd) (pd pa pb : Pred) (s1 s2 : Reg), s.quiet = true →
     let f := xyFile u
     let tn := s.ptnt pa ||| s.ptnt pb
     (∀ t, t.isScalar = true → exec (.cmp u c t pd s1 s2) s = .next (s.landing (s.toPred pd 1
       (cndHolds c (srcW t (s.reg f s1)) (srcW t (s.reg f s2))) (s.tnt f s1 ||| s.tnt f s2)))) ∧
     (∀ imm : BitVec 10, exec (.cmpi u c pd s1 imm) s = .next (s.landing (s.toPred pd 1
       (cndHolds c (s.reg f s1) (imm.signExtend 64)) (s.tnt f s1)))) ∧
     exec (.acmp c pd s1 s2) s = .next (s.landing (s.toPred pd 1
       (cndHolds c (s.reg .a s1) (s.reg .a s2)) (s.tnt .a s1 ||| s.tnt .a s2))) ∧
     exec (.pand u pd pa pb) s = .next (s.landing (s.toPred pd 1 (s.pred pa && s.pred pb) tn)) ∧
     exec (.por u pd pa pb) s = .next (s.landing (s.toPred pd 1 (s.pred pa || s.pred pb) tn)) ∧
     exec (.pxor u pd pa pb) s = .next (s.landing (s.toPred pd 1 (s.pred pa != s.pred pb) tn)) ∧
     exec (.pnot u pd pa) s = .next (s.landing (s.toPred pd 1 (!s.pred pa) (s.ptnt pa))))

/-- R165, R166, R168: the exact result rounded once in the mode of the instruction, with its flags; D joins `fma`. R166,
R167, R170: lesser and greater with their NaN cases, compares, and signs. -/
def Obligations.ScalarFloat : Prop :=
  (∀ (s : State) (u : XY) (t : Ty) (rm : RM) (d s1 s2 : Reg), s.quiet = true → t.isFp = true →
     let f := xyFile u
     let a := fval t (srcW t (s.reg f s1)).toNat
     let b := fval t (srcW t (s.reg f s2)).toNat
     let c := fval t (srcW t (s.reg f d)).toNat
     let tn := s.tnt f s1 ||| s.tnt f s2
     let gv := fun (tn : Taint) (x : FVal × Flags5) =>
       let y := fround t rm false x
       s.landing (s.toReg f d 4 (w64 y.1) tn y.2)
     exec (.fadd u t rm d s1 s2) s = .next (gv tn (a.add rm b)) ∧
     exec (.fsub u t rm d s1 s2) s = .next (gv tn (a.add rm b.neg)) ∧
     exec (.fmul u t rm d s1 s2) s = .next (gv tn (a.mul b)) ∧
     exec (.fma u t rm d s1 s2) s = .next (gv (tn ||| s.tnt f d)
       (((a.mul b).1.add rm c).1, (a.mul b).2 ||| ((a.mul b).1.add rm c).2)) ∧
     exec (.frcp u t rm d s1) s = .next (gv (s.tnt f s1) a.rcp) ∧
     exec (.frsq u t rm d s1) s = .next (gv (s.tnt f s1) a.rsq)) ∧
  (∀ (s : State) (u : XY) (t : Ty) (d s1 s2 : Reg), s.quiet = true → t.isFp = true →
     let f := xyFile u
     let a := (srcW t (s.reg f s1)).toNat
     let b := (srcW t (s.reg f s2)).toNat
     let tn := s.tnt f s1 ||| s.tnt f s2
     (∃ r, exec (.fmin u t d s1 s2) s = .next (s.landing (s.toReg f d 4 (w64 r) tn)) ∧ lesserIs false t a b r) ∧
     (∃ r, exec (.fmax u t d s1 s2) s = .next (s.landing (s.toReg f d 4 (w64 r) tn)) ∧ lesserIs true t a b r) ∧
     (∀ (c : Cnd) (pd : Pred), c.fpOk = true → ∃ h : Bool,
       exec (.fcmp u c t pd s1 s2) s = .next (s.landing (s.toPred pd 4 h tn)) ∧
       ((fval t a).isNan = true ∨ (fval t b).isNan = true → h = decide (c = .ne)) ∧
       (∀ o, (fval t a).cmp (fval t b) = some o → h = match c with
         | .eq => o == .eq | .ne => o != .eq | .lt => o == .lt | .le => o != .gt | _ => false)) ∧
     (∀ m : SgnMode, ∃ r : BitVec t.width,
       exec (.fsgn u t m d s1 s2) s = .next (s.landing (s.toReg f d 1 (r.setWidth 64) tn)) ∧
       (∀ i, i < t.width - 1 → r.getLsbD i = a.testBit i) ∧
       r.getLsbD (t.width - 1) = match m with
         | .cpy => b.testBit (t.width - 1) | .neg => !b.testBit (t.width - 1)
         | .xor => a.testBit (t.width - 1) != b.testBit (t.width - 1)))

/-- R169 with R53 to R59: `fcvt` converts the low bits of S1 and extends the result as its type asks; a field with a
ternary source is an illegal encoding, which the bundle that holds it takes with its slot and field. Integer to integer
conversion to a type that is no narrower is the reading of log entry 28. -/
def Obligations.ScalarConversion : Prop :=
  ∀ (s : State) (u : XY) (td ts : Ty) (rm : RM) (sat : Bool) (d s1 : Reg), s.quiet = true →
    let c := (srcW ts (s.reg (xyFile u) s1)).toNat
    let i := intOf ts (srcW ts (s.reg (xyFile u) s1))
    (∀ (w : BitVec 36) (lit : Bool), w.extractLsb' 6 7 = 0x2C#7 → w.extractLsb' 28 5 = Ty.tern.code →
      (∃ e, decodeXY u w = .error e) ∧
      let b : Bundle := match u with | .x => ⟨0, 0, 0, w, 0, 0, 0, 0, 0, 0⟩ | .y => ⟨0, 0, 0, 0, w, 0, 0, 0, 0, 0⟩
      exec (.bundleIssue lit b) s = .next (enterTrap s s.cur s.curF
        ⟨2, match u with | .x => 2 | .y => 3, false, false, s.cf.issue.pc, w.setWidth 56, 0, 0⟩)) ∧
    (ts ≠ .tern → ∃ (r : BitVec td.width) (fl : Flags5),
      exec (.fcvt u td ts rm sat d s1) s = .next (s.landing (s.toReg (xyFile u) d 4
        (if td = .int4 ∨ td = .s8 ∨ td = .s16 ∨ td = .s32 ∨ td = .s64 then r.signExtend 64 else r.setWidth 64)
        (s.tnt (xyFile u) s1) fl)) ∧
      -- to floating types: one rounding of the value (R53 to R56)
      (td.isFloat = true → ts.isFloat = true → let y := (tyFmt td).ofVal rm sat (fval ts c); r = BitVec.ofNat _ y.1 ∧ fl = y.2) ∧
      (td.isFloat = true → ts.isFloat = false →
        let y := (tyFmt td).ofVal rm sat (.fin (decide (i < 0)) i.natAbs 0)
        r = BitVec.ofNat _ y.1 ∧ fl = y.2) ∧
      -- a floating value to an integer: rounded in the mode, then clamped (R57)
      (td.isFloat = false → td ≠ .tern → ts.isFloat = true →
        ((fval ts c).isNan = true → r = 0 ∧ fl = flINV) ∧
        (∀ neg, fval ts c = .inf neg → r = BitVec.ofInt _ (if neg then leastOf td else greatestOf td) ∧ fl = flINV) ∧
        (∀ neg m e, fval ts c = .fin neg m e → let y := roundToInt rm neg m e
          r = fitW td true y.1 ∧ fl = if y.1 < leastOf td ∨ greatestOf td < y.1 then flINV else if y.2 then flINX else 0)) ∧
      -- to ternary (R59)
      (td = .tern → let code := fun (j : Int) => if j = 0 then 0 else if 0 < j then 1 else 3
        (ts.isFloat = false → r = BitVec.ofNat _ (code i) ∧ fl = 0) ∧
        (ts.isFloat = true → ((fval ts c).isNan = true → r = 0 ∧ fl = flINV) ∧
          (∀ neg, fval ts c = .inf neg → r = BitVec.ofNat _ (if neg then 3 else 1) ∧ fl = 0) ∧
          (∀ neg m e, fval ts c = .fin neg m e → let y := roundToInt rm neg m e
            r = BitVec.ofNat _ (code y.1) ∧ fl = if y.2 then flINX else 0))) ∧
      -- an integer to an integer (R58)
      (td.isFloat = false → td ≠ .tern → ts.isFloat = false → r = fitW td sat i ∧
        fl = if sat ∧ (i < leastOf td ∨ greatestOf td < i) then flOVF else 0))

/-- R171, R172: the address slot. amod is stated by its pseudocode; the form (S1 + S2) mod S3 is stated up to S3 = 2^63,
where no sum is lost (log entry 47). -/
def Obligations.AddressResults : Prop :=
  ∀ (s : State) (d s1 s2 s3 : Reg), s.quiet = true →
    let a := s.reg .a s1
    let b := s.reg .a s2
    let c := s.reg .a s3
    let gv := fun (v : Word) (tn : Taint) => s.landing (s.toReg .a d 1 v tn)
    let tn := s.tnt .a s1 ||| s.tnt .a s2
    exec (.aadd d s1 s2) s = .next (gv (a + b) tn) ∧
    (∀ imm : BitVec 17, exec (.aaddi d s1 imm) s = .next (gv (a + imm.signExtend 64) (s.tnt .a s1))) ∧
    exec (.asub d s1 s2) s = .next (gv (a - b) tn) ∧
    (∀ sh : BitVec 3, exec (.aidx d s1 s2 sh) s = .next (gv (a + b * 2 ^ sh.toNat) tn)) ∧
    exec (.amov d s1) s = .next (gv a (s.tnt .a s1)) ∧
    (∀ imm : BitVec 22, exec (.amovi d imm) s = .next (gv (imm.signExtend 64) 0)) ∧
    exec (.amod d s1 s2 s3) s = .next (gv (if c.ule (a + b) then a + b - c else a + b) (tn ||| s.tnt .a s3)) ∧
    (a.ult c = true → b.ult c = true → c.toNat ≤ 2 ^ 63 →
      exec (.amod d s1 s2 s3) s = .next (gv (BitVec.ofNat 64 ((a.toNat + b.toNat) % c.toNat)) (tn ||| s.tnt .a s3)))

/-- R176: the integer forms lane by lane on w bits; `.sat` clamps the exact result once. -/
def Obligations.VectorIntegerArithmetic : Prop :=
  ∀ (s : State) (t : Ty) (sat : Bool) (d s1 s2 : VSpec), s.quiet = true → t.isLaneInt = true →
    vok d = true → vok s1 = true → vok s2 = true →
    let a := fun i => intOf t (lane t (s.vreg s1) i)
    let b := fun i => intOf t (lane t (s.vreg s2) i)
    let c := fun i => intOf t (lane t (s.vreg d) i)
    let tn := s.vtnt s1 ||| s.vtnt s2
    let gives := fun (i : Instr) (n : Nat) (tn : Taint) (f : Nat → BitVec t.width) =>
      ∃ v, exec i s = .next (s.landing (s.toVec d n v tn)) ∧ ∀ j, j < t.lanes → lane t v j = f j
    gives (.vadd t .rn sat d s1 s2) 2 tn (fun i => fitW t sat (a i + b i)) ∧
    gives (.vsub t .rn sat d s1 s2) 2 tn (fun i => fitW t sat (a i - b i)) ∧
    gives (.vmul t .rn sat d s1 s2) 2 tn (fun i => fitW t sat (a i * b i)) ∧
    gives (.vfma t .rn sat d s1 s2) 5 (tn ||| s.vtnt d) (fun i => fitW t sat (a i * b i + c i)) ∧
    gives (.vmin t d s1 s2) 2 tn (fun i => if b i < a i then lane t (s.vreg s2) i else lane t (s.vreg s1) i) ∧
    gives (.vmax t d s1 s2) 2 tn (fun i => if a i < b i then lane t (s.vreg s2) i else lane t (s.vreg s1) i) ∧
    gives (.vabs t sat d s1) 2 (s.vtnt s1) (fun i => fitW t sat (a i).natAbs) ∧
    gives (.vneg t sat d s1) 2 (s.vtnt s1) (fun i => fitW t sat (-(a i)))

/-- R177: the floating forms lane by lane, the exact result rounded once; the lanes' flags are joined. -/
def Obligations.VectorFloatArithmetic : Prop :=
  ∀ (s : State) (t : Ty) (rm : RM) (sat : Bool) (d s1 s2 : VSpec), s.quiet = true → t.isFp = true →
    vok d = true → vok s1 = true → vok s2 = true →
    let a := fun i => fval t (lane t (s.vreg s1) i).toNat
    let b := fun i => fval t (lane t (s.vreg s2) i).toNat
    let c := fun i => fval t (lane t (s.vreg d) i).toNat
    let tn := s.vtnt s1 ||| s.vtnt s2
    let gives := fun (i : Instr) (tn : Taint) (f : Nat → FVal × Flags5) =>
      let y := fun j => fround t rm sat (f j)
      ∃ v, exec i s = .next (s.landing (s.toVec d 5 v tn (joinFlags t.lanes fun j => (y j).2))) ∧ lanesAre t v fun j => (y j).1
    gives (.vadd t rm sat d s1 s2) tn (fun i => (a i).add rm (b i)) ∧
    gives (.vsub t rm sat d s1 s2) tn (fun i => (a i).add rm (b i).neg) ∧
    gives (.vmul t rm sat d s1 s2) tn (fun i => (a i).mul (b i)) ∧
    gives (.vfma t rm sat d s1 s2) (tn ||| s.vtnt d)
      (fun i => ((((a i).mul (b i)).1.add rm (c i)).1, ((a i).mul (b i)).2 ||| (((a i).mul (b i)).1.add rm (c i)).2)) ∧
    (∃ (v : VReg) (r : Nat → Nat), exec (.vmin t d s1 s2) s = .next (s.landing (s.toVec d 5 v tn)) ∧ lanesAre t v r ∧
      ∀ i, i < t.lanes → lesserIs false t (lane t (s.vreg s1) i).toNat (lane t (s.vreg s2) i).toNat (r i)) ∧
    (∃ (v : VReg) (r : Nat → Nat), exec (.vmax t d s1 s2) s = .next (s.landing (s.toVec d 5 v tn)) ∧ lanesAre t v r ∧
      ∀ i, i < t.lanes → lesserIs true t (lane t (s.vreg s1) i).toNat (lane t (s.vreg s2) i).toNat (r i)) ∧
    (∃ v, exec (.vabs t false d s1) s = .next (s.landing (s.toVec d 5 v (s.vtnt s1))) ∧ ∀ i, i < t.lanes →
      lane t v i = lane t (s.vreg s1) i &&& ~~~(BitVec.twoPow t.width (t.width - 1))) ∧
    (∃ v, exec (.vneg t false d s1) s = .next (s.landing (s.toVec d 5 v (s.vtnt s1))) ∧ ∀ i, i < t.lanes →
      lane t v i = lane t (s.vreg s1) i ^^^ BitVec.twoPow t.width (t.width - 1))

/-- R178, R179, R180: logic over the whole register, shifts by the count modulo w, compares as integer lanes, selection.
vsel is stated with its opcode and the types of R180, which R173 does not list (DEDUCED, log entry 92). -/
def Obligations.VectorLogicShiftsAndSelection : Prop :=
  ∀ (s : State) (t : Ty) (c : Cnd) (d s1 s2 s3 : VSpec), s.quiet = true →
    vok d = true → vok s1 = true → vok s2 = true → vok s3 = true →
    let a := lane t (s.vreg s1)
    let b := lane t (s.vreg s2)
    let tn := s.vtnt s1 ||| s.vtnt s2
    let gives := fun (i : Instr) (tn : Taint) (f : Nat → BitVec t.width) =>
      ∃ v, exec i s = .next (s.landing (s.toVec d 2 v tn)) ∧ ∀ j, j < t.lanes → lane t v j = f j
    (t.isLaneInt = true →
      exec (.vand t d s1 s2) s = .next (s.landing (s.toVec d 2 (s.vreg s1 &&& s.vreg s2) tn)) ∧
      exec (.vor t d s1 s2) s = .next (s.landing (s.toVec d 2 (s.vreg s1 ||| s.vreg s2) tn)) ∧
      exec (.vxor t d s1 s2) s = .next (s.landing (s.toVec d 2 (s.vreg s1 ^^^ s.vreg s2) tn)) ∧
      gives (.vshl t d s1 s2) tn (fun i => a i <<< ((b i).toNat % t.width)) ∧
      gives (.vshr t d s1 s2) tn (fun i => if t.signed then (a i).sshiftRight ((b i).toNat % t.width)
        else a i >>> ((b i).toNat % t.width)) ∧
      gives (.vcmp c t d s1 s2) tn (fun i => if cndHolds c (a i) (b i) then 1 else 0)) ∧
    (t.isFp = true → c.fpOk = true →
      gives (.vcmp c t d s1 s2) tn (fun i => if fcmpHolds c (fval t (a i).toNat) (fval t (b i).toNat) then 1 else 0)) ∧
    (t ≠ .e2m3 → t ≠ .e3m2 →
      gives (.vsel t d s1 s2 s3) (tn ||| s.vtnt s3) (fun i => if lane t (s.vreg s3) i = 0 then b i else a i)) ∧
    (∃ w, encodeV (.vsel t d s1 s2 s3) = some w ∧ w.extractLsb' 6 8 = 0x0F#8 ∧ w.extractLsb' 50 5 = t.code) ∧
    ((Instr.vsel t d s1 s2 s3).wf = true ↔ t ≠ .e2m3 ∧ t ≠ .e3m2)

/-- R182 to R185: conversions between element widths; bits of D outside the results keep their value. -/
def Obligations.VectorConversions : Prop :=
  ∀ (s : State) (rm : RM) (sat : Bool) (d s1 s2 : VSpec), s.quiet = true →
    vok d = true → vok s1 = true → vok s2 = true →
    let A := s.vreg s1
    let D := s.vreg d
    (∀ (td ts : Ty) (part : BitVec 2), (Instr.vcvt td ts part rm sat d s1 s2).wf = true →
      let n := 2048 / max ts.width td.width
      let src := fun i => lane ts A (if ts.width ≤ td.width then part.toNat * n + i else i)
      let y := fun i => convertBits ts td rm sat (src i).toNat
      ∃ v, exec (.vcvt td ts part rm sat d s1 s2) s = .next (s.landing
          { s.toVec d 5 v (s.vtnt s1 ||| if td.width < ts.width then s.vtnt d else 0) (joinFlags n fun i => (y i).2) with
            inc := if ts = .tern then (List.range n).countP fun i => (src i).toNat = 2 else 0 }) ∧
        (∀ i, i < n → lane td v (if ts.width ≤ td.width then i else part.toNat * n + i) = BitVec.ofNat td.width (y i).1) ∧
        (td.width < ts.width → ∀ j, j < part.toNat * n * td.width ∨ (part.toNat + 1) * n * td.width ≤ j →
          v.getLsbD j = D.getLsbD j)) ∧
    (∀ (t : Ty) (part : BitVec 6), part.toNat < t.parts →
      let n := min 64 (t.lanes - 64 * part.toNat)
      let wide := if t.isFloat then Ty.f32 else Ty.s32
      (∃ v, exec (.vunpack t part d s1 s2) s = .next (s.landing { s.toVec d 5 v (s.vtnt s1) with
            inc := if t = .tern then (List.range n).countP fun i => (lane t A (64 * part.toNat + i)).toNat = 2 else 0 }) ∧
        ∀ i, i < 64 → v.extractLsb' (32 * i) 32 =
          if i < n then BitVec.ofNat 32 (convertBits t wide .rn false (lane t A (64 * part.toNat + i)).toNat).1 else 0) ∧
      (let y := fun i => convertBits wide t rm sat (A.extractLsb' (32 * i) 32).toNat
       ∃ v, exec (.vpack t part rm sat d s1 s2) s = .next (s.landing
            (s.toVec d 5 v (s.vtnt s1 ||| s.vtnt d) (joinFlags n fun i => (y i).2))) ∧
        (∀ i, i < n → lane t v (64 * part.toNat + i) = BitVec.ofNat t.width (y i).1) ∧
        ∀ j, j < 64 * part.toNat * t.width ∨ (64 * part.toNat + n) * t.width ≤ j → v.getLsbD j = D.getLsbD j)) ∧
    (∀ (blk16 : Bool) (sb : BitVec 5),
      let l := if blk16 then 16 else 32
      let y := fun i => fround .f32 rm sat (scaledVal blk16 (fval .f32 (lane .f32 A i).toNat)
        ((s.vreg s2).extractLsb' (8 * ((64 / l) * sb.toNat + i / l)) 8).toNat)
      ∃ v, exec (.vscale blk16 sb rm sat d s1 s2) s = .next (s.landing
          (s.toVec d 5 v (s.vtnt s1 ||| s.vtnt s2) (joinFlags 64 fun i => (y i).2))) ∧ lanesAre .f32 v fun i => (y i).1)

/-- R186, R187: lanes move unchanged. -/
def Obligations.VectorLaneMovement : Prop :=
  ∀ (s : State) (t : Ty) (k : BitVec 7) (d s1 s2 : VSpec), s.quiet = true → t.moveOk = true → k.toNat < t.lanes →
    vok d = true → vok s1 = true → vok s2 = true →
    let n := t.lanes
    let a := lane t (s.vreg s1)
    let b := lane t (s.vreg s2)
    let cat := fun i => if i < n then a i else b (i - n)
    let two := s.vtnt s1 ||| s.vtnt s2
    let gives := fun (i : Instr) (tn : Taint) (f : Nat → BitVec t.width) =>
      ∃ v, exec i s = .next (s.landing (s.toVec d 3 v tn)) ∧ ∀ j, j < n → lane t v j = f j
    gives (.vbcast t k d s1) (s.vtnt s1) (fun _ => a k.toNat) ∧
    gives (.vperm t d s1 s2) two (fun i => a ((b i).toNat % n)) ∧
    (∃ v, exec (.vrot t k d s1) s = .next (s.landing (s.toVec d 3 v (s.vtnt s1))) ∧
      ∀ i, i < n → lane t v ((i + k.toNat) % n) = a i) ∧
    (∀ step : BitVec 7, t.isLaneInt = true →
      gives (.vlane t step d s1) (s.vtnt s1) (fun i => BitVec.ofInt t.width ((a 0).toNat + i * step.toInt))) ∧
    gives (.vins t k d s1) (s.vtnt s1 ||| s.vtnt d) (fun i => if i = k.toNat then a 0 else lane t (s.vreg d) i) ∧
    gives (.vext t k d s1 s2) two (fun i => cat (i + k.toNat)) ∧
    gives (.vshuf .zlo t d s1 s2) two (fun i => if i % 2 = 0 then a (i / 2) else b (i / 2)) ∧
    gives (.vshuf .zhi t d s1 s2) two (fun i => if i % 2 = 0 then a (n / 2 + i / 2) else b (n / 2 + i / 2)) ∧
    gives (.vshuf .uev t d s1 s2) two (fun i => cat (2 * i)) ∧
    gives (.vshuf .uod t d s1 s2) two (fun i => cat (2 * i + 1)) ∧
    gives (.vshuf .rev t d s1 0) (s.vtnt s1) (fun i => a (n - 1 - i)) ∧
    gives (.vshuf .swp t d s1 0) (s.vtnt s1) (fun i => if i % 2 = 0 then a (i + 1) else a (i - 1))

/-- R188, R189, R190: scans by their recurrence, reductions by their tree, and the partition into dense index lists,
with the flags of the combining steps. -/
def Obligations.VectorScansReductionsAndPartition : Prop :=
  ∀ (s : State) (op : ScanOp) (t : Ty) (rm : RM) (sat : Bool) (d s1 s2 s3 : VSpec), s.quiet = true →
    vok d = true → vok s1 = true → vok s2 = true → vok s3 = true →
    let n := t.lanes
    let a := fun i => (lane t (s.vreg s1) i).toNat
    (∀ exc seg : Bool, (Instr.vscan op exc seg t rm sat d s1 s2).wf = true →
      ∃ (v : VReg) (acc : Nat → Nat),
        let head := fun i => i = 0 ∨ (seg = true ∧ lane t (s.vreg s2) i ≠ 0)
        let step := fun i => combine op t rm sat (acc (i - 1)) (a i)
        exec (.vscan op exc seg t rm sat d s1 s2) s = .next (s.landing
          (s.toVec d 8 v (s.vtnt s1 ||| if seg then s.vtnt s2 else 0)
            (joinFlags n fun i => if decide (head i) = true then 0 else (step i).2))) ∧
        (∀ i, i < n → (head i → acc i = canon t (a i)) ∧ (¬ head i → acc i = (step i).1)) ∧
        ∀ i, i < n → lane t v i = BitVec.ofNat t.width
          (if exc = false then acc i else if decide (head i) = true then scanId op t else acc (i - 1))) ∧
    ((Instr.vred op t rm sat d s1 s2).wf = true → ∃ (v : VReg) (node : Nat → Nat → Nat),
      let k := Nat.log2 n
      let step := fun g j => combine op t rm sat (node g (2 * j)) (node g (2 * j + 1))
      exec (.vred op t rm sat d s1 s2) s = .next (s.landing (s.toVec d 8 v (s.vtnt s1)
        ((List.range k).foldl (fun u g => u ||| joinFlags (n / 2 ^ (g + 1)) fun j => (step g j).2) 0))) ∧
      n = 2 ^ k ∧ (∀ i, i < n → node 0 i = a i) ∧ (∀ g j, g < k → j < n / 2 ^ (g + 1) → node (g + 1) j = (step g j).1) ∧
      ∀ i, i < n → lane t v i = BitVec.ofNat t.width (canon t (node k 0))) ∧
    ((Instr.vpart t d s1 s2 s3).wf = true → ∃ p q k : VReg,
      let sel := (List.range n).filter fun i => lane t (s.vreg s3) i ≠ 0
      let rest := (List.range n).filter fun i => lane t (s.vreg s3) i = 0
      let gv := fun (x : VSpec) (v : VReg) => s.toVec x 8 v (s.vtnt s3)
      exec (.vpart t d s1 s2 s3) s = .next (s.issued fun r => ((r.addLanding (gv d p)).addLanding (gv s1 q)).addLanding (gv s2 k)) ∧
      lanesAre t p (fun i => sel.getD i (sel.getLastD 0)) ∧ lanesAre t q (fun i => rest.getD i (rest.getLastD 0)) ∧
      lanesAre t k (fun i => if i = 0 then sel.length else if i = 1 then rest.length else 0))

/-- R181, R191, R192: moves of all bits, immediates in every lane, correctly rounded reciprocals, and `vexp2`, `vlog2`
and `vtanh`: the FP32 result rounded once to T, its special and exact cases, and the bound on every other. The
enclosures of the exact values, the truncated value that stands where the free value keeps no bound, and 1 ulp are log
entries 25 and 93; the flags at T are log entry 46. -/
def Obligations.VectorMovesAndTranscendentals : Prop :=
  (∀ (s : State) (t : Ty) (rm : RM) (d s1 : VSpec), s.quiet = true → vok d = true → vok s1 = true →
    let a := fun i => fval t (lane t (s.vreg s1) i).toNat
    let neg := fun (c : Nat) => (tyFmt t).withSign true c
    exec (.vmov d s1) s = .next (s.landing (s.toVec d 2 (s.vreg s1) (s.vtnt s1))) ∧
    (∀ imm : BitVec 32,
      (∃ v, exec (.vmovi false imm d) s = .next (s.landing (s.toVec d 2 v 0)) ∧ ∀ i, i < 64 → lane .s32 v i = imm) ∧
      (∃ v, exec (.vmovi true imm d) s = .next (s.landing (s.toVec d 2 v 0)) ∧
        ∀ i, i < 32 → lane .s64 v i = imm.signExtend 64)) ∧
    (t = .f32 ∨ t = .f16 ∨ t = .bf16 →
      (let y := fun i => fround t rm false (a i).rcp
       ∃ v, exec (.vrcp t rm d s1) s = .next (s.landing (s.toVec d 12 v (s.vtnt s1) (joinFlags t.lanes fun i => (y i).2)))
         ∧ lanesAre t v fun i => (y i).1) ∧
      (let y := fun i => fround t rm false (a i).rsq
       ∃ v, exec (.vrsqrt t rm d s1) s = .next (s.landing (s.toVec d 12 v (s.vtnt s1) (joinFlags t.lanes fun i => (y i).2)))
         ∧ lanesAre t v fun i => (y i).1) ∧
      (∃ (v : VReg) (fl : Nat → Flags5),
        exec (.vexp2 t d s1) s = .next (s.landing (s.toVec d 12 v (s.vtnt s1) (joinFlags t.lanes fl))) ∧ ∀ i, i < t.lanes →
        let y := transcLane .exp2 t (lane t (s.vreg s1) i).toNat
        (lane t v i = BitVec.ofNat _ y.1 ∧ fl i = y.2) ∧
        ((a i).isNan = true → lane t v i = BitVec.ofNat _ (tyFmt t).nanCode ∧ fl i = 0) ∧
        (a i = .inf false → lane t v i = BitVec.ofNat _ (tyFmt t).infCode ∧ fl i = 0) ∧
        (a i = .inf true → lane t v i = 0 ∧ fl i = 0) ∧
        (∀ g e, a i = .fin g 0 e → lane t v i = BitVec.ofNat _ ((tyFmt t).bias <<< (tyFmt t).fb) ∧ fl i = 0)) ∧
      (∃ (v : VReg) (fl : Nat → Flags5),
        exec (.vlog2 t d s1) s = .next (s.landing (s.toVec d 12 v (s.vtnt s1) (joinFlags t.lanes fl))) ∧ ∀ i, i < t.lanes →
        let y := transcLane .log2 t (lane t (s.vreg s1) i).toNat
        (lane t v i = BitVec.ofNat _ y.1 ∧ fl i = y.2) ∧
        ((a i).isNan = true → lane t v i = BitVec.ofNat _ (tyFmt t).nanCode ∧ fl i = 0) ∧
        (a i = .inf false → lane t v i = BitVec.ofNat _ (tyFmt t).infCode ∧ fl i = 0) ∧
        (a i = .inf true → lane t v i = BitVec.ofNat _ (tyFmt t).nanCode ∧ fl i = flINV) ∧
        (∀ g e, a i = .fin g 0 e → lane t v i = BitVec.ofNat _ (neg (tyFmt t).infCode) ∧ fl i = flDZ) ∧
        (∀ m e, m ≠ 0 → a i = .fin true m e → lane t v i = BitVec.ofNat _ (tyFmt t).nanCode ∧ fl i = flINV)) ∧
      (∃ (v : VReg) (fl : Nat → Flags5),
        exec (.vtanh t d s1) s = .next (s.landing (s.toVec d 12 v (s.vtnt s1) (joinFlags t.lanes fl))) ∧ ∀ i, i < t.lanes →
        let y := transcLane .tanh t (lane t (s.vreg s1) i).toNat
        (lane t v i = BitVec.ofNat _ y.1 ∧ fl i = y.2) ∧
        ((a i).isNan = true → lane t v i = BitVec.ofNat _ (tyFmt t).nanCode ∧ fl i = 0) ∧
        (∀ g, a i = .inf g → lane t v i = BitVec.ofNat _ ((tyFmt t).withSign g ((tyFmt t).bias <<< (tyFmt t).fb)) ∧ fl i = 0) ∧
        (∀ g e, a i = .fin g 0 e → lane t v i = BitVec.ofNat _ ((tyFmt t).withSign g 0) ∧ fl i = 0)))) ∧
  -- at FP32: exact cases, overflow, saturation, and the bound on the rest
  (∀ (c : Nat) (neg : Bool) (m : Nat) (e : Int), c < 2 ^ 32 → fval .f32 c = .fin neg m e → m ≠ 0 →
    let near := fun (x : Encl) (tol : Int) (r : Nat) => withinBound x tol r = true ∨ r = (fmtF32.round .rz false x.neg x.hi x.u).1
    let i := (roundToInt .rz neg m e).1
    let whole := (roundToInt .rz neg m e).2 = false
    (128 ≤ i → (transcLane .exp2 .f32 c) = (fmtF32.infCode, flOVF ||| flINX)) ∧
    (i < 128 → whole → -149 ≤ i → transcLane .exp2 .f32 c = ((fmtF32.round .rn false false 1 i).1, 0)) ∧
    (i < 128 → ¬ (whole ∧ -149 ≤ i) → let r := (exp2F32 c).1
      transcLane .exp2 .f32 c = (r, flINX ||| if r % 2 ^ 31 ≠ 0 ∧ r % 2 ^ 31 < 2 ^ 23 then flUNF else 0) ∧
      (-152 < i → near (enclExp2 neg m e) (ulpExp (enclExp2 neg m e)) (exp2F32 c).1) ∧
      (i < -151 → near ⟨false, 1, 2, -152⟩ (-149) (exp2F32 c).1)) ∧
    (neg = false → m = 2 ^ Nat.log2 m → let j := e + (Nat.log2 m : Int)
      transcLane .log2 .f32 c = ((fmtF32.round .rn false (decide (j < 0)) j.natAbs 0).1, 0)) ∧
    (neg = false → m ≠ 2 ^ Nat.log2 m → let x := enclLog2 m e
      transcLane .log2 .f32 c = ((log2F32 c).1, flINX) ∧
      near x (if (Nat.log2 x.hi : Int) + x.u < 0 then -24 else ulpExp x) (log2F32 c).1) ∧
    (10 ≤ (roundToInt .rz false m e).1 → transcLane .tanh .f32 c = (fmtF32.withSign neg 0x3F800000, flINX)) ∧
    ((roundToInt .rz false m e).1 < 10 → transcLane .tanh .f32 c = ((tanhF32 c).1, flINX) ∧
      near (enclTanh neg m e) (ulpExp (enclTanh neg m e)) (tanhF32 c).1))

/-- R142, R143, R93, R94: targets, links and `CTAINT` of the branches. -/
def Obligations.BranchesAndCalls : Prop :=
  ∀ s : State, s.quiet = true →
    let at_ := fun (off : BitVec 14) => s.cf.issue.pc + 2 * off.signExtend 64
    let ct := s.cf.taint.ct
    (∀ off, exec (.br off) s = .next (s.branched (at_ off) id)) ∧
    (∀ tg, exec (.bri tg) s = .next (s.branched (s.reg .a tg) (withCt (ct ||| s.tnt .a tg)))) ∧
    (∀ off, exec (.call off) s = .next (s.branched (at_ off) fun r => r.addLanding (s.toReg .a 31 1 s.nextPc ct))) ∧
    (∀ lk tg, exec (.calli lk tg) s = .next (s.branched (s.reg .a tg) fun r =>
      (withCt (ct ||| s.tnt .a tg) r).addLanding (s.toReg .a lk 1 s.nextPc (ct ||| s.tnt .a tg)))) ∧
    (∀ tg, exec (.ret tg) s = .next (s.branched (s.reg .a tg) (withCt (s.tnt .a tg))))

/-- R145 to R147: a level starts with its count, 1 to 2^32 − 1, and keeps its pairs; a pair is attached, four at most.
R148, R149: what `loop` and `lexit` do to a level, its registers, the window and the PC; inactive levels trap. -/
def Obligations.LoopLevels : Prop :=
  (∀ (s : State) (lv : BitVec 3), s.quiet = true → lv.toNat < 6 →
     let start := fun (n : Nat) (r : Frame) =>
       r.setLevel lv ⟨true, s.nextPc, n, true, (s.cf.level lv).pairs⟩
     (∀ cnt : BitVec 10, exec (.lsetImm lv cnt) s = .next (s.issued (start (cnt.toNat + 1)))) ∧
     (∀ (cl : File3) (c : Reg), let n := (s.reg cl c).toNat
       (1 ≤ n → n < 2 ^ 32 → exec (.lsetReg lv cl c) s =
         .next (s.issued fun r => withCt (s.cf.taint.ct ||| s.tnt cl c) (start n r))) ∧
       (n = 0 ∨ 2 ^ 32 ≤ n → exec (.lsetReg lv cl c) s = .next (s.traps (.lsetReg lv cl c) 15))) ∧
     (∀ ad st : Reg, let l := s.cf.level lv
       (l.pairs.length < 4 → exec (.lstride lv ad st) s = .next (s.issued fun r =>
         r.setLevel lv { l with pairs := l.pairs ++ [(ad, s.reg .x st)] })) ∧
       (4 ≤ l.pairs.length → exec (.lstride lv ad st) s = .next (s.traps (.lstride lv ad st) 15)))) ∧
  (∀ (s : State) (lv : BitVec 3), s.quiet = true → lv.toNat < 6 →
     let l := s.cf.level lv
     let k := s.cf.ctl
     let turned := fun (A : Vector Word 32) (y : SeqLevel) (r : Frame) =>
       ({ r with regs := { r.regs with a := A }, ctl := { k with woff := (k.woff + 8 * 2 ^ k.wstep.toNat) % k.wsize } } : Frame).setLevel lv y
     (l.active = true → ∃ A : Vector Word 32,
       (∀ g : Reg, A[g.toFin] = s.reg .a g + ((l.pairs.filter fun p => p.1 = g).map (·.2)).sum) ∧
       (1 < l.remain → exec (.loop lv) s =
         .next (s.branched l.start (turned A { l with remain := l.remain - 1, first := false }))) ∧
       (l.remain ≤ 1 → exec (.loop lv) s =
         .next (s.issued (turned A { l with active := false, remain := 0, pairs := [] })))) ∧
     (∀ off : BitVec 11, l.active = true → exec (.lexit lv off) s =
       .next (s.branched (s.cf.issue.pc + 2 * off.signExtend 64) fun r => r.setLevel lv { l with active := false, pairs := [] })) ∧
     (∀ off : BitVec 11, l.active = false →
       exec (.loop lv) s = .next (s.traps (.loop lv) 15) ∧ exec (.lexit lv off) s = .next (s.traps (.lexit lv off) 15)))

/-- R151 to R153: the rotating base, the `FMT` word and the monotone `FID`, with what each refuses. R97, R150, R154,
R209, R276: slots that leave the registers alone; `dbg` stops the frame where a debugger takes events. That a debugger
resumes past a dbg is the model reading of log entry 44. -/
def Obligations.WindowFormatAndQuietSlots : Prop :=
  (∀ s : State, s.quiet = true →
     (∀ (sz wo : BitVec 5) (st : BitVec 2), st ≠ 3 →
       (wo.toNat ≤ sz.toNat → exec (.wcfg sz wo st) s = .next (s.issued fun r =>
         { r with ctl := { r.ctl with wsize := 8 * (sz.toNat + 1), woff := 8 * wo.toNat, wstep := st } })) ∧
       (sz.toNat < wo.toNat → exec (.wcfg sz wo st) s = .next (s.traps (.wcfg sz wo st) 15))) ∧
     (∀ (af bf : BitVec 4) (acm scm : BitVec 2) (orm : RM), (Instr.setfmt af bf acm scm orm).wf = true →
       exec (.setfmt af bf acm scm orm) s = .next (s.landing (s.result 5 0 4
         ((orm.code ++ scm ++ acm ++ 0#2 ++ bf ++ af : BitVec 16).setWidth 2048) 0))) ∧
     (∀ b0 b1 b2 : BitVec 2, (Instr.setfid b0 b1 b2).wf = true →
       let old := fun (b : Nat) => (s.cf.ctl.fid.extractLsb' (2 * b) 2).toNat
       let legal := b0.toNat ≤ old 0 ∧ b1.toNat ≤ old 1 ∧ b2.toNat ≤ old 2 ∧ b2.toNat ≤ b1.toNat ∧ b1.toNat ≤ b0.toNat
       (legal → exec (.setfid b0 b1 b2) s = .next (s.landing (s.result 6 0 4 ((b2 ++ b1 ++ b0).setWidth 2048) 0))) ∧
       (¬ legal → exec (.setfid b0 b1 b2) s = .next (s.traps (.setfid b0 b1 b2) 15)))) ∧
  (∀ s : State, s.quiet = true →
     exec .nop s = .next (s.issued id) ∧
     exec .yield s = .next (s.issued id) ∧
     exec .tctl s = .next (s.issued (withCt 0)) ∧
     (∀ code : BitVec 16, let q := s.cube s.cur
       (q.dbgAttached = false ∨ q.dbgEvents = false → exec (.dbg code) s = .next (s.issued id)) ∧
       (q.dbgAttached = true → q.dbgEvents = true → exec (.dbg code) s =
         .next (s.modCf fun r => { r with issue := { r.issue with dbg := .halted, dbgCode := some code } }))))

/-- R155, R156, R273, R274, R312, R319, R320: `halt` at level U ends the task's issue; `trap` is taken before its
bundle; the trap of `sys` falls due when its bundle has issued, AFTER set and its information words as log entry 48 has
them, and is entered where the next bundle has no earlier cause; `rfe` at level S returns, `halt` there ends the gang
with an error, pre-empts it or returns, as DISP says. The sys clause rests on log entry 48 (DEDUCED): AFTER set and its
information words. -/
def Obligations.HaltTrapSysAndReturn : Prop :=
  ∀ s : State, s.quiet = true →
    let info := fun (i : Instr) => (s.ctx i).info
    let cause := bits s.cf.priv.tcause.toNat 0 5
    (∀ code : BitVec 8, exec (.trap code) s = .next (s.traps (.trap code) 16 (code.setWidth 64) s.nextPc)) ∧
    (∀ code : BitVec 16,
      let t : TrapInfo :=
        ⟨16, (info (.sys code)).slot, false, true, s.cf.issue.pc, (info (.sys code)).bits, w64 (code.toNat + 2 ^ 16), s.nextPc⟩
      let u := s.issued fun r => { r with fl := { r.fl with traps := [t] } }
      exec (.sys code) s = .next u ∧
      (boundaryFirst u s.cur s.curF = some t →
        exec (.trapEntry s.cur s.curF) u = .next (enterTrap (s.issued id) s.cur s.curF t))) ∧
    (s.cf.priv.lvl = false →
      exec .halt s = .next (s.issued fun r => { r with issue := { r.issue with halted := true } }) ∧
      exec .rfe s = .next (s.traps .rfe 15)) ∧
    (s.cf.priv.lvl = true →
      let u := s.issued id
      exec .rfe s = .next (returnTrap u s.cur s.curF) ∧
      (s.cf.priv.disp = 0 → exec .halt s = .next ((failGang u s.cur s.curF cause s.cf.priv.tinfo[2]).modFrame s.cur s.curF fun r =>
        { r with issue := { r.issue with stopped := true } })) ∧
      (s.cf.priv.disp = 2 → exec .halt s = .next (returnTrap u s.cur s.curF)) ∧
      (s.cf.priv.disp ≠ 0 → s.cf.priv.disp ≠ 2 → s.cf.priv.tcause.getLsbD 8 = true →
        exec .halt s = .next (handlerFault u s.cur s.curF cause 0)) ∧
      (s.cf.priv.disp ≠ 0 → s.cf.priv.disp ≠ 2 → s.cf.priv.tcause.getLsbD 8 = false → ∃ t, exec .halt s = .next t ∧
        (let k := t.frame s.cur s.curF
         k.priv = { s.cf.priv with lvl := false } ∧ k.issue.swapped = true ∧ k.issue.preempt = none ∧ k.regs = s.cf.regs) ∧
        ∀ k p g, s.cf.task = some k → findRec s k.part k.launch = some p → p.gang k.gang = some g →
          ∃ p' g', findRec t k.part k.launch = some p' ∧ p'.gang k.gang = some g' ∧ g'.pre = true))

/-- R195, R196, R198: `ld` and `vld` put the bytes at base plus offset in flight, extended by type, and wake the layer;
the machine is otherwise as after a landing. -/
def Obligations.ScratchpadLoads : Prop :=
  ∀ (s : State) (b : Reg), s.quiet = true →
    let loaded := fun (ea : Word) (file : FileNo) (reg : Nat) (v : VReg) (bad : Option Nat) =>
      s.acted fun u => wakeLayers (u.modFrame s.cur s.curF fun r => r.addLanding
        { s.result file reg 14 v (s.tnt .a b) with poison := bad.map fun a => (a, (s.ctx .nop).info) })
        s.cur [spLayer (bits ea.toNat 0 32)]
    let word := fun (ea : Word) (n : Nat) => leVal ((List.range n).map fun j => s.faceAt (s.spKey ea + j))
    (∀ (f : File3) (t : Ty) (d : Reg) (imm : BitVec 17), (Instr.ld f t d b imm).wf = true →
      let ea := s.reg .a b + imm.signExtend 64
      let n := t.width / 8
      s.scratch ea n .load → s.clean ea n →
        exec (.ld f t d b imm) s = .next (loaded ea (no3 f) d.toNat ((dstW t (BitVec.ofNat t.width (word ea n))).setWidth 2048) none)) ∧
    (∀ (v : VSpec) (imm : BitVec 20), vok v = true →
      let ea := s.reg .a b + imm.signExtend 64
      s.scratch ea 256 .load → s.clean ea 256 →
        exec (.vld v b imm) s = .next (loaded ea 3 (physV s.cf.ctl v) (BitVec.ofNat 2048 (word ea 256)) none))

/-- R99, R195, R199: `st` and `vst` write their bytes at base plus offset, lowest first, at the end of their bundle, and
nothing else of the faces; a line wholly written is no longer poisoned. Every other byte and register keeps its value.
-/
def Obligations.ScratchpadStores : Prop :=
  ∀ (s : State) (b : Reg), s.quiet = true → s.cf.taint.ct = 0 → s.tnt .a b = 0 →
    let stores := fun (i : Instr) (ea : Word) (n : Nat) (v : Nat) =>
      s.scratch ea n .store → ∃ t, exec i s = .next t ∧ s.kept t ∧
        (∀ j, j < n → t.faceAt (s.spKey ea + j) = BitVec.ofNat 8 (v / 256 ^ j)) ∧
        (∀ key, key < s.spKey ea ∨ s.spKey ea + n ≤ key → t.faceAt key = s.faceAt key) ∧
        ((∀ k, faceFails (s.cube s.cur) k = false) → ∀ ln, facePoisoned (t.cube s.cur) (64 * ln) =
          (facePoisoned (s.cube s.cur) (64 * ln) && !decide (s.spKey ea ≤ 64 * ln ∧ 64 * ln + 64 ≤ s.spKey ea + n ∧ s.spKey ea % 64 = 0)))
    (∀ (f : File3) (t : Ty) (d : Reg) (imm : BitVec 17), (Instr.st f t d b imm).wf = true → s.tnt f d = 0 →
      stores (.st f t d b imm) (s.reg .a b + imm.signExtend 64) (t.width / 8) (s.reg f d).toNat) ∧
    (∀ (v : VSpec) (imm : BitVec 20), vok v = true → s.vtnt v = 0 →
      stores (.vst v b imm) (s.reg .a b + imm.signExtend 64) 256 (s.vreg v).toNat)

/-- R71, R200, R317: each lane of a gather or scatter has its own address; of two lanes that name one element the higher
is stored last. Lanes in two lines of one bank are a bank-conflict fault, and none is performed; of several such pairs
the trap names the one whose later lane is lowest (the model's choice, log 40). Which pair a bank-conflict fault names
is log entry 40. -/
def Obligations.GatherAndScatter : Prop :=
  ∀ (s : State) (t : Ty) (scl : BitVec 2) (ix v : VSpec) (b : Reg), s.quiet = true → (Instr.vgath t scl ix b v).wf = true →
    let n := t.width / 8
    let base := s.reg .a b
    let ea := fun (i : Nat) => base.extractLsb' 32 32 ++
      (base.setWidth 32 + ((lane t (s.vreg ix) i).setWidth 64 <<< scl.toNat).setWidth 32 : BitVec 32)
    let bank := fun (i : Nat) => laneBank s.cf (bits (ea i).toNat 0 32)
    (∀ (st : Bool) (i j : Nat), (st = true → s.cf.taint.ct = 0 ∧ s.tnt .a b = 0 ∧ s.vtnt ix = 0 ∧ s.vtnt v = 0) →
      (∀ l, l < t.lanes → let a := bits (ea l).toNat 0 32
        (ea l).toNat % n = 0 ∧ windowOk (ea l) = true ∧ layerIn s.cf (spLayer a) = true ∧ spInside s.cf a n = true ∧
        spRetired s.cf a = false ∧ spRetired s.cf (a + n - 1) = false) →
      j < i → i < t.lanes → (bank j).1 = (bank i).1 → (bank j).2 ≠ (bank i).2 → (∀ l, l < j → (bank l).1 ≠ (bank i).1) →
      (∀ l m, l < i → m < i → (bank l).1 = (bank m).1 → (bank l).2 = (bank m).2) →
      let ins : Instr := if st then .vscat t scl ix b v else .vgath t scl ix b v
      let bk := (bank i).1
      exec ins s = .next (s.traps ins 6 (w64 (j + i * 2 ^ 8 + bk % 64 * 2 ^ 16 + bk / 64 % 4 * 2 ^ 22 + bk / 256 * 2 ^ 24)))) ∧
    ((∀ i j, i < t.lanes → j < t.lanes → (bank i).1 = (bank j).1 → (bank i).2 = (bank j).2) →
    ((∀ i, i < t.lanes → s.scratch (ea i) n .load ∧ s.clean (ea i) n) → ∃ u x, exec (.vgath t scl ix b v) s = .next u ∧
      (u.frame s.cur s.curF).fl.land = [s.result 3 (physV s.cf.ctl v) 14 x (s.tnt .a b ||| s.vtnt ix)] ∧
      s.kept (u.modFrame s.cur s.curF fun r => { r with fl := s.cf.fl }) ∧ (∀ key, u.faceAt key = s.faceAt key) ∧
      ∀ i, i < t.lanes → lane t x i = BitVec.ofNat t.width (leVal ((List.range n).map fun k => s.faceAt (s.spKey (ea i) + k)))) ∧
    (s.cf.taint.ct = 0 → s.tnt .a b = 0 → s.vtnt ix = 0 → s.vtnt v = 0 → (∀ i, i < t.lanes → s.scratch (ea i) n .store) →
      ∃ u, exec (.vscat t scl ix b v) s = .next u ∧ s.kept u ∧
      (∀ i k, i < t.lanes → k < n → let key := s.spKey (ea i) + k
        (∀ j, i < j → j < t.lanes → key < s.spKey (ea j) ∨ s.spKey (ea j) + n ≤ key) →
        u.faceAt key = (lane t (s.vreg v) i).extractLsb' (8 * k) 8) ∧
      ∀ key, (∀ i, i < t.lanes → key < s.spKey (ea i) ∨ s.spKey (ea i) + n ≤ key) → u.faceAt key = s.faceAt key))

/-- R194, R195: a scratchpad access at an unaligned address, on a layer out of service, or outside the window or the
reservation is not made: the trap of its cause is taken, alignment first. R64, R67, R194: a global address in the
scratchpad window is an illegal operation, an unaligned one a misaligned access, one with any of bits 63 to 56 set a
fatal translation fault; the access joins no queue. Which cause comes first is R194; the order of further simultaneous
conditions is log entry 73. -/
def Obligations.AddressFaults : Prop :=
  (∀ (s : State) (b : Reg), s.quiet = true → s.cf.taint.ct = 0 → s.tnt .a b = 0 →
     let faults := fun (i : Instr) (ea : Word) (n : Nat) (write : Bool) =>
       let a := bits ea.toNat 0 32
       let reason := w64 (3 + if write then 128 else 0)
       (ea.toNat % min n 64 ≠ 0 → exec i s = .next (s.traps i 14 ea)) ∧
       (ea.toNat % min n 64 = 0 → layerIn s.cf (spLayer a) = false → exec i s = .next (s.traps i 13 (w64 (spLayer a)))) ∧
       (ea.toNat % min n 64 = 0 → layerIn s.cf (spLayer a) = true → windowOk ea = false →
         exec i s = .next (s.traps i 10 ea reason true)) ∧
       (ea.toNat % min n 64 = 0 → layerIn s.cf (spLayer a) = true → windowOk ea = true → s.cf.banks = [] → spInside s.cf a n = false →
         exec i s = .next (s.traps i 10 ea reason true))
     (∀ (f : File3) (t : Ty) (d : Reg) (imm : BitVec 17), let ea := s.reg .a b + imm.signExtend 64
       ((Instr.ld f t d b imm).wf = true → faults (.ld f t d b imm) ea (t.width / 8) false) ∧
       ((Instr.st f t d b imm).wf = true → s.tnt f d = 0 → faults (.st f t d b imm) ea (t.width / 8) true)) ∧
     (∀ (v : VSpec) (imm : BitVec 20), vok v = true → let ea := s.reg .a b + imm.signExtend 64
       faults (.vld v b imm) ea 256 false ∧ (s.vtnt v = 0 → faults (.vst v b imm) ea 256 true))) ∧
  (∀ (s : State) (b : Reg), s.quiet = true →
     let faults := fun (i : Instr) (ea : Word) (n : Nat) (write : Bool) =>
       (bits ea.toNat 48 16 = 0xFF → exec i s = .next (s.traps i 15)) ∧
       (bits ea.toNat 48 16 ≠ 0xFF → ea.toNat % n ≠ 0 → exec i s = .next (s.traps i 14 ea)) ∧
       (ea.toNat % n = 0 → 0x100 ≤ bits ea.toNat 48 16 →
         exec i s = .next (s.traps i 10 ea (w64 (2 + if write then 128 else 0)) true))
     (∀ (f : File3) (t : Ty) (d : Reg) (imm : BitVec 17), let ea := s.reg .a b + imm.signExtend 64
       ((Instr.gld f t d b imm).wf = true → faults (.gld f t d b imm) ea (t.width / 8) false) ∧
       ((Instr.gst f t d b imm).wf = true → faults (.gst f t d b imm) ea (t.width / 8) true)) ∧
     (∀ (v : VSpec) (imm : BitVec 20), let ea := s.reg .a b + imm.signExtend 64
       faults (.gpf b imm) ea 1 false ∧ (vok v = true → faults (.gvld v b imm) ea 64 false ∧ faults (.gvst v b imm) ea 64 true)) ∧
     (∀ (op : AtomOp) (sco : Scope) (fe : Bool) (sz : BitVec 2) (f : File3) (d sr c : Reg),
       (Instr.atom op sco fe sz f d b sr c).wf = true →
       faults (.atom op sco fe sz f d b sr c) (s.reg .a b) (2 ^ sz.toNat) true))

/-- R79, R89, R91, R122, R125, R201 to R207: a global access whose address passes joins the load/store queue with its
operand values and wait set; a load or atomic takes a tag, and what it returns is pending. -/
def Obligations.GlobalAccessesJoinTheQueue : Prop :=
  ∀ (s : State) (b : Reg), s.quiet = true →
    let ok := fun (ea : Word) (n : Nat) => ea.toNat % n = 0 ∧ bits ea.toNat 48 16 < 0xFF
    let line := fun (ea : Word) (n : Nat) => (⟨ea, n, none, .queued, 0, [], false⟩ : Line)
    let words := fun (ea : Word) => (List.range 32).map fun j => line (ea + w64 (8 * j)) 8
    let joins := fun (i : Instr) (e : LsEnt) => exec i s = .next (s.issued fun r => { r with fl := { r.fl with ls := [e] } })
    -- the first free tag is 0: nothing is outstanding
    let tracked := fun (i : Instr) (e : LsEnt) => exec i s = .next (s.issued fun r =>
      { r with
        taint := { r.taint with out := [(e.id, 0)] }
        fl := { r.fl with ls := [e], var := (e.op.dest.map fun d => (⟨e.id, e.info, d.1, d.2, none, some 0⟩ : VarRes)).toList } })
    (∀ (f : File3) (t : Ty) (d : Reg) (imm : BitVec 17), (Instr.gld f t d b imm).wf = true →
      let i := Instr.gld f t d b imm
      let ea := s.reg .a b + imm.signExtend 64
      ok ea (t.width / 8) → tracked i (s.entry i (.gld (no3 f) t d.toNat) (s.tnt .a b) (some 0) ea 0 [line ea (t.width / 8)])) ∧
    (∀ (f : File3) (t : Ty) (d : Reg) (imm : BitVec 17), (Instr.gst f t d b imm).wf = true →
      let i := Instr.gst f t d b imm
      let ea := s.reg .a b + imm.signExtend 64
      ok ea (t.width / 8) → joins i (s.entry i .gst (s.tnt .a b ||| s.tnt f d) none ea ((s.reg f d).setWidth 2048)
        [line ea (t.width / 8)])) ∧
    (∀ (v : VSpec) (imm : BitVec 20), vok v = true → let ea := s.reg .a b + imm.signExtend 64
      (ok ea 64 → tracked (.gvld v b imm) (s.entry (.gvld v b imm) (.gvld (physV s.cf.ctl v)) (s.tnt .a b) (some 0) ea 0 (words ea))) ∧
      (ok ea 64 → joins (.gvst v b imm) (s.entry (.gvst v b imm) .gvst (s.tnt .a b ||| s.vtnt v) none ea (s.vreg v) (words ea)))) ∧
    (∀ imm : BitVec 20, let ea := s.reg .a b + imm.signExtend 64
      ok ea 1 → joins (.gpf b imm) (s.entry (.gpf b imm) .gpf (s.tnt .a b) none ea 0 [])) ∧
    (∀ (op : AtomOp) (sco : Scope) (fe : Bool) (sz : BitVec 2) (f : File3) (d sr c : Reg),
      let i := Instr.atom op sco fe sz f d b sr c
      let ea := s.reg .a b
      let cas := decide (op = .cas)
      i.wf = true → ok ea (2 ^ sz.toNat) → tracked i (s.entry i
        (.atom op sco fe sz.toNat (no3 f) d.toNat (if cas then s.reg f c else 0) (s.reg f sr))
        (s.tnt .a b ||| s.tnt f sr ||| if cas then s.tnt f c else 0) (some 0) ea 0 [line ea (2 ^ sz.toNat)])) ∧
    (∀ k : DrainKind, exec (.drain k) s = .next (s.issued fun r => { r with fl := { r.fl with
      ls := [⟨(s.ctx (.drain k)).opId, (s.ctx (.drain k)).info, .drain k, 0, none, 0, 0, []⟩] } }))

/-- R208, R210: `tclr` empties the taint of a range of registers and of no other; `tget` reads a taint set. -/
def Obligations.TaintInstructions : Prop :=
  ∀ s : State, s.quiet = true →
    (∀ (f : File5) (first last : BitVec 9), (Instr.tclr f first last).wf = true →
      ∃ tt : Taints, exec (.tclr f first last) s = .next (s.issued fun r => { r with taint := tt }) ∧
        tt.ct = s.cf.taint.ct ∧ tt.out = s.cf.taint.out ∧
        ∀ (g : File5) (n : BitVec 9), (Instr.tclr g n n).wf = true →
          let no := fun (m : BitVec 9) => match g with | .v => physV s.cf.ctl m | _ => m.toNat
          tt.rdNo (no5 g) (no n) = if g = f ∧ first.toNat ≤ n.toNat ∧ n.toNat ≤ last.toNat then 0 else s.cf.taint.rdNo (no5 g) (no n)) ∧
    (∀ d : Reg, exec (.tget d .ctaint) s = .next (s.landing (s.toReg .x d 1 (s.cf.taint.ct.setWidth 64) 0))) ∧
    (∀ (d : Reg) (f : File3) (n : Reg), exec (.tget d (.reg (match f with | .x => .x | .y => .y | .a => .a) (n.setWidth 9))) s =
      .next (s.landing (s.toReg .x d 1 ((s.tnt f n).setWidth 64) 0))) ∧
    (∀ (d : Reg) (v : VSpec), vok v = true →
      exec (.tget d (.reg .v v)) s = .next (s.landing (s.toReg .x d 1 ((s.vtnt v).setWidth 64) 0))) ∧
    (∀ (d : Reg) (p : Pred),
      exec (.tget d (.reg .p (p.setWidth 9))) s = .next (s.landing (s.toReg .x d 1 ((s.ptnt p).setWidth 64) 0)))

/-- R92, R211, R212: `spt` writes a register and its taint to spill granules of the frame on a layer in service, `ldt`
reads them back with the taint of the first. -/
def Obligations.SpillAndReload : Prop :=
  ∀ (s : State) (f : File5) (reg : BitVec 9) (layer : BitVec 3) (gran : BitVec 8), s.quiet = true → s.cf.taint.ct = 0 →
    (Instr.spt f reg layer gran).wf = true → (Instr.ldt f reg layer gran).wf = true → layerIn s.cf layer.toNat = true → s.cf.banks = [] →
    (f = .v → gran.toNat % 8 = 0) →
    let n := if f = .v then 32 else 1
    let no := match f with | .v => physV s.cf.ctl reg | _ => reg.toNat
    let key := fun (i : Nat) => 512 * layer.toNat + 256 * s.curF.val + gran.toNat + i
    let q := s.cube s.cur
    (∃ t, exec (.spt f reg layer gran) s = .next t ∧
      (∀ i, i < n → fget 0 (t.cube s.cur).spill (key i) = BitVec.ofNat 64 (s.cf.regs.rdNo (no5 f) no / 2 ^ (64 * i)) ∧
        fget 0 (t.cube s.cur).shadow (key i) = s.cf.taint.rdNo (no5 f) no) ∧
      (∀ k, (∀ i, i < n → k ≠ key i) → fget 0 (t.cube s.cur).spill k = fget 0 q.spill k ∧
        fget 0 (t.cube s.cur).shadow k = fget 0 q.shadow k) ∧
      s.kept (t.modCube s.cur fun u => { u with spill := q.spill, shadow := q.shadow }) ∧
      ∀ k, t.faceAt k = s.faceAt k) ∧
    (let off := 0x1FFF000 + 0x800 * s.curF.val + 8 * gran.toNat
     let ln := (faceKey layer.toNat 2 off) / 64 * 64
     let raw := leVal ((List.range n).flatMap fun i => leBytes 8 (fget 0 q.spill (key i)).toNat)
     (∀ i, i < (if f = .v then 4 else 1) → facePoisoned q (ln + 64 * i) = false ∧ faceFails q (ln + 64 * i) = false) →
     exec (.ldt f reg layer gran) s = .next (s.acted fun u => wakeLayers (u.modFrame s.cur s.curF fun r => r.addLanding
       (s.result (no5 f) no 14 (if f = .p then (if raw = 0 then 0 else 1) else BitVec.ofNat 2048 raw) (fget 0 q.shadow (key 0))))
       s.cur [layer.toNat]))

/-- R73, R74, R213 to R215: a declaration, and the rows of the buffer table that `bstate` and `bfree` name; every other
state of the named buffer is a buffer-state fault. TINFO(3) of bstate and bfree is the model reading of log entry 43. -/
def Obligations.DeclaredBuffers : Prop :=
  ∀ (s : State) (buf : BitVec 6), s.quiet = true →
    let i := buf.toNat
    (∀ (base len : Reg) (nl : BitVec 3) (t : Task),
      let a := bits (s.reg .a base).toNat 0 32
      let n := (s.reg .a len).toNat
      windowOk (s.reg .a base) = true → spForm a = true → a % 64 = 0 → 0 < n → n % 64 = 0 → s.cf.task = some t →
      spOff a + n ≤ t.sizeOf (spFace a) → spLayer a + nl.toNat < 8 → s.cf.banks = [] → (s.cf.bufs = Vector.replicate 64 none) →
      (∀ z, spLayer a ≤ z → z ≤ spLayer a + nl.toNat → layerIn s.cf z = true) →
      exec (.bdecl buf base len nl) s = .next (s.issued fun r =>
        r.setBuf i (some ⟨(s.reg .a base).setWidth 32, n, nl.toNat, .empty, 0, 0, (s.ctx (.bdecl buf base len nl)).opId⟩))) ∧
    (∀ b : Buf, s.cf.buf i = some b →
      let gv := fun (ins : Instr) (x : Option Buf) => exec ins s = .next (s.issued fun r => r.setBuf i x)
      let faults := fun (ins : Instr) => exec ins s = .next (s.traps ins 7
        (w64 (i + b.st.code * 2 ^ 8 + b.fill * 2 ^ 16 + b.rd * 2 ^ 24)) (b.base.setWidth 64))
      (b.st = .empty ∨ b.st = .full → gv (.bstate true buf) (some { b with st := .full }) ∧
        gv (.bstate false buf) (some { b with st := .empty })) ∧
      (b.st = .empty ∨ b.st = .full ∨ b.st = .lost → gv (.bfree buf) none) ∧
      (b.st = .filling ∨ b.st = .draining ∨ b.st = .lost → faults (.bstate true buf) ∧ faults (.bstate false buf)) ∧
      (b.st = .filling ∨ b.st = .draining → faults (.bfree buf))) ∧
    (s.cf.buf i = none → exec (.bfree buf) s = .next (s.traps (.bfree buf) 7 (w64 i) 0) ∧
      ∀ full, exec (.bstate full buf) s = .next (s.traps (.bstate full buf) 7 (w64 i) 0))

/-- R102, R103, R216 to R218, R329: `semi`, `sems` and `pleave` join the sync queue in issue order; `semw` subtracts
once the count is there, waits while it is not, and refuses a count above the ceiling. R106, R219, R220, R363: a `bar`
takes the member's next phase and arrives in it while its bundle waits; an arrival at a span's barrier is also a request
to each other package of the span; once the phase has ended the bundle issues. A span's barrier outside a wave is an
illegal operation. That the sync queue acts between steps is log entry 74. -/
def Obligations.SemaphoresAndBarriers : Prop :=
  (∀ s : State, s.quiet = true →
     let joins := fun (i : Instr) (op : SyncOp) => exec i s = .next (s.issued fun r =>
       { r with fl := { r.fl with syncQ := [⟨(s.ctx i).opId, (s.ctx i).info, op⟩] } })
     (∀ (sem : BitVec 5) (ceil : BitVec 16) (count : BitVec 13),
       (1 ≤ ceil.toNat → count.toNat ≤ ceil.toNat → joins (.semi sem ceil count) (.semi sem ceil.toNat count.toNat)) ∧
       (ceil.toNat = 0 ∨ ceil.toNat < count.toNat →
         exec (.semi sem ceil count) s = .next (s.traps (.semi sem ceil count) 15))) ∧
     (∀ (sem : BitVec 5) (n : BitVec 16), joins (.sems sem n false 0) (.sems sem n.toNat none)) ∧
     (∀ (sem : BitVec 5) (n : BitVec 16) (tgt : Reg), let h := (s.reg .a tgt).toNat
       let member := bits h 14 50 = 0 ∧ bits h 2 6 = 0 ∧ bits h 8 6 ≤ taskSsize s.cf ∧ bits h 0 2 ≤ taskGsize s.cf
       (member → joins (.sems sem n true tgt) (.sems sem n.toNat (some (s.reg .a tgt)))) ∧
       (¬ member → exec (.sems sem n true tgt) s = .next (s.traps (.sems sem n true tgt) 15))) ∧
     (∀ (sem : BitVec 5) (n : BitVec 16),
       -- count and ceiling, in the block while a handler runs
       let c := (semRead s s.cur s.curF sem).1
       let x := (semRead s s.cur s.curF sem).2
       (1 ≤ n.toNat → n.toNat ≤ x → n.toNat ≤ c →
         (s.cf.away = false → exec (.semw sem n) s = .next (s.issued fun r =>
           { r with sync := { r.sync with semc := r.sync.semc.set sem.toFin (r.sync.semc[sem.toFin] - n) } })) ∧
         (s.cf.away = true → exec (.semw sem n) s = .next (s.acted fun u => semSub u s.cur s.curF sem n))) ∧
       (1 ≤ n.toNat → n.toNat ≤ x → c < n.toNat → exec (.semw sem n) s = .next (s.modCube s.cur fun q =>
         { q with stallSince := q.stallSince <|> some s.now })) ∧
       (n.toNat = 0 ∨ x < n.toNat → exec (.semw sem n) s = .next (s.traps (.semw sem n) 15))) ∧
     (∀ (cls : BitVec 4) (dur : BitVec 16),
       (cls.toNat ≤ 8 → (cls = 0 ↔ dur = 0) → joins (.pleave cls dur) (.pleave cls.toNat dur.toNat)) ∧
       (8 < cls.toNat ∨ ¬(cls = 0 ↔ dur = 0) → exec (.pleave cls dur) s = .next (s.traps (.pleave cls dur) 15)))) ∧
  (∀ (s : State) (kd : BarKind) (bid : BitVec 4) (t : Task), s.cf.task = some t →
     let i := match kd with | .gang => bid.toNat | .span => 16 + bid.toNat
     let m := (taskSrank s.cf, t.rank)
     let wave := kd = .gang ∨ taskSsize s.cf ≠ 0
     (s.quiet = true → wave → s.cf.sync.stalled.toList.getD i none = none →
       heldPhases s t.part t.launch t.gang kd bid.toNat m < 4 →
       let ph := s.cf.sync.phase.toList.getD i 0
       ∃ u, exec (.bar kd bid) s = .next u ∧
         (u.frame s.cur s.curF).sync.phase.toList.getD i 0 = ph + 1 ∧
         (u.frame s.cur s.curF).sync.stalled.toList.getD i none = some ph ∧
         (u.frame s.cur s.curF).issue = { s.cf.issue with barred := true } ∧
         { u.frame s.cur s.curF with sync := s.cf.sync, issue := s.cf.issue } = s.cf ∧
         (u.frame s.cur s.curF).sync.semc = s.cf.sync.semc ∧ (u.frame s.cur s.curF).sync.df = s.cf.sync.df ∧
         (∀ c f, (c, f) ≠ (s.cur, s.curF) → u.frame c f = s.frame c f) ∧
         (∃ p ∈ u.hub.phases, p.same t.part t.launch t.gang kd bid.toNat = true ∧ p.phase = ph ∧ m ∈ p.came) ∧ u.mem = s.mem ∧
         ∀ k, kd = .span → findRec s t.part t.launch = some k → bits (k.word 0) 0 2 = 1 → ∀ p ∈ spanPkgs k, p ≠ s.pkg →
           ∃ q ∈ u.hub.outbox ++ u.hub.held, q.srcPkg = s.pkg ∧ q.srcCube = s.cur ∧ q.dstPkg = p ∧
             q.kind = .spanArrive (wireId s t.launch) bid ph (taskSrank s.cf) t.rank) ∧
     (s.quiet = true → kd = .span → taskSsize s.cf = 0 → exec (.bar kd bid) s = .next (s.traps (.bar kd bid) 15)) ∧
     ((s.modCf fun r => { r with issue := { r.issue with barred := false } }).quiet = true → s.cf.issue.barred = true → wave →
       ∀ ph, s.cf.sync.stalled.toList.getD i none = some ph → phaseEnded s t.part t.launch t.gang kd bid.toNat ph = true →
       exec (.bar kd bid) s = .next (s.issued fun r => { r with sync := { r.sync with
         stalled := r.sync.stalled.set (i % 32) none (Nat.mod_lt _ (by decide)) } })))

/-- R91, R222, R239 to R248: an operation whose operands pass the checks of R242 joins the cube queue with the words of
its operands, samples of `FMT` and `FID`, its wait set and its accumulation form, and the declared buffers that it reads
are draining. The checks on runs of face bytes are log entry 69. -/
def Obligations.CubeOperationsJoinTheQueue : Prop :=
  ∀ s : State, s.quiet = true →
    let fmt := s.cf.ctl.fmt
    (∀ (zero : Bool) (acc : BitVec 4) (ra rb rs : Reg) (m : BitVec 8) (sig : BitVec 6) (form : Nat) (y : Nat),
      let i := if zero then Instr.cmmz acc ra rb rs m sig else Instr.cmma acc ra rb rs m sig
      let w := fun (r : Reg) => s.reg .a r
      let low := maskLow m
      let tern := decide (fmtAF fmt = 11)
      let sh := w rs
      let all := operandLines true (w ra) tern (fmtTy (fmtAF fmt)).width (fmtSCM fmt) (shpK sh) (maskN m) (shpM sh) ++
        operandLines false (w rb) tern (fmtTy (fmtBF fmt)).width (fmtSCM fmt) (shpK sh) (maskN m) (shpN sh)
      let runs := all.flatMap fun x => x.runs low
      i.wf = true → pairInfo (fmtAF fmt) (fmtBF fmt) = some (y, form) → cubeIllegal (s.ctx i) zero acc (w ra) (w rb) sh = false →
      (descAdr (w ra) low).toNat % 64 = 0 → (descAdr (w rb) low).toNat % 64 = 0 →
      (∀ z, z < 8 → m.getLsbD z = true → layerIn s.cf z = true) → (∀ x ∈ runs, runRetired s.cf x = none) →
      (∀ x ∈ all, x.boundsOk = true ∧ ∀ u ∈ x.runs low, runInside s.cf u = true) →
      (descG (w ra) = true ∨ descFace (w ra) = 0) → (descG (w rb) = true ∨ descFace (w rb) = 1) →
      (∀ j ∈ touched s.cf runs, ∀ b, s.cf.buf j = some b → (bufRow .read b).isSome = true) →
      exec i s = .next (s.issued fun r => { bufApply r .read (touched r runs) with
        ctl := { r.ctl with form := setForms r.ctl.form (formSlots acc.toNat form) form }
        fl := { r.fl with cubeQ := [⟨(s.ctx i).opId, (s.ctx i).info, .mma zero acc.toNat (w ra) (w rb) sh m sig, fmt, s.cf.ctl.fid,
          form, s.tnt .a ra ||| s.tnt .a rb ||| s.tnt .a rs ||| s.cf.taint.ct, bufRefs r (touched r runs), 0, none, [], none, 0, []⟩] } })) ∧
    (∀ (t : Ty) (acc : BitVec 4) (row : BitVec 7) (cg : BitVec 2) (v : VSpec), let i := Instr.accrd t acc row cg v
      i.wf = true → (accrdIllegal (s.ctx i) t acc = false → exec i s = .next (s.issued fun r => { r with fl := { r.fl with
        cubeQ := [⟨(s.ctx i).opId, (s.ctx i).info, .rd t acc.toNat row.toNat cg.toNat (physV s.cf.ctl v), fmt, s.cf.ctl.fid,
          sourceForm (s.ctx i) acc, 0, [], 0, none, [], none, 0, []⟩]
        var := [⟨(s.ctx i).opId, (s.ctx i).info, 3, physV s.cf.ctl v, none, none⟩] } })) ∧
      (accrdIllegal (s.ctx i) t acc = true → exec i s = .next (s.traps i 15))) ∧
    (∀ (t : Ty) (acc : BitVec 4) (row : BitVec 7) (cg : BitVec 2) (v : VSpec), let i := Instr.accwr t acc row cg v
      i.wf = true →
      (∀ form, writeForm (s.ctx i) t acc = some form → acc.toNat < accN s.cf →
        (form = 3 → acc.toNat % 2 = 0 ∧ acc.toNat + 1 < accN s.cf) →
        exec i s = .next (s.issued fun r => { r with
          ctl := if raw t then r.ctl else { r.ctl with form := setForms r.ctl.form (formSlots acc.toNat form) form }
          fl := { r.fl with cubeQ := [⟨(s.ctx i).opId, (s.ctx i).info, .wr t acc.toNat row.toNat cg.toNat (s.vreg v), fmt, s.cf.ctl.fid,
            form, 0, [], 0, none, [], none, 0, []⟩] } })) ∧
      (writeForm (s.ctx i) t acc = none ∨ accN s.cf ≤ acc.toNat ∨
        (writeForm (s.ctx i) t acc = some 3 ∧ (acc.toNat % 2 = 1 ∨ accN s.cf ≤ acc.toNat + 1)) → exec i s = .next (s.traps i 15)))

/-- R91, R213, R220, R238, R249 to R267, R271: an operation whose record passes its checks joins the copy queue with the
record's words as they stood at issue, the buffers it reads draining and those it fills filling, and its barrier's phase
taken; a fetching `nmc` takes a tag and its X register is pending. The order of a record's checks is log entry 83. -/
def Obligations.EngineOperationsJoinTheQueue : Prop :=
  ∀ (s : State) (ra : Reg) (sig : BitVec 6), s.quiet = true → sigOk sig = true →
    let ab := s.reg .a ra
    let entry := fun (i : Instr) (op : CopyOp) (wait : Taint) =>
      (⟨(s.ctx i).opId, (s.ctx i).info, op, sig, ab, wait ||| s.cf.taint.ct, none, [], [], none, false, none, [], ⟨[], [], []⟩,
        NmProg.zero, 0⟩ : CopyEnt)
    let joins := fun (i : Instr) (e : CopyEnt) => exec i s = .next (s.issued fun r => { r with fl := { r.fl with copyQ := [e] } })
    -- a record on face E that may be loaded, and its words
    let held := fun (n : Nat) => s.scratch ab n .load ∧ spFace (bits ab.toNat 0 32) = 2
    let words := fun (n : Nat) => (List.range (n / 8)).map fun i => w64 (leVal (faceBytes (s.cube s.cur) (s.spKey ab + 8 * i) 8))
    let may := fun (e : BufEvent) (l : List Run) => ∀ j ∈ touched s.cf l, ∀ b, s.cf.buf j = some b → (bufRow e b).isSome = true
    (let i := Instr.copy ra sig
      let rc := words 256
      let x := copyRec rc
      held 256 → copyIllegal s.cf rc = false → x.src % max 1 (x.sf.width / 8) = 0 → x.dst % max 1 (x.df.width / 8) = 0 →
      copyAdrCheck (s.ctx i) x = .ok () → may .read x.runs.1 → may .fill x.runs.2 →
      (∀ j ∈ touched s.cf x.runs.1, j ∉ touched s.cf x.runs.2) → copyBar s s.cf rc = false →
      exec i s = .next (s.acted fun u => (takeBar (s.ctx i) (copyBarOf rc) u).modFrame s.cur s.curF fun r =>
        let r' := bufApply (bufApply r .read (touched r x.runs.1)) .fill (touched r x.runs.2)
        { r' with fl := { r.fl with copyQ := [{ entry i (.copy rc) (s.tnt .a ra) with
            srcB := bufRefs r' (touched r x.runs.1), dstB := bufRefs r' (touched r x.runs.2)
            bar := (copyBarOf rc).map fun y => (barIdx y.1 y.2, s.cf.sync.phase.toList.getD (barIdx y.1 y.2) 0) }] } })) ∧
    (∀ cls : BitVec 2, let i := Instr.msend ra cls sig
      let rc := words 64
      let rd := msgRuns rc
      held 64 → msendIllegal s.cf rc = false → recW rc 1 % 64 = 0 → recW rc 0 % 64 = 0 →
      (∀ x ∈ rd, layerIn s.cf x.1 = true ∧ runRetired s.cf x = none ∧ spForm (runAdr x) = true ∧ runInside s.cf x = true) →
      bits (recW rc 1) 56 8 = 0 → (msgToBuffer rc = false → bits (recW rc 0) 56 8 = 0) →
      (bits (recW rc 1) 48 8 = 0xFF → bits (recW rc 1) 32 16 = 0) → may .read rd →
      exec i s = .next (s.issued fun r =>
        let r' := bufApply r .read (touched r rd)
        { r' with fl := { r.fl with copyQ := [{ entry i (.msend rc cls ((s.ctx i).opId % 2 ^ 24)) (s.tnt .a ra) with
          srcB := bufRefs r' (touched r rd), pre := (s.cube s.cur).ctl.unsched }] } })) ∧
    (ab.toNat % 8 = 0 → bits ab.toNat 48 16 < 0xFF →
      (∀ imm : BitVec 16, joins (.putfImm ra imm sig) (entry (.putfImm ra imm sig) (.putf ab (imm.setWidth 64)) (s.tnt .a ra))) ∧
      (∀ val : Reg, joins (.putfReg ra val sig) (entry (.putfReg ra val sig) (.putf ab (s.reg .x val)) (s.tnt .a ra ||| s.tnt .x val)))) ∧
    (∀ (fe : Bool) (fd : Reg), let i := Instr.nmc ra fe fd sig
      let rc := words 64
      i.wf = true → held 64 → nmcIllegal rc fe = false → recW rc 1 % 64 = 0 → recW rc 2 % 64 = 0 →
      bits (recW rc 1) 56 8 = 0 → bits (recW rc 2) 56 8 = 0 →
      let e := entry i (.nmc rc fe) (s.tnt .a ra)
      (fe = false → joins i e) ∧
      (fe = true → exec i s = .next (s.issued fun r => { r with
        taint := { r.taint with out := [(e.id, 0)] }
        fl := { r.fl with copyQ := [{ e with tag := some 0 }], var := [⟨e.id, e.info, 0, fd.toNat, none, some 0⟩] } }))) ∧
    (let i := Instr.wlaunch ra sig; held 256 → joins i (entry i (.wlaunch (words 256)) (s.tnt .a ra)))

/-- R272, R311 to R315: what `crr` reads at either level, and at level S alone; another read is an illegal operation.
That TVEC is one register per cube is log entry 8, and unnamed fields read zero by log entry 77. -/
def Obligations.ControlRegisterReads : Prop :=
  ∀ (s : State) (x : Reg), s.quiet = true →
    let r := s.cf
    let q := s.cube s.cur
    let k := q.ctl
    let p := r.priv
    let reads := fun (l : List (BitVec 12 × Word)) => ∀ n v, (n, v) ∈ l → exec (.crr x n) s = .next (s.landing (s.toReg .x x 2 v 0))
    let levelS : List (BitVec 12 × Word) :=
      [(0x101, k.tvec), (0x102, p.tcause), (0x103, p.tinfo[0]), (0x104, p.tinfo[1]), (0x105, p.tinfo[2]), (0x106, p.tinfo[3]),
       (0x107, p.landrec), (0x108, p.ctxptr), (0x109, p.ctxva), (0x200, w64 k.floor), (0x201, w64 k.ramp)]
    reads [(0x000, r.ctl.taskid), (0x001, r.ctl.tile), (0x002, r.ctl.layers.setWidth 64), (0x008, r.ctl.fmt.setWidth 64),
      (0x009, r.ctl.fid.setWidth 64), (0x00A, r.ctl.fstat.setWidth 64), (0x00B, r.ctl.cstat.setWidth 64),
      (0x00C, w64 (r.ctl.woff + r.ctl.wstep.toNat * 2 ^ 8 + r.ctl.wsize * 2 ^ 16)), (0x00D, r.taint.ct.setWidth 64),
      (0x00E, k.fmterr.setWidth 64), (0x00F, (accformWord r).setWidth 64), (0x010, w64 (pgstepWord q)),
      (0x100, w64 (bnat p.lvl + p.disp.toNat * 2 ^ 8)), (0x10A, k.dplimit.setWidth 64), (0x210, w64 k.unsched), (0x211, w64 k.grantq),
      (0x212, w64 k.grantmax), (0x213, w64 k.tokexp), (0x214, w64 k.orphto), (0x043, 0), (0x05F, 0)] ∧
    (∀ i, i < 32 → i % 4 ≠ 3 → exec (.crr x (BitVec.ofNat 12 (0x40 + i))) s =
      .next (s.landing (s.toReg .x x 2 ((k.bec.toList.getD i 0).setWidth 64) 0))) ∧
    (p.lvl = true → reads levelS) ∧
    (p.lvl = false → ∀ n v, (n, v) ∈ levelS → exec (.crr x n) s = .next (s.traps (.crr x n) 15 (n.setWidth 64))) ∧
    (∀ n : BitVec 12, 0x215 ≤ n.toNat → exec (.crr x n) s = .next (s.traps (.crr x n) 15 (n.setWidth 64)))

/-- R61, R144, R272, R311 to R315: `crw` writes sticky bits at either level and writes the other registers at level S,
within their ranges; at level U, of a read-only register, or out of range it is an illegal operation. R275, R359: `tlbi`
at level S drops the entries of a page of the task's own space, of an identifier, or all of the partition, on this cube
or on every cube of the partition; at level U it is an illegal operation. That TVEC is one register per cube is log
entry 8; that tlbi.va takes the ASID of the task is R359 over R275, log entry 65.. -/
def Obligations.ControlWritesAndInvalidation : Prop :=
  (∀ (s : State) (x : Reg), s.quiet = true →
     let v := s.reg .x x
     let w := v.toNat
     let onFrame := fun (n : BitVec 12) (g : Frame → Frame) => exec (.crw x n) s = .next (s.issued g)
     let onCube := fun (n : BitVec 12) (g : CubeCtl → CubeCtl) =>
       exec (.crw x n) s = .next (s.acted fun u => u.modCube s.cur fun q => { q with ctl := g q.ctl })
     let refused := fun (n : BitVec 12) => exec (.crw x n) s = .next (s.traps (.crw x n) 15 (n.setWidth 64))
     (s.cf.issue.lflags = 0 →
       onFrame 0x00A (fun r => { r with ctl := { r.ctl with fstat := v.setWidth 5 } }) ∧
       onFrame 0x00B (fun r => { r with ctl := { r.ctl with cstat := v.setWidth 2 } })) ∧
     (∀ n : BitVec 12, n ∈ [0x000, 0x001, 0x002, 0x008, 0x009, 0x00C, 0x010, 0x102, 0x103, 0x104, 0x105, 0x106, 0x107, 0x300] → refused n) ∧
     (s.cf.priv.lvl = false → ∀ n : BitVec 12,
       n ∈ [0x00D, 0x00E, 0x00F, 0x100, 0x101, 0x108, 0x109, 0x10A, 0x200, 0x201, 0x210, 0x211, 0x212, 0x213, 0x214, 0x040] → refused n) ∧
     (s.cf.priv.lvl = true →
       onFrame 0x00D (withCt (v.setWidth 32)) ∧
       onCube 0x00E (fun k => { k with fmterr := v.setWidth 32 }) ∧
       onFrame 0x00F (fun r => { r with ctl := { r.ctl with form := v.setWidth 32 } }) ∧
       (bits w 8 2 = 3 → onFrame 0x100 id) ∧
       (bits w 8 2 ≠ 3 → onFrame 0x100 (fun r => { r with priv := { r.priv with disp := BitVec.ofNat 2 (bits w 8 2) } })) ∧
       onCube 0x101 (fun k => { k with tvec := w64 (64 * bits w 6 50) }) ∧
       onFrame 0x108 (fun r => { r with priv := { r.priv with ctxptr := w64 (4096 * bits w 12 30) } }) ∧
       onFrame 0x109 (fun r => { r with priv := { r.priv with ctxva := w64 (bits w 0 56) } }) ∧
       onCube 0x10A (fun k => { k with dplimit := if bits w 0 32 = 0 then 1 else v.setWidth 32 }) ∧
       (∀ i, i < 32 → i % 4 = 3 → onCube (BitVec.ofNat 12 (0x40 + i)) id) ∧
       (∀ i, i < 32 → i % 4 ≠ 3 → onCube (BitVec.ofNat 12 (0x40 + i)) (fun k => { k with bec := k.bec.set (i % 32) (v.setWidth 32) (Nat.mod_lt _ (by decide)) })) ∧
       (if bits w 0 10 ≤ 828 then onCube 0x200 (fun k => { k with floor := bits w 0 10 }) else refused 0x200) ∧
       onCube 0x201 (fun k => { k with ramp := bits w 0 16 }) ∧
       (if bits w 0 15 % 64 = 0 ∧ bits w 0 15 ≤ 16384 then onCube 0x210 (fun k => { k with unsched := bits w 0 15 }) else refused 0x210) ∧
       (if bits w 0 19 % 4096 = 0 ∧ 4096 ≤ bits w 0 19 ∧ bits w 0 19 ≤ 262144 then
         onCube 0x211 (fun k => { k with grantq := bits w 0 19 }) else refused 0x211) ∧
       (if 1 ≤ bits w 0 6 ∧ bits w 0 6 ≤ 32 then onCube 0x212 (fun k => { k with grantmax := bits w 0 6 }) else refused 0x212) ∧
       (if 1 ≤ bits w 0 10 ∧ bits w 0 10 ≤ 1000 then onCube 0x213 (fun k => { k with tokexp := bits w 0 10 }) else refused 0x213) ∧
       (if 100 ≤ bits w 0 20 ∧ bits w 0 20 ≤ 1000000 then onCube 0x214 (fun k => { k with orphto := bits w 0 20 }) else refused 0x214))) ∧
  (∀ (s : State) (kind : BitVec 3) (adr : Reg) (t : Task), s.quiet = true → (Instr.tlbi kind adr).wf = true →
     s.cf.task = some t →
     let w := s.reg .a adr
     let named := fun (e : TlbEnt) => e.part = t.part ∧
       (kind.toNat % 4 = 0 → e.asid = t.asid ∧ e.page = (w.toNat % 2 ^ 56) / 2 ^ e.lg) ∧ (kind.toNat % 4 = 1 → e.asid = w.setWidth 16)
     (s.cf.priv.lvl = false ∨ (kind.toNat % 4 = 1 ∧ bits w.toNat 16 48 ≠ 0) →
       exec (.tlbi kind adr) s = .next (s.traps (.tlbi kind adr) 15)) ∧
     (s.cf.priv.lvl = true → (kind.toNat % 4 = 1 → bits w.toNat 16 48 = 0) → ∃ u, exec (.tlbi kind adr) s = .next u ∧
       (∀ (c : CubeId) (l : Tlb → List TlbEnt), (l = Tlb.last ∨ ∃ src, l = fun x => x.first src) → ∀ e,
         e ∈ l (u.cube c).tlb ↔ e ∈ l (s.cube c).tlb ∧ ¬ (named e ∧ (if kind.toNat < 4 then c = s.cur else
         match partOf s t.part with | some d => d.cubes.getLsbD c.val = true | none => c = s.cur))) ∧
       u.mem = s.mem ∧ u.poison = s.poison ∧ u.merge = s.merge ∧ u.hub = s.hub ∧ u.teasel = s.teasel ∧
       ∀ c, { u.cube c with tlb := Cube.zero.tlb } = { (s.issued id).cube c with tlb := Cube.zero.tlb }))

/-- R269, R310, R313, R316 to R318, R330: taking a trap from level U with nothing in flight: the cause registers, level
S, the handler's address, A0, the taint emptied, a leave released with its time in the block, and the words of the
context block, of which bytes below it are untouched. That the PC stands at halfword 2 of the vector packet is the model
reading of log entry 67, TVEC per cube that of log entry 8. -/
def Obligations.TrapIsTaken : Prop :=
  ∀ (s : State) (x : TrapInfo), s.cf.quiet = true → s.cf.priv.lvl = false →
    let r := s.cf
    let t := enterTrap s s.cur s.curF x
    let r' := t.frame s.cur s.curF
    let base := ctxBase s r.priv.ctxptr
    let cause := w64 (x.cause + (bnat x.fatal) * 2 ^ 8 + x.slot * 2 ^ 12 + (bnat x.after) * 2 ^ 16)
    let t1 := if x.slot = 15 then w64 (15 * 2 ^ 56) else w64 (x.bits.toNat + x.slot * 2 ^ 56)
    r'.priv = { r.priv with lvl := true, disp := 0, tcause := cause, tinfo := #v[x.pc0, t1, x.t2, x.t3], landrec := 0 } ∧
    r'.issue.pc = w64 (64 * bits (s.cube s.cur).ctl.tvec.toNat 6 50 + 64 * x.cause + 4) ∧
    r'.regs = { r.regs with a := r.regs.a.set 0 r.priv.ctxva } ∧ r'.taint = Taints.none ∧
    r'.seq = r.seq ∧ r'.ctl = r.ctl ∧ r'.sync = r.sync ∧ r'.bufs = r.bufs ∧ r'.task = r.task ∧ r'.leave = none ∧
    (∀ o v, (o, v) ∈ [(0x00, w64 (1 + 2 ^ 16 + 2 ^ 24)), (0x08, r.issue.pc), (0x10, r.ctl.taskid), (0x18, cause), (0x20, x.pc0),
        (0x28, t1), (0x30, x.t2), (0x38, x.t3), (0x40, r.ctl.fmt.setWidth 64), (0x48, r.ctl.fid.setWidth 64),
        (0x50, r.ctl.fstat.setWidth 64), (0x58, r.ctl.cstat.setWidth 64), (0x70, 0), (0x78, w64 (leaveWord s.now r))] → w64 (gRead t (base + o) 8) = v) ∧
    ((∀ l ∈ r.seq.toList, l.pairs.length ≤ 4) → ∀ i : Reg,
      w64 (gRead t (base + 0x480 + 8 * i.toNat) 8) = s.reg .x i ∧ w64 (gRead t (base + 0x580 + 8 * i.toNat) 8) = s.reg .y i ∧
      w64 (gRead t (base + 0x680 + 8 * i.toNat) 8) = s.reg .a i) ∧
    (∀ a, a < base → memByte t.mem a = memByte s.mem a) ∧
    (∀ c f, (c, f) ≠ (s.cur, s.curF) → t.frame c f = s.frame c f)

/-- R310, R34: a trap at level S is a handler fault: the frame stops with its registers as they are, and its gang ends
with the error. R269, R312, R319: a return from a trap that was not fatal reads the block and enters level U with its
registers and PC, and asks again for the leave that the block records; a fatal trap, or a block that breaks a limit, is
a handler fault. The block here names no queued operation. The log code 0x70 of a handler fault is the choice of log
entry 18. -/
def Obligations.HandlerFaultsAndReturns : Prop :=
  (∀ (s : State) (x : TrapInfo), s.cf.priv.lvl = true →
     let t := enterTrap s s.cur s.curF x
     let r' := t.frame s.cur s.curF
     r' = { s.cf with issue := { s.cf.issue with stopped := true } } ∧ t.mem = s.mem ∧
     ∀ k g p, s.cf.task = some k → findRec s k.part k.launch = some p → p.gang k.gang = some g → g.err = none →
       ∃ p' g', findRec t k.part k.launch = some p' ∧ p'.gang k.gang = some g' ∧ g'.err = some (x.cause, x.t2, s.cf.ctl.taskid)) ∧
  (∀ s : State, s.cf.priv.lvl = true →
     let r := s.cf
     let base := ctxBase s r.priv.ctxptr
     let word := fun (o : Nat) => w64 (gRead s (base + o) 8)
     let t := returnTrap s s.cur s.curF
     let r' := t.frame s.cur s.curF
     (Nat.testBit r.priv.tcause.toNat 8 = true ∨ blockOk s base = false → r'.issue.stopped = true ∧ r'.regs = r.regs ∧ r'.issue.pc = r.issue.pc) ∧
     (Nat.testBit r.priv.tcause.toNat 8 = false → blockOk s base = true → word 0x70 = 0 →
       r'.priv = { r.priv with lvl := false } ∧ r'.issue.pc = word 8 ∧ r'.taint = Taints.none ∧
       (∀ i : Reg, r'.regs.rd .x i = word (0x480 + 8 * i.toNat) ∧ r'.regs.rd .y i = word (0x580 + 8 * i.toNat) ∧
         r'.regs.rd .a i = word (0x680 + 8 * i.toNat)) ∧
       r'.ctl.fmt = (word 0x40).setWidth 16 &&& fmtMask ∧ r'.ctl.fid = (word 0x48).setWidth 6 ∧ r'.ctl.fstat = (word 0x50).setWidth 5 ∧
       r'.ctl.cstat = (word 0x58).setWidth 2 ∧ r'.ctl.taskid = r.ctl.taskid ∧ r'.ctl.layers = r.ctl.layers ∧
       r'.fl.due = r.fl.heldDue ∧ r'.fl.traps = r.fl.heldTraps ∧ t.mem = s.mem ∧
       (let w := (word 0x78).toNat
        (t.cube s.cur).camp.reqs = (s.cube s.cur).camp.reqs ++
          (if bits w 0 4 = 0 ∨ bits w 16 16 = 0 then [] else [⟨s.curF.val, bits w 0 4, bits w 16 16, s.now⟩]))))

/-- R35, R318, R319, R330: a task that a trap interrupts with nothing in flight has its registers, predicates and PC
back after the return, where the saved block passes its checks. -/
def Obligations.TrapRoundTrip : Prop :=
  ∀ (s : State) (x : TrapInfo), s.cf.quiet = true → s.cf.priv.lvl = false → x.fatal = false → x.cause < 32 → x.slot < 16 →
    (∀ l ∈ s.cf.seq.toList, l.pairs.length ≤ 4) →
    let t := enterTrap s s.cur s.curF x
    blockOk t (ctxBase s s.cf.priv.ctxptr) = true →
    let r' := (returnTrap t s.cur s.curF).frame s.cur s.curF
    r'.issue.pc = s.cf.issue.pc ∧ r'.regs.x = s.cf.regs.x ∧ r'.regs.y = s.cf.regs.y ∧ r'.regs.a = s.cf.regs.a ∧
    (∀ p, r'.regs.pred p = s.cf.regs.pred p) ∧ (∀ i, i < 384 → r'.regs.rdV i = s.cf.regs.rdV i) ∧ r'.priv.lvl = false ∧
    r'.ctl.fmt = s.cf.ctl.fmt &&& fmtMask ∧ r'.ctl.fid = s.cf.ctl.fid ∧ r'.ctl.fstat = s.cf.ctl.fstat ∧ r'.ctl.cstat = s.cf.ctl.cstat ∧
    r'.sync.df = s.cf.sync.df

/-- R61, R78, R89, R121 to R123, R144: a due result lands in its register with its live taint, its flags and its count;
a poisoned one leaves its register and its trap is due. That live taint leaves out the tags given back is R126 read
beside R123 (DEDUCED, log entry 89). -/
def Obligations.ResultsLand : Prop :=
  ∀ (s : State) (l : Landing), s.teasel.power = true → s.cf.fl.land = [l] →
    let c := s.cf.ctl
    let d := s.cf.issue
    (l.due ≤ d.nb → l.poison = none → ∃ t, exec .resultLand s = .next t ∧
      let r := t.frame s.cur s.curF
      r.fl = { s.cf.fl with land := [] } ∧ t.mem = s.mem ∧ r.issue.pc = d.pc ∧
      r.ctl.fstat = c.fstat ||| l.flags ∧ (r.ctl.cstat.getLsbD 1 = (c.cstat.getLsbD 1 || l.idz)) ∧
      (t.cube s.cur).ctl.fmterr.toNat = min ((s.cube s.cur).ctl.fmterr.toNat + l.inc) 0xFFFFFFFF ∧
      (l.file < 5 → r.regs = s.cf.regs.wr l.file l.reg l.val ∧ r.taint = s.cf.taint.wr l.file l.reg (liveTaint s.cf l.taint) ∧
        r.ctl.fmt = c.fmt ∧ r.ctl.fid = c.fid) ∧
      (l.file = 5 → r.ctl.fmt = l.val.setWidth 16 &&& fmtMask ∧ r.regs = s.cf.regs) ∧ (l.file = 6 → r.ctl.fid = l.val.setWidth 6 ∧ r.regs = s.cf.regs)) ∧
    (l.due ≤ d.nb → ∀ line info, l.poison = some (line, info) → exec .resultLand s = .next (s.modCf fun r =>
      { r with fl := { r.fl with land := [], traps := r.fl.traps ++ [poisonTrap info line] } })) ∧
    (d.nb < l.due → exec .resultLand s = .next s) ∧
    (∀ x : VarRes, s.cf.fl.var = [x] → x.val = none → exec .variableResultLand s = .next s) ∧
    (∀ (x : VarRes) v fl line, s.cf.fl.var = [x] → x.val = some (v, fl, some line) → exec .variableResultLand s =
      .next (s.modCf fun r => { r with fl := { r.fl with
        var := [], due := r.fl.due ++ [⟨poisonTrap x.info line, some (x.file, x.reg), 63⟩] } })) ∧
    (∀ (x : VarRes) v fl, s.cf.fl.var = [x] → x.val = some (v, fl, none) → ∃ t, exec .variableResultLand s = .next t ∧
      let r := t.frame s.cur s.curF
      r.fl = { s.cf.fl with var := [] } ∧ r.regs = s.cf.regs.wr x.file x.reg v ∧ r.ctl.fstat = c.fstat ||| fl ∧ t.mem = s.mem ∧
      r.taint = s.cf.taint.wr x.file x.reg (match s.cf.taint.out.find? (·.1 = x.id) with | some (_, g) => 1#32 <<< g | none => 0))

/-- What a register write gives: the register reads as written, at its width, `p0` reads true, and no other register of
any file changes (R116, R163). What a landing put in flight leaves: every register, flag, status, memory byte and other
frame is as before, and the result is the only thing in flight (R121). -/
def Obligations.RegisterWritesAndLandings : Prop :=
  (∀ (g : Regs) (v : VReg),
     (∀ (f : File3) (r : Reg), (g.wr (no3 f) r.toNat v).rd f r = v.setWidth 64 ∧
       (∀ f' r', (f', r') ≠ (f, r) → (g.wr (no3 f) r.toNat v).rd f' r' = g.rd f' r') ∧
       (∀ p, (g.wr (no3 f) r.toNat v).pred p = g.pred p) ∧ ∀ i, (g.wr (no3 f) r.toNat v).rdV i = g.rdV i) ∧
     (∀ p : Pred, (g.wr 4 p.toNat v).pred 0 = true ∧ (p ≠ 0 → (g.wr 4 p.toNat v).pred p = v.getLsbD 0) ∧
       (∀ p', p' ≠ p → (g.wr 4 p.toNat v).pred p' = g.pred p') ∧ (∀ f r, (g.wr 4 p.toNat v).rd f r = g.rd f r)) ∧
     (∀ i, (g.wr 3 i v).rdV i = v ∧ (∀ j, j ≠ i → (g.wr 3 i v).rdV j = g.rdV j) ∧
       (∀ f r, (g.wr 3 i v).rd f r = g.rd f r) ∧ ∀ p, (g.wr 3 i v).pred p = g.pred p)) ∧
  (∀ (s : State) (l : Landing), s.quiet = true →
     let t := s.landing l
     let r := s.cf
     let k := t.frame s.cur s.curF
     t.mem = s.mem ∧ t.poison = s.poison ∧ t.merge = s.merge ∧ t.hub = s.hub ∧ t.teasel = s.teasel ∧ t.cur = s.cur ∧ t.now = s.now ∧
     (∀ c f, (c, f) ≠ (s.cur, s.curF) → t.frame c f = s.frame c f) ∧ (∀ c, c ≠ s.cur → t.cube c = s.cube c) ∧
     (t.cube s.cur).face = (s.cube s.cur).face ∧ (t.cube s.cur).acc = (s.cube s.cur).acc ∧ (t.cube s.cur).ctl = (s.cube s.cur).ctl ∧
     (t.cube s.cur).spill = (s.cube s.cur).spill ∧ k.regs = r.regs ∧ k.taint = r.taint ∧ k.seq = r.seq ∧ k.ctl = r.ctl ∧
     k.priv = r.priv ∧ k.sync = r.sync ∧ k.bufs = r.bufs ∧ k.task = r.task ∧ k.fl = { r.fl with land := [l] } ∧
     k.issue.pc = s.nextPc ∧ k.issue.nb = r.issue.nb + 1)

/-- R94, R97, R102, R107 to R113, R118 to R120, R124, R138: a bundle that meets the conditions of R138 at a quiet core
commits: its slots act, the PC goes on or to the branch target, of two branches the one in BRA is taken, guards join
`CTAINT`, WAIT bits leave `DF`. One slot among `nop`s is that instruction alone. Reserved header bits, or two slots that
write one register, trap before any slot; an undone signal of WAIT stalls; while an armed register is pending, a bubble
issues. R28 to R31, R34, R36, R154, R320: at a drain point whose bundle has no cause of its own, in order: a failed gang
stops, storage is withdrawn, a due trap is taken, a pre-emption, an interrupt, a switch to a resident that is ready;
with none of them due the machine stands. The bundle has not issued. The slot number and words of a header trap and of
an undecodable slot are log entry 19, the registers a bubble waits for log entry 37, the specifier of a double write log
entry 66; the order among conditions at one boundary is log entry 73, of stalls and bubbles log entry 78. -/
def Obligations.BundlesAndDrainPoints : Prop :=
  (∀ (s : State) (lit : Bool) (b : Bundle) (l : List SlotIns), decodeSlots b = .ok l →
     let r := s.cf
     let pc := r.issue.pc
     let next := nextOf s s.cur s.curF lit
     let x : BundleIn := ⟨b.dp, b.waitMask, b.lvl, decide (b.hdr.extractLsb' 12 4 ≠ 0), l, next⟩
     let iss := l.filter (slotIssues r b.lvl)
     -- the bundle commits
     (∀ effs : List (SlotIns × SlotEff), s.quiet = true → s.lawful x effs → r.sync.df &&& b.waitMask = b.waitMask →
       (∀ z ∈ iss, barOf z.ins = none ∧ (∀ k n, semwOf z.ins = some (k, n) → n.toNat ≤ (semRead s s.cur s.curF k).1) ∧
         (∀ t, storeWait r (r.taint.pred z.guard) z.ins = some t → t &&& 0x7FFFFFFF = 0) ∧
         (∀ a, copyOf z.ins = some a → copyHeld s (ctxOf s s.cur s.curF x z) a = false) ∧
         ((s.cube s.cur).dbgAttached = true → (s.cube s.cur).dbgEvents = true → dbgOf z.ins = none)) →
       (b.dp = true → r.priv.lvl = true ∨ (gangFailed s r = false ∧ withdrawalDue (s.cube s.cur) r = false ∧ r.issue.irq = false ∧
         (s.cube s.cur).stallSince = none ∧ ∀ z ∈ iss, isYield z.ins = false)) →
       exec (.bundleIssue lit b) s = .next (commit s s.cur s.curF x effs) ∧
       ((∀ p ∈ effs, p.2.sys = none ∧ p.2.rfe = false ∧ (p.2.halts = true → r.priv.lvl = false)) →
         let t := commit s s.cur s.curF x effs
         let u := ((storesLast r (resolve effs).1).foldl (fun s p => p.2.act s) s).frame s.cur s.curF
         let k := t.frame s.cur s.curF
         k.issue.nb = u.issue.nb + 1 ∧ k.sync.df = u.sync.df &&& ~~~b.waitMask ∧ k.regs = u.regs ∧ k.bufs = u.bufs ∧
         k.task = u.task ∧ k.priv = u.priv ∧ (∀ z ∈ l, k.taint.ct ||| r.taint.pred z.guard = k.taint.ct) ∧
         ((∃ p ∈ effs, p.2.halts = true ∧ p.2.taken = none) → k.issue.pc = next ∧ (u.priv.lvl = false → k.issue.halted = true)) ∧
         ((∀ p ∈ effs, p.2.taken = none) → k.issue.pc = next) ∧
         ((∀ p ∈ effs, p.2.halts = false) → ∀ p g, p.2.taken = some g →
           (effs.filter (fun y => y.2.taken.isSome) = [p] → k.issue.pc = g) ∧
           (∀ q, effs.filter (fun y => y.2.taken.isSome) = [p, q] → p.1.slot = .bra → q.1.slot = .brb →
             k.issue.pc = g ∧ k.ctl.cstat.getLsbD 0 = true)))) ∧
     -- one slot among nops
     (∀ (i : Instr) (z : SlotIns), s.quiet = true → i.wf = true → soloSlot i = some z → z ∈ l → b.hdr = 0 → next = s.nextPc →
       (∀ y ∈ l, y ≠ z → y.ins = .nop ∧ y.guard = 0 ∧ y.first = false ∧ y.last = false) →
       exec (.bundleIssue lit b) s = exec i s) ∧
     -- traps before any slot
     (b.hdr.extractLsb' 12 4 ≠ 0 → s.quiet = true →
       exec (.bundleIssue lit b) s = .next (enterTrap s s.cur s.curF ⟨2, 15, false, false, pc, 0, 0, 0⟩)) ∧
     (∀ y z d, b.hdr.extractLsb' 12 4 = 0 → s.quiet = true → (b.lvl.toNat < 6 ∨ ∀ w ∈ l, w.first = false ∧ w.last = false) →
       (l.filterMap fun w => levelOf w.ins).Nodup → doubleWrite r l = some (y, z, d) →
       y.slot.code < z.slot.code ∧ d ∈ destsOf r y.ins ∧ d ∈ destsOf r z.ins ∧
       exec (.bundleIssue lit b) s = .next (enterTrap s s.cur s.curF
         ⟨4, y.slot.code, false, false, pc, y.raw, w64 (d.2 + (min d.1 5) * 2 ^ 9 + z.slot.code * 2 ^ 12), 0⟩)) ∧
     -- a WAIT whose signal is not done
     (∀ effs : List (SlotIns × SlotEff), s.quiet = true → s.lawful x effs → r.sync.df &&& b.waitMask ≠ b.waitMask → b.dp = false →
       (∀ z ∈ iss, barOf z.ins = none ∧ semwOf z.ins = none) →
       exec (.bundleIssue lit b) s = .next (s.modCube s.cur fun q => { q with stallSince := q.stallSince <|> some s.now })) ∧
     -- a bubble
     (∀ (effs : List (SlotIns × SlotEff)) (w : Landing), s.teasel.power = true → mayIssue s s.cur s.curF = true →
       fetchAt s s.cur s.curF = .ok ⟨lit, b, next⟩ → s.lawful x effs → r.fl.var = [] → (∀ z ∈ l, barOf z.ins = none) →
       (∀ y ∈ r.fl.land, r.issue.nb < y.due) → w ∈ r.fl.land → w.arm = true → (w.file, w.reg) ∈ usedRegs r l iss →
       ∃ t, exec .bubble s = .next t ∧ (t.frame s.cur s.curF).issue.pc = pc ∧
         (t.frame s.cur s.curF).issue.nb = r.issue.nb + 1 ∧ (t.frame s.cur s.curF).regs = r.regs ∧
         (t.frame s.cur s.curF).taint = r.taint ∧ (t.frame s.cur s.curF).fl = r.fl ∧ t.mem = s.mem)) ∧
  (∀ (s : State) (y : Fetched) (x : BundleIn) (effs : List (SlotIns × SlotEff)), s.teasel.power = true →
     mayIssue s s.cur s.curF = true → s.cf.priv.lvl = false → atDrainPoint s s.cur s.curF = true →
     fetchAt s s.cur s.curF = .ok y → bundleIn s.cf.issue.pc y.b y.next = .ok x → s.lawful x effs →
     let q := s.cube s.cur
     let wish := s.cf.issue.yielded ≠ some s.cf.issue.pc ∧ ∃ p ∈ effs, isYield p.1.ins = true
     let slow := ∃ t, q.stallSince = some t ∧ 512 ≤ s.now - t
     let due := wish ∨ slow ∨ s.cf.issue.slice.isSome = true
     (gangFailed s s.cf = true → exec .drainPoint s = .next (s.modCf fun r => { r with issue := { r.issue with stopped := true } })) ∧
     (gangFailed s s.cf = false →
       (withdrawalDue q s.cf = true → exec .drainPoint s = .next (withdraw s s.cur s.curF)) ∧
       (withdrawalDue q s.cf = false →
         (∀ t, drainTrap s s.cur s.curF = some t →
           exec .drainPoint s = .next (enterTrap (s.modCf fun r => dropDue r t) s.cur s.curF t)) ∧
         (drainTrap s s.cur s.curF = none →
           (s.cf.issue.preempt.isSome = true → exec .drainPoint s = .next (savePreempted s s.cur s.curF)) ∧
           (s.cf.issue.preempt = none → s.cf.issue.irq = true →
             exec .drainPoint s = .next (s.modCf fun r => { r with issue := { r.issue with irq := false } })) ∧
           (s.cf.issue.preempt = none → s.cf.issue.irq = false →
             (due → ready slotMeaning s s.cur (otherF s.curF) = true → ∃ t, exec .drainPoint s = .next t ∧
               (t.cube s.cur).running = otherF s.curF ∧ (t.cube s.cur).runSince = s.now ∧ (t.cube s.cur).stallSince = none) ∧
             (¬ due ∨ ready slotMeaning s s.cur (otherF s.curF) = false → exec .drainPoint s = .next s))))))

/-- R5, R107, R118, R121: a step for a core that may issue lands what has arrived and issues the bundle decoded at its
PC, or, where that bundle stands in a stall that changes nothing, leaves the machine; a step for an event is that event.
The agenda that names the core or the event is the choice of log entry 4; the bundle placed at the PC is log entry 6,
and that the sync queues act before a step is log entry 74. -/
def Obligations.StepRunsTheDecodedBundle : Prop :=
  ∀ (s : State) (rest : List Choice),
    let u := syncAll { s with agenda := rest }
    (∀ i, s.agenda = .event i :: rest → step s = exec i u) ∧
    (∀ (c : CubeId) (x : Fetched) (b : BundleIn), s.agenda = .core c :: rest → u.teasel.power = true →
      let u := { u with cur := c }
      let v := landDue ((sliceExpiryRun u c).modFrame c u.curF landArrived) c u.curF
      mayIssue u c u.curF = true → mayIssue v c v.curF = true → fetchAt v c v.curF = .ok x →
      bundleIn v.cf.issue.pc x.b x.next = .ok b →
      (standing v c v.curF b = false → step s = exec (.bundleIssue x.lit x.b) v) ∧
      (standing v c v.curF b = true → step s = .next (syncAll { s with agenda := rest }))) ∧
    -- a placed bundle is what the next fetch finds
    (∀ w : BitVec 384, s.quiet = true → s.hub.parts = [] → s.cf.part = 0 → s.pkg < 1024 →
      let p := s.withFetchWord 384 w.toNat
      fetchAt p p.cur p.curF = .ok ⟨true, Bundle.ofBits w, w64 (placeVa + 68)⟩)

/-- R77, R79, R83 to R91, R201 to R207, R264, R356, R358: a queued access is sent once its wait set is empty and its
lines translate, in lane order; a load's word is bound as its home reads it, its value waiting for its register;
`drain`, `gpf` and `putf` leave their queue; a walk fills the TLBs of its source; a write is accepted, then performs,
and a line wholly written is clean; an atomic reads and writes at once; a load performs and gives its tag back. The
first word sent of a line of another package makes one request for it, which leaves through a port of the cube; the
model's memory stands for that package's (the model's choice, log 15). The instants at which an access is sent and bound
are the agenda of log entries 4 and 10; the replacement in a TLB is log entry 12, and that a read takes the latest
accepted word log entry 87. -/
def Obligations.GlobalAccessesMove : Prop :=
  ∀ (s : State) (c : CubeId) (f : FrameId) (e : LsEnt), (s.frame c f).task.isSome = true → (s.frame c f).issue.swapped = false →
    let r := s.frame c f
    let q := s.cube c
    let flies := fun (x : Flight) => s.modFrame c f fun r => { r with fl := x }
    let bound := fun (a : Nat) (l : Line) =>
      ({ l with pa := some a, st := .accepted, val := gRead s a l.n, deps := mergeDeps s a l.n, bad := poisoned s a } : Line)
    -- the request for an access at another package
    let asks := fun (info : OpInfo) (id : Nat) (va : Word) (p : Nat) (m : RemoteKind) (t : State) =>
      if paPkg p = s.pkg then t
      else t.modHub fun h => { h with outbox := h.outbox ++
        [⟨s.pkg, c, fpidOf s r.part, paPkg p, BitVec.ofNat 42 (paLocal p), BitVec.ofNat 3 (laneOf p), reqTag r info id va, m⟩] }
    -- a word of a load, store or atomic
    (∀ (i : Nat) (l : Line) (a : Nat), s.flies c f { Flight.none with ls := [e] } → e.op.isDrain = false → e.op.isGpf = false →
      e.wait = 0 → e.lines[i]? = some l → l.st = .queued → l.pa = none → translateF s c f e.op.need l.va.toNat = .ok a →
      (∀ y ∈ e.lines, y.pa.isSome = true ∨ ∃ b, translateF s c f e.op.need y.va.toNat = .ok b) →
      (∀ j y, j < i → e.lines[j]? = some y → y.st ≠ .queued ∧ y.st ≠ .sent) →
      laneUp s c a = true → accessCheck s r.part a e.op.writes = none →
      let x := { e with lines := e.lines.set i (if e.op.isLoad then bound a l else { l with pa := some a, st := .sent }) }
      let left := x.lines.any fun y => decide (y.st = .queued)
      let mine := e.lines.filter fun y => y.va.toNat / 64 = l.va.toNat / 64
      let base := a / 64 * 64
      let low := mine.foldl (fun n y => min n (y.va.toNat % 64)) 63
      let first := mine.all fun y => decide (y.st = .queued)
      let t := flies { Flight.none with ls := if left then [x] else [], fly := if left then [] else [x] }
      exec (.accessSend c f e.id i) s = .next (if first = false then t else
        match e.op with
        | .gst | .gvst => asks e.info e.id l.va (base + low)
            (.write (mine.flatMap fun y => leBytes y.n (e.data.toNat / 2 ^ (8 * (y.va - e.ea).toNat)))) t
        | .atom op _ _ sz _ _ cmp src => asks e.info e.id l.va a (.atomic op (BitVec.ofNat 2 sz) cmp src) t
        | _ => asks e.info e.id l.va base (.read 64) t)) ∧
    -- the value of a `gld` waits at its register
    (∀ (g : FileNo) (t : Ty) (d a : Nat) (l : Line) (z : VarRes), e.op = .gld g t d → e.lines = [l] → z.id = e.id →
      s.flies c f { Flight.none with ls := [e], var := [z] } → e.wait = 0 → l.st = .queued → l.pa = none →
      translateF s c f { r := true } l.va.toNat = .ok a → laneUp s c a = true → accessCheck s r.part a false = none →
      8 * l.n = t.width →
      exec (.accessSend c f e.id 0) s = .next (asks e.info e.id l.va (a / 64 * 64) (.read 64) <| flies { Flight.none with
        fly := [{ e with lines := [bound a l] }]
        var := [{ z with val := some ((dstW t (BitVec.ofNat t.width (gRead s a l.n))).setWidth 2048, 0,
          if poisoned s a then some a else none) }] })) ∧
    -- `drain`, `gpf` and `putf`
    (s.flies c f { Flight.none with ls := [e] } → (e.op.isDrain = true ∨ e.op = .gpf ∧ e.wait = 0 ∧
        ∃ x, lookup s c r.part r.asid e.ea.toNat .ls = .ok x) →
      exec (.accessSend c f e.id 0) s = .next (flies Flight.none)) ∧
    (∀ (k : CopyEnt) (adr val : Word) (a : Nat), k.op = .putf adr val → s.flies c f { Flight.none with copyQ := [k] } → k.wait = 0 →
      translateF s c f { w := true } adr.toNat .copy = .ok a → laneUp s c a = true → accessCheck s r.part a true = none →
      clockStands s c = false →
      exec (.accessSend c f k.id 0) s = .next (asks k.info k.id adr a (.write (leBytes 8 val.toNat)) <| flies { Flight.none with
        copyA := [{ k with started := true, line := some ⟨adr, 8, some a, .sent, val.toNat, [], false⟩ }] })) ∧
    -- a walk
    (∀ (src : Stream) (va : Word), s.teasel.power = true →
      (∀ x, lookup s c r.part r.asid va.toNat src = .ok x → ∃ t, exec (.pageWalk c f src va) s = .next t ∧
        (t.cube c).tlb.first src = (x :: (q.tlb.first src).filter (· ≠ x)).take (tlbSize src) ∧
        (t.cube c).tlb.last = (x :: q.tlb.last.filter (· ≠ x)).take 2048 ∧
        (∀ o, o ≠ src → (t.cube c).tlb.first o = q.tlb.first o) ∧ (t.cube c).frames = q.frames ∧ t.mem = s.mem) ∧
      (∀ w, lookup s c r.part r.asid va.toNat src = .error w →
        (w.bad = false → exec (.pageWalk c f src va) s = .next s) ∧
        (w.bad = true → exec (.pageWalk c f src va) s = .next (logEvent s 0x52 c.val
          [w64 r.part, r.asid.setWidth 64, w64 w.level, w64 w.ent, w64 va.toNat])))) ∧
    -- a write is accepted, then performs
    (∀ (i : Nat) (l : Line) (a : Nat), s.flies c f { Flight.none with fly := [e] } → e.op = .gst ∨ e.op = .gvst → e.lines[i]? = some l →
      l.st = .sent → l.pa = some a → (∀ j y, j < i → e.lines[j]? = some y → y.st ≠ .sent) →
      exec (.writeAccepted c f e.id i) s = .next { flies { Flight.none with fly := [{ e with lines := e.lines.set i { l with st := .accepted } }] } with
        merge := s.merge ++ [⟨s.nextMid, a, leBytes l.n (e.data.toNat / 2 ^ (8 * (l.va - e.ea).toNat)), (s.pkg, c.val, f.val, .ls), laneOf a,
          some (c.val, f.val, e.id, i), none⟩]
        nextMid := s.nextMid + 1 }) ∧
    (∀ w : MergeW, s.teasel.power = true → s.merge = [w] → ∃ t, exec (.writePerforms w.mid) s = .next t ∧
      t.merge = [] ∧ t.hub = { s.hub with outbox := s.hub.outbox ++ w.reply.toList } ∧
      (∀ i, i < w.bytes.length → memByte t.mem (w.pa + i) = w.bytes.getD i 0) ∧
      (∀ p, p < w.pa ∨ w.pa + w.bytes.length ≤ p → memByte t.mem p = memByte s.mem p) ∧
      (w.owner = none → t.cubes = s.cubes ∧
        ∀ p, poisoned t p = (poisoned s p && !decide (w.pa % 64 = 0 ∧ w.bytes.length = 64 ∧ p / 64 = w.pa / 64))) ∧
      (∀ i l, w.owner = some (c.val, f.val, e.id, i) → r.fl = { Flight.none with fly := [e] } → e.op = .gst ∨ e.op = .gvst →
        e.lines[i]? = some l →
        let x := { e with lines := e.lines.set i { l with st := .performed } }
        (t.frame c f).fl = (if x.lines.all (·.st = .performed) then Flight.none else { Flight.none with fly := [x] }) ∧
        (t.frame c f).regs = r.regs ∧
        ∀ p, poisoned t p = (poisoned s p && !decide (x.wholeLine w.pa = true ∧ p / 64 = w.pa / 64)))) ∧
    -- an atomic
    (∀ op sco fe sz g d cmp src (l : Line) (a : Nat), s.flies c f { Flight.none with fly := [e] } → e.op = .atom op sco fe sz g d cmp src →
      e.lines = [l] → l.st = .sent → l.pa = some a →
      let m := gRead s a l.n
      let w := 8 * 2 ^ sz
      let sv := src.toNat % 2 ^ w
      (poisoned s a = true → ∃ t, exec (.atomicPerform c f e.id) s = .next t ∧ t.mem = s.mem ∧ t.merge = s.merge ∧
        (t.frame c f).fl = { Flight.none with fly := [{ e with
          lines := [{ l with st := .accepted, val := m, deps := mergeDeps s a l.n, bad := true }] }] }) ∧
      (poisoned s a = false → ∃ t new, exec (.atomicPerform c f e.id) s = .next t ∧ t.mem = s.mem ∧
        t.merge = s.merge ++ [⟨s.nextMid, a, leBytes l.n new, (s.pkg, c.val, f.val, .ls), laneOf a, none, none⟩] ∧
        (t.frame c f).fl = { Flight.none with fly := [{ e with
          lines := [{ l with st := .accepted, val := m, deps := s.nextMid :: mergeDeps s a l.n, bad := false }] }] } ∧
        (t.frame c f).regs = r.regs ∧
        new = match op with
        | .add => (m + sv) % 2 ^ w
        | .and => Nat.land m sv
        | .or => Nat.lor m sv
        | .xor => Nat.xor m sv
        | .swap => sv
        | .cas => if m = cmp.toNat % 2 ^ w then sv else m
        | .min => if (BitVec.ofNat w sv).slt (BitVec.ofNat w m) then sv else m
        | .max => if (BitVec.ofNat w m).slt (BitVec.ofNat w sv) then sv else m
        | .fadd => (faddBits (if sz = 3 then .f64 else .f32) .rn false m sv).1)) ∧
    -- a load or atomic performs
    (∀ tag, s.flies c f { Flight.none with fly := [e] } → e.op.isLoad = true ∨ e.op.isAtom = true →
      (∀ l ∈ e.lines, l.st = .accepted ∧ l.bad = false ∧ ∀ d ∈ l.deps, ∀ w ∈ s.merge, w.mid ≠ d) →
      r.taint.out = [(e.id, tag)] → tag < 31 → ∃ t, exec (.loadPerforms c f e.id) s = .next t ∧ (t.frame c f).fl = Flight.none ∧
        (t.frame c f).taint.out = [] ∧ (t.frame c f).regs = r.regs ∧ t.mem = s.mem ∧
        let cut := fun (x : Taint) => (x &&& ~~~(1#32 <<< tag)) &&& 0x7FFFFFFF
        (t.frame c f).taint.ct = cut r.taint.ct ∧ ∀ g n, (t.frame c f).taint.rd g n = cut (r.taint.rd g n))

/-- R30, R66, R78, R79, R104, R204, R217, R255, R318, R320, R325, R361 to R363: what is found after issue becomes a due
trap, remote and translation faults first; a trap that is due is taken; a request of another package is performed and
answered, or refused, answered and logged. That an overdue trap has AFTER set is log entry 48 (DEDUCED), the order of
causes at one boundary log entry 73; what an asynchronous interrupt does beyond being taken is log entry 29; other
packages are log entry 15. -/
def Obligations.FaultsFoundAfterIssue : Prop :=
  ∀ (s : State) (c : CubeId) (f : FrameId), s.teasel.power = true →
    let r := s.frame c f
    let flies := fun (x : Flight) => s.modFrame c f fun r => { r with fl := x }
    let clean := fun (va : Nat) (src : Stream) => ∀ w, lookup s c r.part r.asid va src = .error w → w.bad = false
    -- a local translation fault of the load/store queue, of the head of the copy queue
    (∀ (e : LsEnt) (l : Line) (k : Nat), r.fl = { Flight.none with ls := [e] } → r.taint.out = [] → e.lines = [l] → l.pa = none →
      e.op.isDrain = false → e.op.isGpf = false → translateF s c f e.op.need l.va.toNat = .error k → clean l.va.toNat .ls →
      exec (.queuedTranslationFault c f .ls) s = .next (flies { Flight.none with
        wdLs := [e], traps := [⟨10, e.info.slot, false, true, e.info.pc, e.info.bits, l.va, w64 (k + (bnat e.op.writes) * 128)⟩] })) ∧
    (∀ (e : CopyEnt) adr val k, e.op = .putf adr val → r.fl = { Flight.none with copyQ := [e] } → e.wait = 0 →
      bits adr.toNat 48 16 < 0xFF → translateF s c f { w := true } adr.toNat .copy = .error k → k ≠ placeRefused → clean adr.toNat .copy →
      exec (.queuedTranslationFault c f .copy) s = .next (flies { Flight.none with
        copyQ := [e], traps := [⟨10, e.info.slot, false, true, e.info.pc, e.info.bits, w64 adr.toNat, w64 (k + 16 + 128)⟩] })) ∧
    -- a remote access fault: of the load/store queue, of a global operand of a cube operation
    (∀ (e : LsEnt) (l : Line) (a k : Nat), r.fl = { Flight.none with ls := [e] } → r.taint.out = [] → e.lines = [l] → l.pa = none →
      l.st = .queued → e.op.isDrain = false → e.op.isGpf = false → translateF s c f e.op.need l.va.toNat = .ok a → paPkg a ≠ s.pkg →
      targetCheck s (fpidOf s r.part) a e.op.need.w = some k → ∃ t, exec (.remoteAccessFault c f e.id) s = .next t ∧
        (t.frame c f).fl = { Flight.none with
          traps := [⟨11, e.info.slot, true, true, e.info.pc, e.info.bits, l.va, w64 (paPkg a + k * 1024)⟩] } ∧
        (t.frame c f).regs = r.regs ∧ t.mem = s.mem ∧ t.teasel.logSeq = s.teasel.logSeq + 1) ∧
    (∀ (e : CubeEnt) (l : Line) (a k : Nat), r.fl = { Flight.none with cubeA := [e] } → e.glob = [l] → l.st = .queued →
      translateF s c f { r := true } l.va.toNat .cube = .ok a → paPkg a ≠ s.pkg → targetCheck s (fpidOf s r.part) a false = some k →
      ∃ t, exec (.remoteAccessFault c f e.id) s = .next t ∧ (t.frame c f).fl = { Flight.none with
          traps := [⟨11, e.info.slot, true, true, e.info.pc, e.info.bits, l.va, w64 (paPkg a + k * 1024)⟩] } ∧
        (t.frame c f).regs = r.regs ∧ t.mem = s.mem ∧ t.teasel.logSeq = s.teasel.logSeq + 1) ∧
    -- the first condition due at the boundary that the frame has reached is taken, once what has arrived has landed
    (let u := landDue (s.modFrame c f landArrived) c f
     let v := u.frame c f
     (∀ t, boundaryFirst s c f = some t → (s.cube c).camp.trip = none → (s.cube c).fab.coreOff = false →
      let enters := fun (i : Instr) => exec i s = .next (enterTrap (s.modFrame c f fun r => dropDue r t) c f t)
      (afterTrap s c f = some t → enters (.trapEntry c f)) ∧
      (t ∈ r.fl.traps → t.cause = 12 ∨ t.cause = 13 → enters (.poisonConsumed c f)) ∧
      (∀ d ∈ r.fl.due, d.info = t → enters (.poisonConsumed c f)) ∧
      (t.cause = 8 → enters (.semaphoreCeilingTrap c f)) ∧
      (overdue s c f = some t → enters (.drainPointOverdue c f))) ∧
     (v.issue.halted = true → boundaryFirst s c f = afterTrap u c f) ∧
     (∀ x b, v.issue.halted = false → fetchAt u c f = .ok x → bundleIn v.issue.pc x.b x.next = .ok b →
      -- the causes of the bundle's own issue come first
      (∀ t, judge u c f b slotMeaning = .trap t → boundaryFirst s c f = some t) ∧
      (∀ l, judge u c f b slotMeaning = .go l → v.fl.traps = [] →
        (v.issue.preempt = none → v.fl.due = [] → v.away = false → v.sync.refusal = none → boundaryFirst s c f = none) ∧
        (b.dp = true → v.priv.lvl = false → v.fl.land = [] → drained u c f = true →
          (∀ d, v.fl.due = [d] → boundaryFirst s c f = some d.info) ∧
          (∀ a w, v.fl.due = [] → v.away = false → v.sync.refusal = some (a, w) →
            ∃ t, boundaryFirst s c f = some t ∧ t.cause = 8 ∧ t.t2 = a ∧ t.t3 = w))))) ∧
    (∀ t w, r.fl.traps = [t, w] → t.cause ≠ 11 → w.cause = 11 → afterTrap s c f = some w) ∧
    (∀ t w, r.fl.traps = [t, w] → t.cause = 12 → w.cause = 10 → afterTrap s c f = some w) ∧
    (∀ n g, r.issue.preempt = some (n, g) → r.priv.lvl = false → r.fl.traps = [] →
      afterTrap s c f = if n < (s.cube c).ctl.dplimit.toNat then none
        else some ⟨9, 15, false, true, r.issue.pc, 0, (s.cube c).ctl.dplimit.setWidth 64, w64 g⟩) ∧
    (r.issue.irq = true → r.priv.lvl = false → atDrainPoint s c f = true → drainTrap s c f = none →
      exec (.asyncInterrupt c f) s = .next (s.modFrame c f fun r => { r with issue := { r.issue with irq := false } })) ∧
    -- requests of other packages
    (∀ q : RemoteReq, (partOfFpid s q.fpid).isSome = true → let a := s.pkg * 2 ^ 42 + q.local_.toNat
      let reply := fun (m : RemoteKind) => (⟨s.pkg, cubeOf (paCube a), q.fpid, q.srcPkg, q.local_, q.lane, q.tag, m⟩ : RemoteReq)
      let word := fun (b : List Byte) => (⟨s.nextMid, a, b, (q.srcPkg, q.srcCube.val, 2, .ls), q.lane.toNat, none,
        some (reply (.writeDone q.local_))⟩ : MergeW)
      (∀ n, q.kind = .read n → targetCheck s q.fpid a false = none → exec (.remoteRequestArrive q) s = .next { s with
        hub := { s.hub with outbox := s.hub.outbox ++ [reply (.readData q.local_ (mergedBytes s a (min n (64 - a % 64))) (poisoned s a))] } }) ∧
      (∀ b, q.kind = .write b → targetCheck s q.fpid a true = none → exec (.remoteRequestArrive q) s = .next { s with
        merge := s.merge ++ [word (b.take (64 - a % 64))], nextMid := s.nextMid + 1 }) ∧
      (∀ op sz cmp src, q.kind = .atomic op sz cmp src → targetCheck s q.fpid a true = none → poisoned s a = false →
        let n := 2 ^ sz.toNat
        exec (.remoteRequestArrive q) s = .next { s with
          hub := { s.hub with outbox := s.hub.outbox ++ [reply (.readData q.local_ (mergedBytes s a n) false)] }
          merge := s.merge ++ [word (leBytes n (atomValue op sz.toNat (gRead s a n) cmp.toNat src.toNat))], nextMid := s.nextMid + 1 }) ∧
      (∀ b k, q.kind = .write b → targetCheck s q.fpid a true = some k → ∃ t, exec (.remoteRequestArrive q) s = .next t ∧
        t.mem = s.mem ∧ t.merge = s.merge ∧ t.cubes = s.cubes ∧ t.teasel.logSeq = s.teasel.logSeq + 1 ∧
        t.hub.outbox = s.hub.outbox ++ [reply (.refused (BitVec.ofNat 42 (paLocal a)) k)]) ∧
      (∀ launch srank rank sem n, q.kind = .sems launch srank rank sem n →
        remoteMember s q.fpid launch srank rank = some (.frame c f) →
        r.task.isSome = true → r.away = false → r.sync.semc[sem.toFin].toNat + n.toNat ≤ r.sync.semx[sem.toFin].toNat →
        exec (.remoteRequestArrive q) s = .next (s.modFrame c f fun r => { r with sync := { r.sync with
          semc := r.sync.semc.set sem.toFin (r.sync.semc[sem.toFin] + n) } }))) ∧
    -- a request of no fabric partition of this package
    (∀ q : RemoteReq, partOfFpid s q.fpid = none →
      (∃ l n w v, q.kind = .spanHold l n w v) ∨ (∃ l i p a b, q.kind = .spanArrive l i p a b) ∨ (∃ k t l, q.kind = .msgGrant k t l) ∨
        (∃ k t l x, q.kind = .msgData k t l x) →
      ∃ t, exec (.remoteRequestArrive q) s = .next t ∧ t.mem = s.mem ∧ t.merge = s.merge ∧ t.cubes = s.cubes ∧
        t.hub.recs = s.hub.recs ∧ t.teasel.logSeq = s.teasel.logSeq + 1 ∧
        t.hub.outbox = s.hub.outbox ++ [⟨s.pkg, 0, q.fpid, q.srcPkg, q.local_, q.lane, q.tag, .refused 0 1⟩]) ∧
    -- a request of this package that comes back refused
    (∀ (q : RemoteReq) (g : ReqTag) (l : BitVec 42) (k : Nat), q.kind = .refused l k → q.tag = some g →
      let mine := fun (t : Task) => t.part = g.part && t.launch = g.launch && t.gang = g.gang && t.rank = g.rank
      r.task.any mine = true → (∀ d h, (s.frame d h).task.any mine = true → d = c ∧ h = f) → (r.away = false ∨ g.lvl = true) →
      ∃ t, exec (.remoteRequestArrive q) s = .next t ∧ (t.frame c f).fl.traps = r.fl.traps ++
          [⟨11, g.slot, true, true, g.pc, g.bits, g.va, w64 (paPkg (q.srcPkg * 2 ^ 42 + l.toNat) + k * 1024)⟩] ∧
        (∀ e ∈ (t.frame c f).fl.ls ++ (t.frame c f).fl.fly, e.id ≠ g.op) ∧ (t.frame c f).regs = r.regs ∧ t.mem = s.mem ∧
        t.teasel.logSeq = s.teasel.logSeq + 1)

/-- R84 to R87, R99 to R101, R227 to R230, R243 to R247, R249 to R256, R264 to R268, R270, R374 to R376, R388: engine
operations start, land and complete; a done flag named by SIG is set at completion. A poisoned or parked cube operation
ends without landing, its trap due; one whose global operand does not translate leaves its rest to resume, a `cmmz` as a
`cmma` (DEDUCED, log 34). A copy reads a source word in each event (the model's choice, log 11). The resume record of a
cmmz that becomes a cmma is log entry 34 (DEDUCED); the grain at which copies, commands and message lines read and write
is log entry 11. -/
def Obligations.EngineOperationsRun : Prop :=
  ∀ (s : State) (c : CubeId) (f : FrameId), s.teasel.power = true → (s.frame c f).away = false →
    let r := s.frame c f
    let q := s.cube c
    let flies := fun (x : Flight) => s.modFrame c f fun r => { r with fl := x }
    let flag := fun (sig : BitVec 6) (t : State) => (t.frame c f).sync.df = if sig.toNat < 8 then r.sync.df ||| (1#8 <<< sig.toNat) else r.sync.df
    let runs := q.camp.trip = none ∧ q.fab.coreOff = false
    (∀ (e : CubeEnt) zero acc a b h m sig, e.op = .mma zero acc a b h m sig → runs →
      let one := { Flight.none with cubeA := [e] }
      let whole := ∀ l ∈ e.glob, l.st ≠ .queued ∧ ∀ d ∈ l.deps, ∀ w ∈ s.merge, w.mid ≠ d
      -- start, from the queue or as a resumed operation
      (r.fl = { Flight.none with cubeQ := [e] } ∨ r.fl = { Flight.none with resume := some e } → (∀ g, (s.frame c g).fl.cubeA = []) →
        ((maskN m < 5 ∨ ∃ k till, r.leave = some (k, till) ∧ maskN m ≤ k ∧ s.now < till) → railsReady s c m e.fid = true →
          ∃ t, exec (.cubeOpStart c f) s = .next t ∧ (t.frame c f).fl = { Flight.none with
            cubeA := [{ e with started := some s.now, barred := parkedIn q m
                               glob := e.globals.map fun x => ⟨w64 x.1, 64, none, .queued, 0, [], false⟩ }] } ∧
            (t.frame c f).regs = r.regs ∧ (t.cube c).acc = q.acc) ∧
        (5 ≤ maskN m → r.leave = none → q.camp.reqs = [] → ∃ t, exec (.cubeOpStart c f) s = .next t ∧ (t.frame c f).fl = r.fl ∧
          (t.cube c).camp.reqs = [⟨f.val, maskN m, 100, s.now⟩])) ∧
      -- a line of a global operand is read
      (∀ l pa, r.fl = one → r.task.isSome = true → e.glob = [l] → l.st = .queued → e.wait = 0 → paPkg pa = s.pkg →
        translateF s c f { r := true } l.va.toNat .cube = .ok pa → laneUp s c pa = true → accessCheck s r.part pa false = none →
        exec (.accessSend c f e.id 0) s = .next (flies { Flight.none with cubeA := [{ e with glob := [{ l with
          pa := some pa, st := .accepted, val := gRead s pa l.n, deps := mergeDeps s pa l.n, bad := poisoned s pa }] }] })) ∧
      -- it lands, or ends without landing
      (r.fl = one → whole → operandPoison s c f e = none → e.barred = none → e.bufs = [] → sig.toNat < 8 ∨ sig = 63 →
        ∃ t, exec (.cubeOpLand c f e.id) s = .next t ∧ (t.frame c f).fl = Flight.none ∧ flag sig t ∧ (t.frame c f).regs = r.regs ∧
          (t.cube c).acc = (tileApply s c f e none).1.acc ∧ t.mem = s.mem ∧ (t.cube c).face = q.face) ∧
      (∀ line, r.fl = one → whole → operandPoison s c f e = some line → e.barred = none → e.bufs = [] →
        ∃ t, exec (.cubeOpLand c f e.id) s = .next t ∧ (t.cube c).acc = q.acc ∧ (t.frame c f).sync = r.sync ∧
          (t.frame c f).fl = { Flight.none with due := [⟨poisonTrap e.info line, none, sig.toNat⟩] }) ∧
      (∀ z, r.fl = one → e.barred = some z → e.bufs = [] → ∃ t, exec (.cubeOpLand c f e.id) s = .next t ∧
        (t.cube c).acc = q.acc ∧ (t.frame c f).sync = r.sync ∧ (t.frame c f).fl = { Flight.none with
          due := [⟨⟨13, e.info.slot, false, true, e.info.pc, e.info.bits, w64 z, 0⟩, none, sig.toNat⟩] }) ∧
      (∀ l c0 va k, r.fl = one → e.glob = [l] → operandFailure s c f e = some (c0, va, k) → operandPoison s c f e = none →
        e.barred = none → translateF s c f { r := true } l.va.toNat .cube = .error k →
        ∃ t, exec (.cubeOperandFault c f e.id) s = .next t ∧ (t.frame c f).fl = { Flight.none with
          resume := some { e with c0 := c0, started := none, failVa := w64 va, glob := [], op := .mma false acc a b h m sig }
          traps := [⟨10, e.info.slot, false, true, e.info.pc, e.info.bits, w64 va, w64 (k + 32)⟩] } ∧
          (t.frame c f).regs = r.regs ∧ (t.cube c).acc = (tileApply s c f e (some c0)).1.acc)) ∧
    -- accumulator moves
    (∀ (e : CubeEnt) acc row cg d, e.op = .rd .z64 acc row cg d → runs →
      r.fl = { Flight.none with cubeQ := [e], var := [⟨e.id, e.info, 3, d, none, none⟩] } → ∃ v, exec (.cubeOpStart c f) s =
        .next (flies { Flight.none with var := [⟨e.id, e.info, 3, d, some (v, 0, none), none⟩] }) ∧
        ∀ i, i < 32 → v.extractLsb' (64 * i) 64 = BitVec.ofNat 64 (accGet q 2 (accOf r acc) row (32 * cg + i))) ∧
    (∀ (e : CubeEnt) acc row cg (v : VReg), e.op = .wr .z16 acc row cg v → runs → r.fl = { Flight.none with cubeQ := [e] } →
      exec (.cubeOpStart c f) s = .next ((s.modCube c fun q => statusSet q (accOf r acc) (v.setWidth 16 &&& 0xF7)).modFrame c f
        fun r => { r with fl := Flight.none })) ∧
    -- copies
    (∀ (e : CopyEnt) rc, e.op = .copy rc →
      let x := copyRec rc
      (r.fl = { Flight.none with copyQ := [e] } → runs → e.wait = 0 → firstFailure s c f e = none →
        exec (.copyStart c f) s = .next (flies { Flight.none with copyA := [{ e with started := true }] })) ∧
      (∀ n w p, r.fl = { Flight.none with copyA := [e] } → r.task.isSome = true → x.srcWords[n]? = some w → e.prog.has w = false →
        e.olds = [] → place s c f { r := true } (4 * w) = .ok p → (∀ a, p = .glob a → laneUp s c a = true) →
        let v := match p with | .face k => leVal (faceBytes q k 4) | .glob a => gRead s a 4
        let t := { flies { Flight.none with copyA := [{ e with
          prog := { e.prog with got := e.prog.got ++ [(w, v, placePoison s c p)] } }] } with fresh := s.fresh + 1 }
        exec (.accessSend c f e.id n) s = .next (match p with
          | .face k => wakeLayers t c [k / 2 ^ 28]
          | .glob a => if paPkg a = s.pkg ∨ (∃ y ∈ e.prog.got, y.1 / 16 = w / 16) then t
            else t.modHub fun h => { h with outbox := h.outbox ++ [⟨s.pkg, c, fpidOf s r.part, paPkg a, BitVec.ofNat 42 (paLocal (a / 64 * 64)),
              BitVec.ofNat 3 (laneOf a), reqTag r e.info e.id (w64 (4 * w)), .read 64⟩] })) ∧
      (∀ va vb wa wb, r.fl = { Flight.none with copyA := [e] } → e.srcB = [] → e.dstB = [] → e.bar = none → e.olds = [] →
        e.prog = ⟨[], [], []⟩ → e.sig.toNat < 8 ∨ e.sig = 63 →
        x = ⟨.s8, .s8, 0, .rn, false, false, 0, va, vb, 0, [1, 1, 1, 1, 1, 1], [0, 0, 0, 0, 0, 0], [0, 0, 0, 0, 0, 0]⟩ →
        bits va 48 16 < 0xFF → bits vb 48 16 < 0xFF → va < 2 ^ 64 → vb < 2 ^ 64 → paPkg wa = s.pkg → paPkg wb = s.pkg →
        translateF s c f { r := true } (va / 4 * 4) .copy = .ok wa → translateF s c f { w := true } (vb / 4 * 4) .copy = .ok wb →
        poisoned s wa = false →
        ∃ t, exec (.copyComplete c f e.id) s = .next t ∧ (t.frame c f).fl = Flight.none ∧ flag e.sig t ∧ (t.frame c f).regs = r.regs ∧
          mergedByte t (wb + vb % 4) = mergedByte s (wa + va % 4) ∧ (∀ p, p ≠ wb + vb % 4 → mergedByte t p = mergedByte s p) ∧
          leVal (faceBytes (t.cube c) (r.key ((e.recA.setWidth 32).toNat + 0xE0)) 8) = 0)) ∧
    -- flags and near-memory commands
    (∀ (e : CopyEnt) adr val l, e.op = .putf adr val → e.line = some l → l.st = .performed →
      r.fl = { Flight.none with copyA := [e] } → e.sig.toNat < 8 ∨ e.sig = 63 →
      ∃ t, exec (.putfComplete c f e.id) s = .next t ∧ (t.frame c f).fl = Flight.none ∧ flag e.sig t ∧ (t.frame c f).regs = r.regs ∧ t.mem = s.mem) ∧
    (∀ (e : CopyEnt) rc va pa, e.op = .nmc rc false → r.fl = { Flight.none with copyA := [e] } → e.nm = NmProg.zero →
      e.sig.toNat < 8 ∨ e.sig = 63 →
      -- SCALE of one FP32 element: x becomes the rounded product of α and x
      recW rc 0 % 2 ^ 15 = 1 + 1 * 2 ^ 8 → recW rc 1 = va → recW rc 3 = 1 →
      translateF s c f { r := true, w := true } va .nm = .ok pa → paPkg pa = s.pkg → poisoned s pa = false →
      let y := fround .f32 .rn false ((fval .f64 (recW rc 4)).mul (fval .f32 (gRead s pa 4)))
      ∃ t, exec (.nmcComplete c f e.id) s = .next t ∧ (t.frame c f).fl = Flight.none ∧ flag e.sig t ∧ (t.frame c f).regs = r.regs ∧
        gRead t pa 4 = y.1 % 2 ^ 32 ∧ (∀ p, p < pa ∨ pa + 4 ≤ p → mergedByte t p = mergedByte s p) ∧
        leVal (faceBytes (t.cube c) (r.key ((e.recA.setWidth 32).toNat + 0x30)) 8) = y.2.toNat * 2 ^ 22) ∧
    (∀ (e : CopyEnt) rc, e.op = .nmc rc false → r.fl = { Flight.none with copyA := [e] } → e.nm.away = true → 0 < recW rc 3 →
      e.sig.toNat < 8 ∨ e.sig = 63 →
      ∃ t, exec (.nmcComplete c f e.id) s = .next t ∧ (t.frame c f).fl = Flight.none ∧ flag e.sig t ∧ t.mem = s.mem ∧ t.merge = s.merge ∧
        leVal (faceBytes (t.cube c) (r.key ((e.recA.setWidth 32).toNat + 0x30)) 8) = 2)

/-- R74, R75, R217, R255, R257 to R262, R328, R361, R363, R367, R368: an `msend` leaves the copy queue; its header is
refused for a buffer that is undeclared, draining, lost, full of fills or too small; else the fill begins and a request
is open at the receiver's cube, `ORPHTO` taken as it stands. Its first `UNSCHEDMAX` bytes, as that stood at issue, need
no grant. A message without data begins and completes its fill at once; one for another package leaves as a header with
its prefix, over a port of its cube; a closed request opens again at the offset saved. No two active messages of a task
share a MSGID. The names of records and messages between packages are the choice of log entry 33, and the text of a
request to another package that of log entry 15. -/
def Obligations.HeadersAreAcceptedOrRefused : Prop :=
  ∀ (s : State) (c : CubeId) (f : FrameId) (x : Task), s.teasel.power = true → (s.frame c f).task = some x →
    (s.frame c f).issue.swapped = false →
    -- a request to package n leaves cube `at_`, or waits for a port there
    let answers := fun (t : State) (at_ : CubeId) (n : Nat) (m : RemoteKind) => ∃ q : RemoteReq,
      q.kind = m ∧ q.srcPkg = s.pkg ∧ q.srcCube = at_ ∧ q.dstPkg = n ∧
      (portUp s at_ n 0 = true → t.hub.outbox = s.hub.outbox ++ [q] ∧ t.hub.held = s.hub.held) ∧
      (portUp s at_ n 0 = false → t.hub.outbox = s.hub.outbox ∧ t.hub.held = s.hub.held ++ [q])
    let opens := fun (t : State) (rc : CubeId) (q : YReq) => (t.modCube rc fun u => { u with reqs := u.reqs ++ [q], nextReq := u.nextReq + 1 })
    let name := fun (y : Task) => (y.part, y.launch, y.gang, y.rank)
    let fills := fun (r : Frame) (b : Nat) (y : Buf) =>
      r.setBuf b (some { y with st := .filling, fill := if y.st = .filling then y.fill + 1 else 1 })
    let bars := fun (y : Buf) (d n : Nat) =>
      y.st = .draining ∨ y.st = .lost ∨ (y.st = .filling ∧ 255 ≤ y.fill) ∨ (y.nl + 1) * y.len < d + n
    let room := fun (rc : CubeId) => ((s.cube rc).reqs.filter fun q => !q.closed).length < 256
    -- an `msend` leaves its queue
    (∀ (k : CopyEnt) rc cls msgid, k.op = .msend rc cls msgid → (s.frame c f).fl = { Flight.none with copyQ := [k] } → k.wait = 0 →
      (s.frame c f).priv.lvl = false → clockStands s c = false →
      firstFailure s c f k = none → msgRefused s c f rc = none → ∀ pa,
      (msgToBuffer rc = true ∧ pa = none ∨ msgToBuffer rc = false ∧ ∃ a, pa = some a ∧
        translateF s c f { w := true } (recW rc 0) .msg = .ok a) →
      exec (.accessSend c f k.id 0) s = .next (s.modFrame c f fun r => { r with fl := { Flight.none with
        msgs := [⟨msgid % 2 ^ 24, k.id, k.info, rc, k.recA.setWidth 32, k.sig, cls, 0, k.srcB, pa, none, 0, 0, none, false, k.olds, k.pre, none⟩] } })) ∧
    (∀ l k, l.length < 2 ^ 24 → l.contains (freeMsgid l k) = false ∧ (k < 2 ^ 24 → l.contains k = false → freeMsgid l k = k)) ∧
    (∀ (k : CopyEnt) (x y : MsgAct) rc cls msgid t, k.op = .msend rc cls msgid → (s.frame c f).fl.copyQ = [k] → (s.frame c f).fl.ls = [] →
      exec (.accessSend c f k.id 0) s = .next t → x ∈ (s.frame c f).fl.msgs → y ∈ (t.frame c f).fl.msgs → y.id = k.id →
      (∀ z ∈ (s.frame c f).fl.msgs, z.id ≠ k.id) → y.msgid ≠ x.msgid) ∧
    -- a task's header
    (∀ (m : MsgAct), (s.frame c f).fl.msgs = [m] → m.acc = none → m.ended = none → m.far = none →
      let key : MsgKey := ⟨x.part, x.launch, x.gang, x.rank, m.msgid⟩
      let n := msgLen m.rc
      let b := msgBuf m.rc
      let d := recW m.rc 0
      let all := List.range (ceilDiv n 64)
      let pre := ceilDiv (min n m.pre) 64
      let past := all.filter fun i => decide (pre ≤ i)
      let note := fun (t : State) (g : MsgAct → MsgAct) => setMsg t c f m.msgid g
      let accepted := fun (t : State) (rc : CubeId) (num : Nat) => note t fun m => { m with acc := some (rc.val, num), closed := false }
      let request := fun (rc : CubeId) (recv : Option (Nat × BufRef)) (rt : Option (Nat × Nat × Nat × Nat)) (a : Nat) (sig : BitVec 6) =>
        (⟨(s.cube rc).nextReq, s.pkg, c.val, key, m.cls, recv, rt, sig, a, n, all, past, List.range pre, [], [], s.now, s.now, 0, none,
          usCycles (s.cube rc).ctl.orphto, false⟩ : YReq)
      ∀ i ∈ [Instr.msgAccept (.task c f), .headerRetry c f m.msgid],
        (reqOf s s.pkg key = none → m.sent = 0 →
          (∀ rc rf, msgToBuffer m.rc = true → handleDest s c f (msgHandle m.rc) = .frame rc rf →
            ((s.frame rc rf).buf b = none → exec i s = .next (note s fun m => { m with ended := some 1 })) ∧
            ∀ y, (s.frame rc rf).buf b = some y →
              (bars y d n → exec i s = .next (note s fun m => { m with ended := some 1 })) ∧
              (¬ bars y d n → room rc → 0 < n → exec i s = .next (accepted (opens (s.modFrame rc rf fun r => fills r b y) rc
                (request rc (some (rf.val, (b, y.gen))) ((s.frame rc rf).task.map name) d (msgRsig m.rc))) rc (s.cube rc).nextReq)) ∧
              (¬ bars y d n → room rc → n = 0 → m.srcB = [] → y.st ≠ .filling → (c, f) ≠ (rc, rf) → (s.frame c f).away = false →
                (msgRsig m.rc).toNat < 8 → m.sig.toNat < 8 → ∃ t, exec i s = .next t ∧ t.mem = s.mem ∧ (t.frame c f).fl.msgs = [] ∧
                (t.frame rc rf).buf b = some { y with st := .full, fill := 0 } ∧
                (t.frame rc rf).sync.df = (s.frame rc rf).sync.df ||| (1#8 <<< (msgRsig m.rc).toNat) ∧
                (t.frame c f).sync.df = (s.frame c f).sync.df ||| (1#8 <<< m.sig.toNat))) ∧
          (∀ a, msgToBuffer m.rc = false → m.pa = some a → paPkg a = s.pkg → 0 < n → room (cubeOf (paCube a)) →
            let rc := cubeOf (paCube a)
            exec i s = .next (accepted (opens s rc (request rc none none a 63)) rc (s.cube rc).nextReq)) ∧
          (msgToBuffer m.rc = true → handleDest s c f (msgHandle m.rc) = .away →
            let h := msgHandle m.rc
            let pkg := spanPkg s (s.frame c f) (bits h 8 6)
            let head := (List.range pre).map fun i => farLine s c f m i
            portUp s c pkg 0 = true → msgLineRefused s c f m = none → (∀ j, j < pre → lineTurn s c f m j = true) →
            ∃ t, exec i s = .next t ∧ t.mem = s.mem ∧
              answers t c pkg (.msgHeader (wireKey s key) m.cls true (wireId s x.launch) (bits h 8 6) (bits h 0 2)
                (BitVec.ofNat 6 b) (msgRsig m.rc) d n 0 head) ∧
              (t.frame c f).fl.msgs = [{ m with far := some ⟨false, head, [], past, []⟩, srcB := if n ≤ 64 * pre then [] else m.srcB }])) ∧
        (∀ rc q, reqOf s s.pkg key = some (rc, q) → (s.cube rc).reqs = [q] → (s.cube rc).toks = [] → q.closed = true →
          recvHere s rc q = true → let rest := (List.range (ceilDiv q.len 64)).filter fun i => decide (m.sent / 64 ≤ i) || q.owed.contains i
          exec i s = .next (accepted (s.modCube rc fun u => { u with reqs := [{ q with
            closed := false, owed := rest, ungranted := rest, pref := [], moved := [], returned := [], accepted := s.now
            lastGrant := s.now, idle := 0, since := none }] }) rc q.num))) ∧
    -- the header of another package
    (∀ p sc fpid key cls tb (l : BitVec 42) launch srank rank (buf : BitVec 6) (rsig : BitVec 6) dst len head,
      reqOf s p key = none → 0 < len →
      let i := Instr.msgAccept (.remote p sc fpid key cls tb l launch srank rank buf rsig dst len 0 head)
      let all := (List.range (ceilDiv len 64)).filter fun j => decide (head.length ≤ j)
      let request := fun (rc : CubeId) (recv : Option (Nat × BufRef)) (rt : Option (Nat × Nat × Nat × Nat)) (a : Nat) (sig : BitVec 6) =>
        (⟨(s.cube rc).nextReq, p, sc.val, key, cls, recv, rt, sig, a, len, all, all, [], [], [], s.now, s.now, 0, none,
          usCycles (s.cube rc).ctl.orphto, false⟩ : YReq)
      (tb = false →
        let a := s.pkg * 2 ^ 42 + l.toNat
        let rc := cubeOf (paCube a)
        -- a prefix line comes with its own address, and is checked with the header
        ((∀ b ∈ a :: head.filterMap (·.pa), targetCheck s fpid b true = none) → room rc → ∃ t, exec i s = .next t ∧
          t.cubes = (opens s rc (request rc none none a 63)).cubes ∧ answers t rc p (.msgAnswer key true) ∧
          (head = [] → t.mem = s.mem ∧ t.merge = s.merge) ∧
          ∀ y b, head = [y] → y.pa = some b → let w := min 64 len
            (∀ j, j < w → mergedByte t (b + j) = y.data.getD j 0) ∧ ∀ j, j < b ∨ b + w ≤ j → mergedByte t j = mergedByte s j) ∧
        (∀ k, targetCheck s fpid a true = some k → ∃ t, exec i s = .next t ∧
          t.mem = s.mem ∧ t.cubes = s.cubes ∧ t.teasel.logSeq = s.teasel.logSeq + 1 ∧
          t.hub.outbox = s.hub.outbox ++ [⟨s.pkg, rc, fpid, p, l, 0, none, .refused (BitVec.ofNat 42 (paLocal a)) k⟩])) ∧
      (∀ rc rf, tb = true → head = [] → remoteMember s fpid launch srank rank = some (.frame rc rf) → (s.frame rc rf).away = false →
        ∀ y, (s.frame rc rf).buf buf.toNat = some y →
          (bars y dst len → ∃ t, exec i s = .next t ∧ t.mem = s.mem ∧ t.cubes = s.cubes ∧ answers t rc p (.msgAnswer key false)) ∧
          (¬ bars y dst len → room rc → ∃ t, exec i s = .next t ∧ t.mem = s.mem ∧
            t.cubes = (opens (s.modFrame rc rf fun r => fills r buf.toNat y) rc
              (request rc (some (rf.val, (buf.toNat, y.gen))) ((s.frame rc rf).task.map name) dst rsig)).cubes ∧
            answers t rc p (.msgAnswer key true))))

/-- R75, R76, R77, R259, R363, R367 to R369: Yarrow grants one token of GRANTQ bytes within GRANTMAX, the lower class
first, then an aged request, then the one with fewer bytes; a granted line is written, in global memory or in the
buffer, one of another package only where its target admits it; `TOKEXP` after its grant, as it stood then, a token
refuses its lines and they are asked for again. Lane order among granted lines is log entry 82, the grain of a line log
entry 11, other packages log entry 15. -/
def Obligations.TokensMoveMessageLines : Prop :=
  ∀ (s : State) (c : CubeId), s.teasel.power = true →
    let u := s.cube c
    let n := u.ctl.grantq / 64
    let token := fun (q : YReq) => (⟨u.nextReq, q.num, q.ungranted.take n, s.now, usCycles u.ctl.tokexp, false⟩ : Tok)
    -- open, for a global destination or for a declared buffer of a resident task
    let open_ := fun (q : YReq) => q.closed = false ∧ q.ungranted ≠ [] ∧ (q.recv = none ∨
      ∃ (fr : FrameId) (i : Nat) (y : Buf) (x : Task), q.recv = some (fr.val, (i, y.gen)) ∧ q.rtask = some (x.part, x.launch, x.gang, x.rank) ∧
        (s.frame c fr).task = some x ∧ (s.frame c fr).away = false ∧ (s.frame c fr).buf i = some y ∧ y.st ≠ .lost)
    let tells := fun (t : State) (n : Nat) (m : RemoteKind) => ∃ q : RemoteReq,
      q.kind = m ∧ q.srcPkg = s.pkg ∧ q.srcCube = c ∧ q.dstPkg = n ∧
      (portUp s c n 0 = true → t.hub.outbox = s.hub.outbox ++ [q] ∧ t.hub.held = s.hub.held) ∧
      (portUp s c n 0 = false → t.hub.outbox = s.hub.outbox ∧ t.hub.held = s.hub.held ++ [q])
    let live := (u.toks.filter fun t => !t.expired).length
    (∀ q, u.reqs = [q] → open_ q → live < u.ctl.grantmax → q.srcPkg = s.pkg → exec (.grantToken c) s = .next (s.modCube c fun u => { u with
      toks := u.toks ++ [token q], nextReq := u.nextReq + 1
      reqs := [{ q with ungranted := q.ungranted.drop n, lastGrant := s.now, idle := 0, since := some s.now }] })) ∧
    (∀ q, u.reqs = [q] → open_ q → live < u.ctl.grantmax → q.srcPkg ≠ s.pkg → ∃ t, exec (.grantToken c) s = .next t ∧
      (t.cube c).toks = u.toks ++ [token q] ∧ tells t q.srcPkg (.msgGrant q.key u.nextReq (q.ungranted.take n))) ∧
    (∀ q, u.reqs = [q] → u.ctl.grantmax ≤ live → exec (.grantToken c) s = .next s) ∧
    (∀ q p, u.reqs = [p, q] → open_ q → open_ p → live < u.ctl.grantmax →
      let old := fun (x : YReq) => x.lastGrant + usCycles 50 ≤ s.now
      q.cls.toNat < p.cls.toNat ∨ (q.cls = p.cls ∧ ((old q ∧ ¬ old p) ∨ (old q ∧ old p ∧ q.lastGrant < p.lastGrant) ∨
        (¬ old q ∧ ¬ old p ∧ q.bytesUngranted < p.bytesUngranted))) →
      ∃ t, exec (.grantToken c) s = .next t ∧ (t.cube c).toks = u.toks ++ [token q]) ∧
    -- a line
    (∀ q t line data, u.reqs = [q] → u.toks = [t] → t.req = q.num → t.expired = false → t.lines = [line] → q.owed = [line] →
      q.closed = false →
      (t.life ≤ s.now - t.granted → exec (.msgLineArrive c t.num line data) s = .next s) ∧
      (s.now - t.granted < t.life →
        let w := min 64 (q.len - 64 * line)
        let moved := fun (z : State) => (z.cube c).toks = [] ∧ ∃ y, (z.cube c).reqs = [y] ∧ y.num = q.num ∧ y.owed = [] ∧
          y.ungranted = q.ungranted ∧ y.returned = q.returned
        let fpid := fpidOf s ((cubePart s c.val).getD 0)
        (∀ a, q.srcPkg ≠ s.pkg → q.recv = none → data.pa = some a → targetCheck s fpid a true = none →
          ∃ z, exec (.msgLineArrive c t.num line data) s = .next z ∧ moved z ∧
            (∀ i, i < w → mergedByte z (a + i) = data.data.getD i 0) ∧
            (∀ p, p < a ∨ a + w ≤ p → mergedByte z p = mergedByte s p) ∧
            ∀ p, poisoned z p = if p / 64 = a / 64 then data.bad || (poisoned s p && !decide (a % 64 = 0 ∧ w = 64)) else poisoned s p) ∧
        (∀ a k, q.srcPkg ≠ s.pkg → q.recv = none → data.pa = some a → targetCheck s fpid a true = some k →
          ∃ z, exec (.msgLineArrive c t.num line data) s = .next z ∧ z.mem = s.mem ∧ z.merge = s.merge ∧ z.cubes = s.cubes ∧
            z.teasel.logSeq = s.teasel.logSeq + 1 ∧ z.hub.outbox = s.hub.outbox ++
              [⟨s.pkg, cubeOf (paCube a), fpid, q.srcPkg, 0, 0, none, .refused (BitVec.ofNat 42 (paLocal a)) k⟩]) ∧
        (∀ (c' : CubeId) (f' fr : FrameId) m k bi y x, q.srcPkg = s.pkg → findMsg s q.key = some (c', f', m) → m.olds = [] → m.srcB = [] →
          (s.frame c' f').fl.msgs = [m] → m.acc = some (c.val, q.num) → msgToBuffer m.rc = true → q.pref = [] → q.moved = [] →
          srcPlace s c' f' m line = .ok (.face k) →
          q.recv = some (fr.val, (bi, y.gen)) → q.rtask = some (x.part, x.launch, x.gang, x.rank) → (s.frame c fr).task = some x →
          (s.frame c fr).away = false → (s.frame c fr).buf bi = some y → y.st ≠ .lost → 0 < y.len →
          let key := (bufKey x y (q.dst + 64 * line)).1
          c' ≠ c ∨ k + 64 ≤ key ∨ key + 64 ≤ k → ∃ z, exec (.msgLineArrive c t.num line data) s = .next z ∧ moved z ∧ z.mem = s.mem ∧
            (∀ i, i < w → faceByte (z.cube c) (key + i) = faceByte (s.cube c') (k + i)) ∧
            ∀ p, p < key ∨ key + w ≤ p → faceByte (z.cube c) p = faceByte u p))) ∧
    -- expiry and re-request
    (∀ q t, u.reqs = [q] → u.toks = [t] → t.req = q.num → t.expired = false →
      (t.life ≤ s.now - t.granted → ∃ z, exec (.tokenExpire c t.num) s = .next z ∧ z.mem = s.mem ∧
        (z.cube c).toks = [{ t with expired := true }] ∧
        (∃ y, (z.cube c).reqs = [y] ∧ y.returned = q.returned ++ t.lines ∧ y.owed = q.owed ∧ y.ungranted = q.ungranted) ∧
        (q.srcPkg ≠ s.pkg → tells z q.srcPkg (.msgExpire q.key t.num t.lines))) ∧
      (s.now - t.granted < t.life → exec (.tokenExpire c t.num) s = .next s)) ∧
    (∀ q, u.reqs = [q] → u.toks = [] → q.returned ≠ [] → q.closed = false →
      exec (.reRequest c q.num) s = .next (s.modCube c fun u => { u with
        reqs := [{ q with ungranted := q.ungranted ++ q.returned, returned := [], idle := 0, since := none }] }))

/-- R74 to R76, R100, R259, R261, R263, R362, R369: a fill that has performed completes its buffer and signals RSIG; one
whose buffer was lost ends refused, without a signal; a message that has ended writes its STATUS and signals; a request
whose orphan timer reaches ORPHTO is an orphan, its missing lines poisoned, its sender told. The timer of a request
whose receiver is away stands by log entry 36. -/
def Obligations.MessagesEnd : Prop :=
  ∀ (s : State) (c : CubeId) (f : FrameId), s.teasel.power = true → (s.frame c f).away = false →
    let r := s.frame c f
    let u := s.cube c
    let sends := fun (t : State) (n : Nat) (m : RemoteKind) => ∃ q : RemoteReq,
      q.kind = m ∧ q.srcPkg = s.pkg ∧ q.srcCube = c ∧ q.dstPkg = n ∧
      (portUp s c n 0 = true → t.hub.outbox = s.hub.outbox ++ [q] ∧ t.hub.held = s.hub.held) ∧
      (portUp s c n 0 = false → t.hub.outbox = s.hub.outbox ∧ t.hub.held = s.hub.held ++ [q])
    (∀ q i y x, u.reqs = [q] → u.toks = [] → q.closed = false → q.recv = some (f.val, (i, y.gen)) → r.task = some x →
      q.rtask = some (x.part, x.launch, x.gang, x.rank) → r.buf i = some y →
      let tells := fun (t : State) (code bytes : Nat) =>
        (q.srcPkg ≠ s.pkg → sends t q.srcPkg (.msgEnd q.key code bytes)) ∧
        (∀ c' f' m, q.srcPkg = s.pkg → findMsg s q.key = some (c', f', m) → m.acc = some (c.val, q.num) →
          ∃ m' ∈ (t.frame c' f').fl.msgs, m' = { m with ended := some code, perf := bytes })
      (q.owed = [] → y.st = .filling → y.fill ≤ 1 → q.rsig.toNat < 8 → ∃ t, exec (.msgFillComplete c q.num) s = .next t ∧
        t.mem = s.mem ∧ (t.cube c).reqs = [] ∧ (t.frame c f).buf i = some { y with st := .full, fill := 0 } ∧
        (t.frame c f).sync.df = r.sync.df ||| (1#8 <<< q.rsig.toNat) ∧ (t.frame c f).regs = r.regs ∧ tells t 0 q.len) ∧
      (q.owed ≠ [] → y.st ≠ .lost → exec (.msgFillComplete c q.num) s = .next s) ∧
      (y.st = .lost → ∃ t, exec (.msgFillComplete c q.num) s = .next t ∧ t.mem = s.mem ∧ (t.cube c).reqs = [] ∧
        (t.frame c f).sync = r.sync ∧ tells t 1 q.performed)) ∧
    (∀ m k, r.fl.msgs = [m] → m.ended = some k → m.acc = none → m.srcB = [] → m.sig.toNat < 8 ∨ m.sig = 63 →
      let key := r.key (m.recA.toNat + 0x18)
      ∃ t, exec (.msgComplete c f m.msgid) s = .next t ∧ t.mem = s.mem ∧
        w64 (leVal (faceBytes (t.cube c) key 8)) = w64 (m.perf * 2 ^ 32 + m.msgid % 2 ^ 24 * 2 ^ 8 + k) ∧
        (∀ p, p < key ∨ key + 8 ≤ p → faceByte (t.cube c) p = faceByte u p) ∧ (t.frame c f).regs = r.regs ∧
        (t.frame c f).fl = { r.fl with msgs := [] } ∧
        (t.frame c f).sync.df = if m.sig.toNat < 8 then r.sync.df ||| (1#8 <<< m.sig.toNat) else r.sync.df) ∧
    (∀ q line a, u.reqs = [q] → u.toks = [] → q.closed = false → q.recv = none → q.owed = [line] → q.returned = [line] →
      0 < q.len → globalDst s c q line = .ok a →
      let run := q.idle + (match q.since with | some t => s.now - t | none => 0)
      (q.orphto ≤ run → q.srcPkg ≠ s.pkg → ∃ t, exec (.orphan c q.num) s = .next t ∧ t.mem = s.mem ∧
        (t.cube c).reqs = [] ∧ t.teasel.logSeq = s.teasel.logSeq + 1 ∧
        sends t q.srcPkg (.msgEnd q.key 2 (q.len - min 64 (q.len - 64 * line))) ∧
        ∀ p, poisoned t p = (poisoned s p || decide (p / 64 = a / 64))) ∧
      (∀ m, q.orphto ≤ run → q.srcPkg = s.pkg → findMsg s q.key = some (c, f, m) → r.fl.msgs = [m] → m.acc = some (c.val, q.num) →
        ∃ t, exec (.orphan c q.num) s = .next t ∧ t.mem = s.mem ∧ (t.cube c).reqs = [] ∧ t.teasel.logSeq = s.teasel.logSeq + 2 ∧
          (t.frame c f).fl.msgs = [{ m with ended := some 2, perf := q.len - min 64 (q.len - 64 * line) }] ∧
          ∀ p, poisoned t p = (poisoned s p || decide (p / 64 = a / 64))) ∧
      (run < q.orphto → exec (.orphan c q.num) s = .next s))

/-- R28, R31, R154, R401: after 1 ms a switch falls due; at a drain point, with a switch due or a stall of 512 cycles,
the core turns to a resident that is ready; DPLIMIT bundles later the frame is saved with REASON 2, its leave released,
and the core turns all the same. While the other resident is not ready, or the debugger halts the frame, the core stays.
That a core leaves a frame that cannot issue is log entry 45. -/
def Obligations.CoreTurnsToTheOtherResident : Prop :=
  ∀ (s : State) (c : CubeId), s.teasel.power = true →
    let q := s.cube c
    let f := q.running
    let r := q.frame f
    let other := ready slotMeaning s c (1 - f)
    let slice := fun (n : Option Nat) (r : Frame) => { r with issue := { r.issue with slice := n } }
    let turned := ((s.modFrame c f (slice none)).modCube c fun q => { q with running := 1 - f, runSince := s.now, stallSince := none }).modFrame
      c (1 - f) (slice none)
    (r.task.isSome = true → r.issue.slice = none →
      (q.runSince + usCycles 1000 ≤ s.now → exec (.timeSliceExpiry c) s = .next (s.modFrame c f (slice (some 0)))) ∧
      (q.runSince ≤ s.now → s.now < q.runSince + usCycles 1000 → exec (.timeSliceExpiry c) s = .next s)) ∧
    (other = false ∨ r.issue.dbg.held = true → exec (.residentSwitch c) s = .next s ∧ exec (.stallSwitchTimeout c) s = .next s ∧
      exec (.forcedSwitch c) s = .next s) ∧
    (r.priv.lvl = false → r.issue.dbg.held = false → other = true → (q.frame (1 - f)).issue.swapped = false →
      (atDrainPoint s c f = true → drainTrap s c f = none →
        (∀ t, q.stallSince = some t → t + 512 ≤ s.now →
          exec (.stallSwitchTimeout c) s = .next turned ∧ exec (.residentSwitch c) s = .next turned) ∧
        (r.issue.slice.isSome = true → exec (.residentSwitch c) s = .next turned) ∧
        (q.stallSince = none → r.issue.slice = none → exec (.residentSwitch c) s = .next s)) ∧
      (∀ n, r.issue.slice = some n → n < q.ctl.dplimit.toNat → exec (.forcedSwitch c) s = .next s) ∧
      (∀ n, r.issue.slice = some n → q.ctl.dplimit.toNat ≤ n → r.issue.preempt = none → r.fl = Flight.none → r.taint.out = [] →
        ∃ t, exec (.forcedSwitch c) s = .next t ∧ (t.cube c).running = 1 - f ∧ (t.frame c (1 - f)).regs = (q.frame (1 - f)).regs ∧
          (t.frame c f).regs = r.regs ∧ (t.frame c f).leave = none ∧ (t.frame c f).issue = { r.issue with swapped := true, slice := none, lflags := 0 } ∧
          let base := ctxBase s r.priv.ctxptr
          w64 (gRead t base 8) = w64 (1 + 2 ^ 16 + 2 * 2 ^ 24) ∧ w64 (gRead t (base + 8) 8) = r.issue.pc ∧
          ∀ a, a < base → mergedByte t a = mergedByte s a))

/-- R31, R32, R324, R401: a request reaches every member of a gang that runs, and a span's other packages over the ports
of the partition's lowest cube (the model's choice, log 33); a task at a drain point where no trap is due, not halted by
the debugger, is saved with REASON 0 and stands outside its frame's issue; the last member's stop gives up the gang's
frames. The state of a frame between save and load is the reading of log entry 75. -/
def Obligations.PreemptionTakesAGang : Prop :=
  ∀ (s : State) (k : Rec) (g : Gang), s.teasel.power = true → s.hub.recs = [k] → k.gangs = [g] →
    (g.st = .running → g.pre = false → ∃ t, exec (.preemptionRequest ⟨k.part, k.id⟩ g.idx) s = .next t ∧ t.mem = s.mem ∧
      t.hub.recs = [{ k with gangs := [{ g with pre := true }] }] ∧
      (k.isSpan = false → t.hub.outbox = s.hub.outbox) ∧
      (∀ d, k.isSpan = true → s.hub.parts[k.part]? = some d → (∀ p ∈ spanPkgs k, portUp s (partCube s k.part) p 0 = true) →
        t.hub.outbox = s.hub.outbox ++ ((spanPkgs k).filter fun p => decide (p ≠ s.pkg)).map fun p =>
          (⟨s.pkg, partCube s k.part, d.fpid, p, 0, 0, none, .spanPreempt (wireId s k.id)⟩ : RemoteReq)) ∧
      ∀ c f, t.frame c f = if (c, f) ∈ gangFrames s k.part k.id g.idx ∧ (s.frame c f).issue.preempt = none then
        { s.frame c f with issue := { (s.frame c f).issue with preempt := some (0, 0) } } else s.frame c f) ∧
    (g.pre = true → exec (.preemptionRequest ⟨k.part, k.id⟩ g.idx) s = .next s) ∧
    (∀ c f t n, k.isSpan = false → (s.frame c f).task = some t → t.part = k.part → t.launch = k.id → t.gang = g.idx →
      (s.frame c f).issue.preempt = some n →
      (s.frame c f).priv.lvl = false → (s.frame c f).issue.dbg.held = false → atDrainPoint s c f = true → drainTrap s c f = none →
      (s.frame c f).fl.msgs = [] →
      let base := ctxBase s (s.frame c f).priv.ctxptr
      ∃ u, exec (.preemption c f) s = .next u ∧ w64 (gRead u base 8) = w64 (1 + 2 ^ 16) ∧
        w64 (gRead u (base + 8) 8) = (s.frame c f).issue.pc ∧ (∀ a, a < base → mergedByte u a = mergedByte s a) ∧
        ((∃ x ∈ gangFrames s k.part k.id g.idx, x ≠ (c, f) ∧ (s.frame x.1 x.2).issue.preempt.isSome = true) →
          u.hub = s.hub ∧ (u.frame c f).regs = (s.frame c f).regs ∧
          (u.frame c f).issue = { (s.frame c f).issue with swapped := true, preempt := none, lflags := 0 }) ∧
        (g.pre = true → gangFrames s k.part k.id g.idx = [(c, f)] →
          u.hub.recs = [{ k with gangs := [{ g with st := .preempted, pre := false }] }] ∧ (u.frame c f).task = none ∧
          ((u.cube c).parked.head?.map (·.task)) = some t))

/-- R10, R34, R36, R74, R106, R219, R220: storage leaves service for a task at its drain point and the buffers over it
are LOST; the members of a failed gang stop there; a gang's or span's barrier phase ends with the last arrival of its
members that have not completed. A member that a pre-emption has stopped stands at its drain point: log entry 72. -/
def Obligations.DrainPointsAndPhases : Prop :=
  ∀ (s : State) (c : CubeId) (f : FrameId) (x : Task), s.teasel.power = true → (s.frame c f).task = some x → (s.frame c f).priv.lvl = false →
    let r := s.frame c f
    let q := s.cube c
    (atDrainPoint s c f = true → r.ctl.layers &&& q.fab.failing ≠ 0 → ∃ t, exec (.layerWithdrawal c f) s = .next t ∧ t.mem = s.mem ∧
      (t.frame c f).ctl = { r.ctl with layers := r.ctl.layers &&& ~~~q.fab.failing } ∧ (t.frame c f).regs = r.regs ∧
      (t.frame c f).banks = q.fab.banks ∧ ∀ i, i < 64 → (t.frame c f).buf i = (r.buf i).map fun b =>
        if bufGone x (r.ctl.layers &&& q.fab.failing) q.fab.banks b then { b with st := .lost, fill := 0, rd := 0 } else b) ∧
    (∀ k g e, s.hub.recs = [k] → k.gangs = [g] → g.err = some e → gangFrames s k.part k.id g.idx = [(c, f)] →
      let i := Instr.gangFailureStop ⟨k.part, k.id⟩ g.idx
      let stopped := s.modFrame c f fun r => { r with issue := { r.issue with stopped := true } }
      (atDrainPoint s c f = true → exec i s = .next stopped) ∧
      (g.pre = true → r.issue.swapped = true → r.issue.preempt = none → exec i s = .next stopped) ∧
      (atDrainPoint s c f = false → g.pre = false ∨ r.issue.swapped = false → exec i s = .next s)) ∧
    (∀ k g p, s.hub.recs = [k] → k.gangs = [g] → s.hub.phases = [p] → p.ended = false → p.part = k.part → p.launch = k.id → p.bid < 16 →
      let i := fun (kind : BarKind) => Instr.barrierPhaseEnd ⟨k.part, k.id⟩ g.idx kind (BitVec.ofNat 4 p.bid)
      let ended := { s with hub := { s.hub with phases := [{ p with ended := true }] } }
      (k.isSpan = false → p.kind = .gang → p.gang = g.idx →
        ((∀ rank, rank < k.gsize → rank ∈ g.doneR ∨ (0, rank) ∈ p.came) → exec (i .gang) s = .next ended) ∧
        (∀ rank, rank < k.gsize → rank ∉ g.doneR → (0, rank) ∉ p.came → exec (i .gang) s = .next s)) ∧
      (p.kind = .span → k.ownRank s = some g.idx →
        let gone := fun (sr rank : Nat) => (sr, rank) ∈ p.came ∨
          (sr = g.idx ∧ rank ∈ g.doneR) ∨ (sr ≠ g.idx ∧ (sr ∈ k.doneAt ∨ (sr, rank) ∈ k.doneM))
        ((∀ sr rank, sr < (spanPkgs k).length → rank < k.gsize → gone sr rank) → exec (i .span) s = .next ended) ∧
        (∀ sr rank, sr < (spanPkgs k).length → rank < k.gsize → ¬ gone sr rank → exec (i .span) s = .next s)))

/-- R25, R33, R34, R341 to R343, for a record that is no span: a halted task whose operations are over gives back its
frame, whose registers and queues then hold zero (the model's choice, log 27); a gang completes when every member has; a
failed one ends with its error and cancels what was not admitted; a record then completes with its STATE, its MSI-X
vector signalled, or left pending where the vector is masked (log 106). The registers and queues of a freed frame hold
zero by log entry 27. A span completes through messages between packages, log entries 33 and 54; it is not stated here.
-/
def Obligations.TasksGangsAndRecordsComplete : Prop :=
  ∀ (s : State) (k : Rec), s.teasel.power = true → s.hub.recs = [k] → k.isSpan = false →
    (∀ g c f x, k.gangs = [g] → (s.frame c f).task = some x → x.part = k.part → x.launch = k.id → x.gang = g.idx → g.pre = false →
      (s.frame c f).issue.halted = true → (s.frame c f).priv.lvl = false → (s.frame c f).issue.stopped = false →
      (s.frame c f).fl = Flight.none → (s.frame c f).taint.out = [] →
      (∀ d, let h := (s.cube d).running
        (d, 1 - h) = (c, f) ∨ (s.frame d (1 - h)).task = none ∨ (d ≠ c ∧ (s.frame d h).task.isSome = true)) →
      ∃ t, exec (.taskComplete c f) s = .next t ∧ t.mem = s.mem ∧
        t.hub.recs = [{ k with gangs := [{ g with doneR := g.doneR ++ [x.rank] }] }] ∧
        t.frame c f = { Frame.free with
          ctl := { Ctl.zero with layers := (s.cube c).fab.insvc }, banks := (s.cube c).fab.banks } ∧
        ∀ d h, (d, h) ≠ (c, f) → t.frame d h = s.frame d h) ∧
    (∀ g, k.gangs = [g] → (∀ c f, (s.frame c f).task = none) → s.merge = [] →
      (g.err = none → g.st = .running → g.doneR.length = k.gsize → ∃ t, exec (.gangComplete ⟨k.part, k.id⟩ g.idx) s = .next t ∧ t.mem = s.mem ∧
        t.hub.recs = [{ k with gangs := [], doneN := k.doneN + 1 }] ∧ t.hub.queues = s.hub.queues) ∧
      (∀ e, g.err = some e → g.st ≠ .waiting → ∃ t, exec (.gangComplete ⟨k.part, k.id⟩ g.idx) s = .next t ∧ t.mem = s.mem ∧
        t.hub.recs = [{ k with
          gangs := [], doneN := k.doneN + 1, err := some (k.err.getD e), cancelled := k.cancelled + (k.total - k.next), next := k.total }])) ∧
    (k.home = s.pkg → recOver k = true →
      let st := if k.depFail then 5 else if k.err.isSome then 4 else 3
      ∃ t, exec (.recordComplete ⟨k.part, k.id⟩) s = .next t ∧ t.hub.recs = [] ∧
        let v := k.word 13 % 2 ^ 11
        let masked := (fget MsixVec.zero s.hub.vecs (2048 * k.part + v)).mask
        t.hub.msix = (if Nat.testBit (k.word 13) 15 = true ∧ masked = false then s.hub.msix ++ [(k.part, v)] else s.hub.msix) ∧
        (Nat.testBit (k.word 13) 15 = true → masked = true → fget false t.hub.mpend (2048 * k.part + v) = true) ∧
        (∀ d, partOf s k.part = some d → partOf t k.part = some { d with retained := ((k.id, st) :: d.retained).take 4096 }) ∧
        (k.word 12 = 0 → t.mem = s.mem) ∧
        (∀ e, k.word 12 ≠ 0 → hubTranslate s k.part k.asid { w := true } (k.word 12) = .error e →
          (∀ w, walk s k.part k.asid (k.word 12) = .error w → w.bad = false) →
          t.mem = s.mem ∧ t.teasel.logSeq = s.teasel.logSeq + 1) ∧
        (∀ a, k.word 12 ≠ 0 → hubTranslate s k.part k.asid { w := true } (k.word 12) = .ok a →
          let e := k.err.getD (0, 0, 0)
          (k.id < 2 ^ 32 → gRead t a 8 = k.id * 2 ^ 32 + st * 2 ^ 24 + e.1 % 32 * 2 ^ 16) ∧ w64 (gRead t (a + 8) 8) = e.2.1 ∧
          w64 (gRead t (a + 16) 8) = e.2.2 ∧ gRead t (a + 24) 8 = k.cancelled % 2 ^ 32 ∧
          ∀ p, p < a ∨ a + 32 ≤ p → mergedByte t p = mergedByte s p))

/-- R332 to R334, R338 to R340, R346, R396: host writes of a window reach it through its partition's function; a
submission answers with the reason of its refusal, or is accepted under the partition's next identifier and waits in its
queue; `wlaunch` answers in its record and signals. -/
def Obligations.SubmissionsAreDecided : Prop :=
  ∀ (s : State) (part : Nat) (d : Part), s.teasel.power = true → partOf s part = some d →
    (∀ (fn : Fin 4) (q : BitVec 6) (off : Nat) (v : Word),
      let i := Instr.windowRegisterWrite ⟨fn, q⟩ off v
      let queue : Queue → Host.Outcome State Fault Refusal := fun x => .next { s with hub := { s.hub with queues := s.hub.queues.set q.toFin x } }
      let x := s.hub.queues[q.toFin]
      (queuePart s q.toNat = some fn.val → off < 0x100 → off % 8 = 0 → exec i s = queue { x with stage := x.stage.set (off / 8) v }) ∧
      (queuePart s q.toNat = some fn.val → off = 0x110 → exec i s = queue { x with
        en := v.getLsbD 16, level := v.toNat / 2 ^ 8 % 4, weight := if v.toNat % 2 ^ 8 = 0 then 1 else v.toNat % 2 ^ 8 }) ∧
      (queuePart s q.toNat ≠ some fn.val ∨ off % 8 ≠ 0 ∨ (0x100 ≤ off ∧ off ≠ 0x110) → exec i s = .next s)) ∧
    (∀ (fn : Fin 4) (q : BitVec 6), queuePart s q.toNat ≠ some fn.val → exec (.windowSubmit ⟨fn, q⟩) s = .next s) ∧
    (∀ (fn : Fin 4) (q : BitVec 6), queuePart s q.toNat = some part → fn.val = part →
      let x := s.hub.queues[q.toFin]
      let answer := fun (t : State) (w : Word) => t.hub.queues[q.toFin].result = w
      (∀ (n : Nat) (b : Bool), (refusals s part d x.stage false).find? (·.2) = some (n, b) → ∃ t : State, exec (.windowSubmit ⟨fn, q⟩) s = .next t ∧
        answer t (w64 (n + 2 * 2 ^ 24)) ∧ t.hub.recs = s.hub.recs ∧ t.hub.parts = s.hub.parts ∧ t.mem = s.mem ∧ t.cubes = s.cubes) ∧
      ((refusals s part d x.stage false).find? (·.2) = none → ∃ (t : State) (k : Rec), exec (.windowSubmit ⟨fn, q⟩) s = .next t ∧
        answer t (w64 (2 ^ 24 + d.nextId * 2 ^ 32)) ∧ t.hub.recs = s.hub.recs ++ [k] ∧ k.id = d.nextId ∧ k.words = x.stage ∧
        k.part = part ∧ k.gangs = [] ∧ t.mem = s.mem ∧ t.cubes = s.cubes ∧
        partOf t part = some { d with nextId := if d.nextId = 0xFFFFFFFF then 1 else d.nextId + 1 } ∧
        (k.depFail = true → k.next = k.total ∧ k.cancelled = k.total) ∧
        (k.depFail = false → (getQueue t k.queue).pend = (getQueue s k.queue).pend ++ [k.id]))) ∧
    (∀ (c : CubeId) (f : FrameId) (e : CopyEnt) (rc : List Word), (s.frame c f).fl = { Flight.none with copyQ := [e] } → (s.frame c f).away = false → e.op = .wlaunch rc → e.wait = 0 →
      clockStands s c = false →
      (s.frame c f).task.map (·.part) = some part → e.sig.toNat < 8 →
      let r := s.frame c f
      let key := r.key ((e.recA.setWidth 32).toNat + 0xF0)
      let ends := fun (t : State) (w : Word) => leVal (faceBytes (t.cube c) key 8) = w.toNat ∧ (t.frame c f).fl = Flight.none ∧
        (t.frame c f).sync.df = r.sync.df ||| (1#8 <<< e.sig.toNat) ∧ (t.frame c f).regs = r.regs ∧ t.mem = s.mem
      (∀ (n : Nat) (b : Bool), (refusals s part d rc true).find? (·.2) = some (n, b) → ∃ t : State, exec (.wlaunchDecided c f) s = .next t ∧
        ends t (w64 (n + 2 * 2 ^ 24)) ∧ t.hub = s.hub) ∧
      ((refusals s part d rc true).find? (·.2) = none → ∃ t : State, exec (.wlaunchDecided c f) s = .next t ∧
        ends t (w64 (2 ^ 24 + d.nextId * 2 ^ 32)) ∧ t.hub.recs.map (·.id) = s.hub.recs.map (·.id) ++ [d.nextId]))

/-- R26, R27, R111, R343, R346 to R352: the scheduler admits a gang that has its seats, and each member starts from its
record; one that does not fit opens a reservation; a dictionary is loaded, or its gang ends with an error; a queue's
head ages; a reservation matures; a span's holds are asked for in turn, given where its seats are free, counted for 1
ms, and given up (over the ports of the partition's lowest cube, the model's choice, log 33). What a decision does
beside the order of R346 is log entry 49, the places chosen log entry 50, and the hold of a span log entries 33 and 54.
-/
def Obligations.SchedulerRuns : Prop :=
  ∀ (s : State), s.teasel.power = true →
    let quiet := fun (p : Fin 4) => (∀ k ∈ s.hub.recs, k.part = p.val → k.isSpan = false) ∧ outGangs s p.val = []
    (∀ (p : Fin 4), quiet p → offers s p.val = [] → exec (.schedulingDecision p) s = .next s) ∧
    (∀ (p : Fin 4) (o : Nat × Ratio × Nat) (k : Rec), quiet p → offers s p.val = [(o.1, o.2.1, o.2.2, .fresh k)] → k.isSpan = false →
      findRec s k.part k.id = some k →
      (∀ (c : CubeId) (f : FrameId) (x : Task), placeGang s k k.next = .seats [(c.val, f.val, x)] →
        ∃ t, exec (.schedulingDecision p) s = .next t ∧ t.mem = s.mem ∧ (∀ d h, (d, h) ≠ (c, f) → t.frame d h = s.frame d h) ∧
          let r := t.frame c f
          r.task = some x ∧ r.regs = { Regs.zero with a := Regs.zero.a.set 0 (w64 (k.word 7)) } ∧ r.taint = Taints.none ∧
          r.issue.pc = w64 (k.word 6) ∧ r.priv.lvl = false ∧ r.fl = Flight.none ∧ r.sync = Sync.zero ∧
          r.ctl.fmt = BitVec.ofNat 16 (k.word 2) &&& 0xFCFF ∧ r.ctl.fid.toNat = k.word 2 / 2 ^ 16 % 2 ^ 6 ∧
          r.ctl.layers = (s.cube c).fab.insvc ∧
          ∃ k', findRec t k.part k.id = some k' ∧ k'.next = k.next + 1 ∧ k'.gangs.map (·.idx) = k.gangs.map (·.idx) ++ [k.next]) ∧
      (placeGang s k k.next = .nofit → s.hub.resv = [] → exec (.schedulingDecision p) s = .next { s with hub := { s.hub with
        resv := [⟨k.part, k.id, k.next, ((cubesInOrder s k.part).take k.gsize).map (·.val), s.now, false⟩] } })) ∧
    (∀ k g c f x, s.hub.recs = [k] → k.gangs = [g] → g.st = .waiting → gangFrames s k.part k.id g.idx = [(c, f)] →
      (s.frame c f).task = some x → x.half < 2 → (dictOf s c (s.frame c f)).loaded = false →
      (∀ b, loadImage s c k = .ok b → ∃ t, exec (.dictionaryLoad ⟨k.part, k.id⟩ g.idx) s = .next t ∧ t.mem = s.mem ∧
        t.hub.recs = [{ k with gangs := [{ g with st := .running, admitted := s.now }] }] ∧ (t.cube c).frames = (s.cube c).frames ∧
        (dictOf t c (t.frame c f)).loaded = true ∧ ∀ i, i < k.word 5 % 2 ^ 15 →
          fget 0 (dictOf t c (t.frame c f)).words i = BitVec.ofNat 384 (leVal ((b.drop (48 * i)).take 48))) ∧
      (∀ cause va, loadImage s c k = .error (cause, va) → k.isSpan = false →
        ∃ t, exec (.dictionaryLoad ⟨k.part, k.id⟩ g.idx) s = .next t ∧ (t.frame c f).task = none ∧ t.hub.recs = [{ k with
          gangs := [], doneN := k.doneN + 1, err := some (k.err.getD (cause, w64 va, 0))
          cancelled := k.cancelled + (k.total - k.next), next := k.total }])) ∧
    (∀ q : BitVec 6, let x := s.hub.queues[q.toFin]
      (x.pend ≠ [] → x.headAt + usCycles 100000 ≤ s.now →
        exec (.headAging q) s = .next { s with hub := { s.hub with queues := s.hub.queues.set q.toFin { x with aged := true } } }) ∧
      (x.pend = [] ∨ (x.headAt ≤ s.now ∧ s.now < x.headAt + usCycles 100000) → exec (.headAging q) s = .next s)) ∧
    (∀ v k (c : CubeId), s.hub.resv = [v] → v.cubes.contains c.val = true → findRec s v.part v.launch = some k →
      (v.opened + usCycles 10000 ≤ s.now → ∃ t, exec (.reservationMature c) s = .next t ∧ t.hub.resv = [{ v with mature := true }] ∧
        t.mem = s.mem ∧ ∀ c f, (t.frame c f).regs = (s.frame c f).regs) ∧
      (v.opened ≤ s.now → s.now < v.opened + usCycles 10000 → exec (.reservationMature c) s = .next s)) ∧
    (∀ k t0, s.hub.recs = [k] → k.isSpan = true → k.home = s.pkg → k.chosen = some t0 →
      let tell := fun (p : Nat) (m : RemoteKind) => (⟨s.pkg, partCube s k.part, fpidOf s k.part, p, 0, 0, none, m⟩ : RemoteReq)
      let up := fun (p : Nat) => portUp s (partCube s k.part) p 0 = true
      let late := t0 + usCycles 1000 ≤ s.now
      (∀ p, late → exec (.spanHoldRequest ⟨k.part, k.id⟩ p) s = .next s) ∧
      (∀ p, p ∈ spanPkgs k → p ∉ k.asked → t0 ≤ s.now → ¬ late →
        let i := Instr.spanHoldRequest ⟨k.part, k.id⟩ p
        (p ≠ s.pkg → up p → (∀ y ∈ spanPkgs k, y < p → y ∈ k.holds) → exec i s = .next { s with hub := { s.hub with
          recs := [{ k with asked := p :: k.asked }]
          outbox := s.hub.outbox ++ [tell p (.spanHold (wireId s k.id) k.tries k.words (queueLevel s k))] } }) ∧
        (∀ gi l, p = s.pkg → (∀ y ∈ spanPkgs k, y < p → y ∈ k.holds) → s.hub.given = [] → k.gangs = [] → k.doneN = 0 →
          k.ownRank s = some gi → placeGang s k gi = .seats l → exec i s = .next { s with hub := { s.hub with
            recs := [{ k with asked := p :: k.asked, holds := p :: k.holds }], given := [⟨k.part, k.id, l⟩] } }) ∧
        (∀ y ∈ spanPkgs k, y < p → y ∉ k.holds → exec i s = .next s)) ∧
      -- a hold that another package gives counts within 1 ms, for the choice that asked for it
      (∀ (q : RemoteReq) w n, q.kind = .spanHeld w n → partOfFpid s q.fpid = some k.part → ownId s w = k.id → t0 ≤ s.now →
        (¬ late → n = k.tries → q.srcPkg ∈ k.asked → exec (.remoteRequestArrive q) s = .next { s with hub := { s.hub with
          recs := [{ k with holds := q.srcPkg :: k.holds }] } }) ∧
        (late ∨ n ≠ k.tries → exec (.remoteRequestArrive q) s = .next s)) ∧
      (∀ y ∈ spanPkgs k, y ∉ k.holds → late → (∀ p ∈ spanPkgs k, up p) →
        exec (.spanHoldTimeout ⟨k.part, k.id⟩) s = .next { s with hub := { s.hub with
          recs := [{ k with asked := [], holds := [], chosen := none }]
          given := s.hub.given.filter fun h => !(decide (h.part = k.part) && decide (h.launch = k.id))
          outbox := s.hub.outbox ++ ((spanPkgs k).filter (· ≠ s.pkg)).map fun p => tell p (.spanRelease (wireId s k.id) false) } }))

/-- R376, R378, R381 to R385, R387: sensors read in units of 0.25 °C. The throttle step's schedule with its cause, the
ramp's raise, the fast comparator, the reported limit; ballast on the idle layers where the draw falls short; the
thermal trip, its resume and its end after 1 s; leaves granted within class 8 and the envelope, and expired. The draw as
an opaque function of the current, the CAUSE with both limits passed, the calm count, ballast and the CAUSE of a resume
are choices of log entries 55 and 56. -/
def Obligations.CampionThrottles : Prop :=
  ∀ (s : State) (c : CubeId), s.teasel.power = true →
    let q := s.cube c
    let k := q.camp
    let camp := fun (x : Campion) => s.modCube c fun q => { q with camp := x }
    (∀ amps temp, ∃ x p, exec (.campionTick c amps temp) s = .next (s.modCube c fun q => { q with camp := x, pow := p }) ∧
      let hot := k.lim.icmax < amps ∨ 4 * k.lim.tthr < temp
      let cool := 10 * amps < 9 * k.lim.icmax ∧ temp + 12 < 4 * k.lim.tthr
      let s1 := if hot then min 15 (k.s + 1) else if cool ∧ k.calm = 9 ∧ 0 < k.s then k.s - 1 else k.s
      let draw := Config.coreDraw amps
      let goal := 100 * (draw + match k.reqs with | r :: _ => 100 * r.cls | [] => 0)
      let env := if q.ctl.ramp = 0 then goal else if k.env < goal then min goal (k.env + q.ctl.ramp) else max goal (k.env - q.ctl.ramp)
      let exceeds := q.ctl.ramp ≠ 0 ∧ env < 100 * draw
      x.env = env ∧ x.amps = amps ∧ x.temp = temp ∧ x.lim = k.lim ∧ x.lrep = k.lrep ∧ x.trip = k.trip ∧ x.reqs = k.reqs ∧
      (¬ exceeds → x.s = s1 ∧ x.calm = if ¬ hot ∧ cool ∧ s1 = k.s then k.calm + 1 else 0) ∧ (exceeds → x.s = min 15 (s1 + 1)) ∧
      (k.s < 15 → hot → ¬ exceeds → x.cause = if k.lim.icmax < amps then 2 else 1) ∧ (s1 < 15 → exceeds → x.cause = 4) ∧
      (¬ hot → ¬ exceeds → x.cause = k.cause) ∧
      let low := ((q.ctl.ramp ≠ 0 ∧ 100 * draw < env) ∨ draw < q.ctl.floor) ∧ draw < k.lrep
      ∀ z : Fin 8,
        (x.ballast.getLsbD z.val = true ↔ low ∧ q.fab.insvc.getLsbD z.val = true ∧ layerBusy q z.val = false ∧
          (q.pow[z].st = .active ∨ q.pow[z].st = .gated)) ∧
        p[z] = if x.ballast.getLsbD z.val then { q.pow[z] with st := .active, since := s.now }
          else if k.ballast.getLsbD z.val = true ∧ q.pow[z].st = .active then { q.pow[z] with since := s.now } else q.pow[z]) ∧
    (∀ amps, exec (.fastComparator c amps) s = .next (if 12 * k.lim.icmax < 10 * amps then camp { k with
        s := 15, changes := if 15 = k.s then k.changes else min (k.changes + 1) 0xFFFFFFFF
        cause := if k.s < 15 then 3 else k.cause, calm := if k.s < 15 then 0 else k.calm } else s)) ∧
    exec (.lReport c) s = .next (camp { k with lrep := min k.lim.lcap (828 - 10 * (k.temp - 4 * 85) - 52 * k.s) }) ∧
    (∀ temp, k.trip = none → 4 * k.lim.ttrip < temp → ∃ t, exec (.thermalTrip c temp) s = .next t ∧ t.mem = s.mem ∧
      t.teasel.logSeq = s.teasel.logSeq + 1 ∧ (t.cube c).camp = { k with trip := some s.now, temp := temp } ∧
      (t.cube c).frames = q.frames ∧ (∀ f, mayIssue t c f = false) ∧
      ∀ z : Fin 8, (t.cube c).pow[z] = if q.pow[z].st = .active ∨ q.pow[z].st = .gated then
        { q.pow[z] with st := .retention, since := s.now, waking := false }
        else if q.pow[z].st = .retention then { q.pow[z] with waking := false } else q.pow[z]) ∧
    (∀ temp, k.trip.isSome = true ∨ temp ≤ 4 * k.lim.ttrip → exec (.thermalTrip c temp) s = .next s) ∧
    (∀ temp, k.trip.isSome = true → temp + 40 < 4 * k.lim.ttrip → ∃ x, exec (.thermalResume c temp) s = .next (camp x) ∧
      x.trip = none ∧ x.s = 15 ∧ x.temp = temp ∧ x.lim = k.lim) ∧
    (∀ temp, k.trip = none ∨ 4 * k.lim.ttrip ≤ temp + 40 → exec (.thermalResume c temp) s = .next s) ∧
    (∀ t0, k.trip = some t0 → q.fab.coreOff = false →
      (t0 ≤ s.now → s.now < t0 + usCycles 1000000 → exec (.tripTimeout c) s = .next s) ∧
      (t0 + usCycles 1000000 ≤ s.now → gangsOn s c = [] →
        exec (.tripTimeout c) s = .next (s.modCube c fun q => { q with fab := { q.fab with coreOff := true } })) ∧
      (∀ r g, t0 + usCycles 1000000 ≤ s.now → s.hub.recs = [r] → r.gangs = [g] → r.isSpan = false → (∃ p ∈ g.places, p.1 = c.val) →
        ∃ t r', exec (.tripTimeout c) s = .next t ∧ (t.cube c).fab.coreOff = true ∧ t.hub.recs = [r'] ∧ r'.gangs = [] ∧
          r'.next = r.total ∧ r'.err = some (r.err.getD (0, 0, 0)))) ∧
    (∀ r rest x, k.reqs = r :: rest → (q.frame (frameOf r.frame)).task = some x →
      let held1 := fun (f : FrameId) => match (q.frame f).leave with | some (n, till) => if s.now < till then n else 0 | none => 0
      let held := held1 0 + held1 1
      let room := q.ctl.ramp = 0 ∨ 100 * (Config.coreDraw k.amps + 100 * r.cls) ≤ k.env
      (r.cls + held ≤ 8 → room → exec (.leaveGrant c) s = .next ((camp { k with reqs := rest }).modFrame c (frameOf r.frame) fun y =>
        { y with leave := some (r.cls, s.now + usCycles r.dur) })) ∧
      (8 < r.cls + held ∨ ¬ room → exec (.leaveGrant c) s = .next s)) ∧
    (∀ f n till, (q.frame f).leave = some (n, till) → exec (.leaveExpiry c f) s =
      .next (if till ≤ s.now then s.modFrame c f fun y => { y with leave := none } else s))

/-- R36, R364, R366, R374 to R376, R388, R389, R393: rails are trimmed a step in 10 ms to the lowest passing value and
the record's margin; a layer is gated after 64 cycles, retained after 1 ms, and woken once an operation has asked for
it; regulator phases fail; errors of storage are counted, and it is remapped or retired at its limit; a port fails, and
its lanes and the requests that waited move to one that stands. The trim range is log entry 56, which responses a
failing port loses is free, log entry 57; the waking of a layer is log entry 30, and the counts of errors log entry 108.
-/
def Obligations.LayersAndPortsFailAndRest : Prop :=
  ∀ (s : State) (c : CubeId) (z : Fin 8), s.teasel.power = true →
    let q := s.cube c
    let p := q.pow[z]
    let pow := fun (x : LayerPow) => s.modCube c fun q => { q with pow := q.pow.set z x }
    let logged := fun (t : State) => t.teasel.logSeq = s.teasel.logSeq + 1 ∧ t.mem = s.mem ∧ t.hub = s.hub
    (∀ pass, s.now - q.fab.trimAt < usCycles 10000 → exec (.railTrim c pass) s = .next s) ∧
    (∀ pass, usCycles 10000 ≤ s.now - q.fab.trimAt → ∃ m, exec (.railTrim c pass) s =
        .next (s.modCube c fun q => { q with fab := { q.fab with trim := m, trimAt := s.now } }) ∧
      ∀ i, i < 512 →
        let now := fget 144 q.fab.trim i
        let margin := (leVal ((s.teasel.flash.record.drop 0x30).take 8) + 4) / 5
        fget 144 m i = match pass[i]? with
          | some v =>
            let want := min 160 (max 120 (v + margin))
            if now < want then now + 1 else if want < now then now - 1 else now
          | none => now) ∧
    exec (.railRiseDone c z) s = .next (if p.ready ≤ s.now then pow { p with ready := 0 } else s) ∧
    (p.st = .active → p.since + 64 ≤ s.now → layerBusy q z.val = false → q.camp.ballast.getLsbD z.val = false →
      exec (.layerGate c z) s = .next (pow { p with st := .gated, since := s.now })) ∧
    (p.st ≠ .active ∨ p.since ≤ s.now ∧ s.now < p.since + 64 ∨ layerBusy q z.val = true ∨ q.camp.ballast.getLsbD z.val = true → exec (.layerGate c z) s = .next s) ∧
    (p.st = .gated → p.since + usCycles 1000 ≤ s.now → layerNeeded q z.val s.now = false →
      exec (.layerRetention c z) s = .next (pow { p with st := .retention, since := s.now })) ∧
    (p.st ≠ .gated ∨ layerNeeded q z.val s.now = true → exec (.layerRetention c z) s = .next s) ∧
    (q.camp.trip = none → p.st = .retention → p.waking = true → p.ready ≤ s.now →
      exec (.layerWake c z) s = .next (pow { p with st := .active, since := s.now, waking := false })) ∧
    (q.camp.trip.isSome = true ∨ p.st ≠ .retention ∨ p.waking = false ∨ s.now < p.ready → exec (.layerWake c z) s = .next s) ∧
    (∀ group rail, let key := 16 * z.val + group.val
      (fget 0 q.fab.phases key = 0 → ∃ t, exec (.ivrPhaseFailure c z group rail) s = .next t ∧ logged t ∧
        fget 0 (t.cube c).fab.phases key = 1 ∧ (t.cube c).frames = q.frames ∧ (t.cube c).pow = q.pow ∧ (t.cube c).fab.insvc = q.fab.insvc) ∧
      (fget 0 q.fab.phases key = 1 → p.st = .withdrawn → ∃ t, exec (.ivrPhaseFailure c z group rail) s = .next t ∧ logged t ∧
        (t.cube c).frames = q.frames ∧ (t.cube c).pow = q.pow ∧ (t.cube c).fab.insvc = q.fab.insvc) ∧
      (fget 0 q.fab.phases key = 1 → p.st ≠ .withdrawn → (∃ f, (q.frame f).ctl.layers.getLsbD z.val = true ∧ (q.frame f).task.isSome = true) →
        ∃ t, exec (.ivrPhaseFailure c z group rail) s = .next t ∧ logged t ∧
        (t.cube c).pow[z].st = .parked ∧ (t.cube c).fab.insvc = q.fab.insvc &&& ~~~(1#8 <<< z.val) ∧
        (t.cube c).fab.failing.getLsbD z.val = true ∧ ∀ f, (t.frame c f).regs = (q.frame f).regs ∧
          ∀ e ∈ (t.frame c f).fl.cubeA, e.mask.getLsbD z.val = true → e.barred.isSome = true)) ∧
    -- a line of global memory: the second uncorrectable error or 16 in a day remap it, in shared memory while the bank has spares
    (∀ (l : BitVec 42) (bad : Bool), populated l.toNat = true →
      let d := cubeOf (localCube l.toNat)
      let w := (s.cube d).fab.wear
      let e := fget ErrCount.zero w.lines (l.toNat / 64)
      let times := s.now :: e.times.filter fun t => decide (s.now - t < usCycles 86400000000)
      let bank := l.toNat / 2 ^ 6 % 2 ^ 8
      let used := fget 0 w.spares bank
      let hbm := decide (l.toNat < 2 ^ 39)
      let moves : Bool := (if bad then decide (1 ≤ e.bad) else decide (16 ≤ times.length)) && (hbm || decide (used < 64))
      ∃ t, exec (.storageRemap (.memLine l bad)) s = .next t ∧ t.mem = s.mem ∧ t.hub = s.hub ∧ (t.cube d).frames = (s.cube d).frames ∧
        t.teasel.logSeq = s.teasel.logSeq + (if moves then 1 else 0) ∧
        (∀ p, poisoned t p = (poisoned s p || (bad && decide (p / 64 = (s.pkg * 2 ^ 42 + l.toNat) / 64)))) ∧
        fget ErrCount.zero (t.cube d).fab.wear.lines (l.toNat / 64) =
          (if moves then ErrCount.zero else if bad then { e with bad := e.bad + 1 } else { e with times := times }) ∧
        fget 0 (t.cube d).fab.wear.spares bank = used + (if moves && !hbm then 1 else 0)) ∧
    -- a face line: the second uncorrectable error of its bank, or 64 in a second, retire the bank
    (∀ (face : Fin 3) (off : BitVec 26) (bad : Bool),
      let key := z.val * 256 + face.val * 64 + off.toNat / 2 ^ 20
      let e := fget ErrCount.zero q.fab.wear.banks key
      let times := s.now :: e.times.filter fun t => decide (s.now - t < usCycles 1000000)
      let retires : Bool := (if bad then decide (1 ≤ e.bad) else decide (64 ≤ times.length)) && !q.fab.banks.contains key
      ∃ t, exec (.storageRemap (.faceLine c z face off bad)) s = .next t ∧ t.mem = s.mem ∧ t.hub = s.hub ∧ (t.cube c).face = q.face ∧
        t.teasel.logSeq = s.teasel.logSeq + (if retires then 1 else 0) ∧
        (t.cube c).fab.banks = (if retires then key :: q.fab.banks else q.fab.banks) ∧
        (bad = true → facePoisoned (t.cube c) (faceKey z.val face.val off.toNat) = true) ∧
        ∀ f, (q.frame f).task.isSome = true → t.frame c f = q.frame f) ∧
    -- a vertical bus: more than 1,000 retries in a millisecond, or a wire past the 32 spares, retire it and its layer
    (let gone := fun (t : State) => logged t ∧ (t.cube c).face = q.face ∧
      (t.cube c).fab.insvc = q.fab.insvc &&& ~~~(1#8 <<< z.val) ∧
      ((∃ f, (q.frame f).ctl.layers.getLsbD z.val = true ∧ (q.frame f).task.isSome = true) →
        (t.cube c).fab.failing.getLsbD z.val = true ∧ (t.cube c).fab.busBad.getLsbD z.val = true) ∧
      ((∀ f, (q.frame f).task.isSome = true → (q.frame f).ctl.layers.getLsbD z.val = false) → (t.cube c).pow[z].st = .withdrawn) ∧
      ∀ f, (q.frame f).task.isSome = true → t.frame c f = q.frame f
     let stays := fun (t : State) => t.teasel.logSeq = s.teasel.logSeq ∧ t.mem = s.mem ∧ t.hub = s.hub ∧ (t.cube c).frames = q.frames ∧
      (t.cube c).fab.insvc = q.fab.insvc ∧ (t.cube c).fab.busBad = q.fab.busBad
     (∀ n, let sum := n + ((fget [] q.fab.wear.retries z.val).filter fun x => decide (s.now - x.1 < usCycles 1000)).foldr (fun x m => x.2 + m) 0
      ∃ t, exec (.storageRemap (.busRetry c z n)) s = .next t ∧
        (1000 < sum → q.fab.busBad.getLsbD z.val = false → gone t) ∧ (sum ≤ 1000 → stays t)) ∧
     (let used := fget 0 q.fab.wear.wires z.val
      ∃ t, exec (.storageRemap (.busWire c z)) s = .next t ∧
        (32 ≤ used → q.fab.busBad.getLsbD z.val = false → gone t) ∧
        (used < 32 → stays t ∧ fget 0 (t.cube c).fab.wear.wires z.val = used + 1))) ∧
    (∀ port newPort : BitVec 4, (q.frame 0).fl = Flight.none → (q.frame 1).fl = Flight.none → port.toNat ∉ q.fab.deadPorts →
      newPort ≠ port → newPort.toNat ∉ q.fab.deadPorts →
      let u := s.modCube c fun q => { q with fab := { q.fab with
        deadPorts := port.toNat :: q.fab.deadPorts
        pmap := if portExists q newPort.toNat then q.fab.pmap.map fun x => if x = port then newPort else x else q.fab.pmap } }
      let free := fun (x : RemoteReq) => portUp u x.srcCube x.dstPkg x.lane.toNat
      exec (.portFailure c port newPort) s = .next { u with hub := { s.hub with
        outbox := s.hub.outbox ++ s.hub.held.filter free, held := s.hub.held.filter fun x => !free x } }) ∧
    (∀ port newPort : BitVec 4, port.toNat ∈ q.fab.deadPorts → portWaits s c port = true →
      exec (.portFailure c port newPort) s = .next s)

/-- R9, R374, R386, R387, R390 to R395, R400: what Teasel samples and keeps, once in a millisecond; its watchdog; boot
with its two verifications, a failed layer left out; a reset of a function, whose live records end in STATE 4; a loss of
power; a recovery image, accepted or refused by its digest, its signature or its SEQ. What a recovery's boot meets is
free (the model's choice, log 17), and an update is copied in an event of its own, which alone a power loss can tear
(log 107). The packing of a telemetry record past word 0 and MIN of a cleared monitor are log entry 58, the cleared
memory after a reset is log entry 63, and the digests and signatures are opaque, log entry 16. -/
def Obligations.TeaselSamplesAndBoots : Prop :=
  ∀ (s : State),
    (∀ values, s.teasel.power = true → s.teasel.up = false ∨ s.now - s.teasel.telAt < usCycles 1000 →
      exec (.telemetrySample values) s = .next s) ∧
    (∀ values, s.teasel.power = true → s.teasel.up = true → usCycles 1000 ≤ s.now - s.teasel.telAt →
      ∃ r, exec (.telemetrySample values) s = .next { s with fresh := s.fresh + values.length, teasel := { s.teasel with
        telem := (r :: s.teasel.telem).take 64, telAt := s.now, kick := s.now } } ∧ r.head? = some (w64 (s.now / 2700)) ∧
      let at_ := fun (n : Nat) => (r.getD (1 + n / 4) 0).toNat / 2 ^ (16 * (n % 4)) % 2 ^ 16
      r.length = 128 ∧ (∀ c : CubeId, at_ c.val = min 0xFFFF (s.cube c).camp.s ∧ at_ (4 + c.val) = min 0xFFFF (limitL (s.cube c).camp)) ∧
      ∀ n, n < 336 → at_ (8 + n) = min 0xFFFF (values.getD n 0).toNat) ∧
    (∀ c (m : Fin 8) v, s.teasel.power = true → let x := (s.cube c).mons[m]
      ∃ y, exec (.monitorSample c m v) s = .next (s.modCube c fun q => { q with mons := q.mons.set m y }) ∧
        (let u := min v (2 ^ 32 - 1)
         y.min = (if x.count = 0 then u else min x.min u) ∧ y.max = max x.max u ∧ y.count = min (x.count + 1) (2 ^ 32 - 1) ∧
          ∀ i : Fin 16, (if i.val = 0 then v < x.base + 2 ^ x.shift
              else x.base + i.val * 2 ^ x.shift ≤ v ∧ (v < x.base + (i.val + 1) * 2 ^ x.shift ∨ i.val = 15)) →
            y.bins[i] = min (x.bins[i] + 1) (2 ^ 32 - 1) ∧ ∀ j : Fin 16, j ≠ i → y.bins[j] = x.bins[j])) ∧
    (s.teasel.power = true → s.teasel.fallback = false → s.teasel.kick + usCycles 250000 ≤ s.now → ∃ t, exec .watchdogTimeout s = .next t ∧
      t.mem = s.mem ∧ t.hub = s.hub ∧ t.teasel.fallback = true ∧ t.teasel.logSeq = s.teasel.logSeq + 1 ∧ ∀ c : CubeId,
        let k := (t.cube c).camp
        let top := recordLimits s.teasel
        k.lim = { top with lcap := 560 } ∧ k.s = max 4 (s.cube c).camp.s ∧ ((s.cube c).camp.s < 4 → k.cause = 5) ∧
        (t.cube c).ctl = { (s.cube c).ctl with floor := 0, ramp := 50 } ∧ (t.cube c).frames = (s.cube c).frames) ∧
    (s.teasel.power = true → s.teasel.fallback = true ∨ (s.teasel.kick ≤ s.now ∧ s.now < s.teasel.kick + usCycles 250000) →
      exec .watchdogTimeout s = .next s) ∧
    (∀ i, let key := s.teasel.vendorKey
      let fl := s.teasel.flash
      ∃ t, exec (.powerOnReset i) s = .next t ∧ t.mem = [] ∧ t.poison = [] ∧ t.merge = [] ∧ t.hub.recs = [] ∧ t.teasel.power = true ∧
        t.teasel.flash.active = fl.active ∧ t.teasel.flash.record = fl.record ∧ (∀ c f, (t.frame c f).task = none ∧ (t.frame c f).regs = Regs.zero) ∧
        (t.teasel.up = true → ∀ (c : CubeId) n, n < 512 → (t.cube c).fab.trimAt = t.now ∧
          fget 144 (t.cube c).fab.trim n = match (i.trim.getD c.val [])[n]? with
            | some v => min 160 (max 120 (v + trimMargin s.teasel))
            | none => 144) ∧
        (t.teasel.up = true → ∀ (c : CubeId) (z : Fin 8) x, (t.cube c).fab.lost = (s.cube c).fab.lost ∧
          ((t.cube c).fab.phys[z] = some x → (s.cube c).fab.lost.getLsbD x = false ∧ (i.pass.getD c.val 0x1FF).getLsbD x = true)) ∧
        (t.teasel.up = true → t.teasel.flash.seqrec = if imgSeq fl.active ≠ wordAt fl.seqrec 0 then
          seqRecord (deviceKey fl.record) fl.active else fl.seqrec) ∧
        (t.teasel.up = true ↔ imageOk key fl.active = true ∧ recordOk key fl.record = true) ∧ (t.teasel.recov = !t.teasel.up) ∧
        (t.teasel.up = true → ∀ c : CubeId, (t.cube c).camp.lim = ⟨recField fl.record 0x10, recField fl.record 0x18, recField fl.record 0x20, recField fl.record 0x28⟩ ∧
          (t.cube c).ctl = CubeCtl.zero ∧ ∀ z : Fin 8, (t.cube c).fab.insvc.getLsbD z.val = (t.cube c).fab.phys[z].isSome)) ∧
    (∀ p : Fin 4, s.teasel.power = true → s.hub.recs = [] → (∀ c f, (s.frame c f).task = none) →
      ∃ t, exec (.functionLevelReset p) s = .next t ∧ t.mem = s.mem ∧ t.cubes = s.cubes ∧ t.hub.recs = [] ∧
        ∀ q : Fin 64, t.hub.queues[q] = if queuePart s q.val = some p.val then { s.hub.queues[q] with pend := [], aged := false } else s.hub.queues[q]) ∧
    -- live records of the partition end in STATE 4, one that depends on another too
    (∀ (p : Fin 4) k j d, s.teasel.power = true → s.hub.recs = [k, j] → partOf s p.val = some d → k.id ≠ j.id → k.id ∈ j.deps →
      (∀ x ∈ s.hub.recs, x.part = p.val ∧ x.home = s.pkg ∧ x.isSpan = false) →
      ∃ t, exec (.functionLevelReset p) s = .next t ∧ t.hub.recs = [] ∧
        partOf t p.val = some { d with retained := ((j.id, 4) :: (k.id, 4) :: d.retained).take 4096 }) ∧
    (∀ torn, s.teasel.power = true → ∃ t, exec (.powerLoss torn) s = .next t ∧ t.teasel.power = false ∧ t.mem = [] ∧
      t.teasel.flash = { s.teasel.flash with
        active := if torn = true ∧ s.teasel.copying = true then s.teasel.flash.staging.take 64 else s.teasel.flash.active }) ∧
    (s.teasel.power = true → s.teasel.recov = false → exec .recoverySubmit s = .next s) ∧
    (s.teasel.power = true → s.teasel.recov = true → recordOk s.teasel.vendorKey s.teasel.flash.record = false →
      exec .recoverySubmit s = .next { s with teasel := { s.teasel with recStatus := 2 } }) ∧
    (s.teasel.power = true → s.teasel.recov = true → recordOk s.teasel.vendorKey s.teasel.flash.record = true →
      let fl := s.teasel.flash
      let byte := fun i => fget 0 s.teasel.window i
      let img := (List.range (min (0xC0 + imgLen ((List.range 0xC0).map byte)) 0x3FFFFF0)).map byte
      let last := seqOkUnder fl.record fl.seqrec = true → wordAt fl.seqrec 0 ≤ imgSeq img
      (imageOk s.teasel.vendorKey img = false ∨ imgSeq img < minSeq s.teasel ∨ ¬ last →
        exec .recoverySubmit s = .next { s with teasel := { s.teasel with recStatus := 2 } }) ∧
      (imageOk s.teasel.vendorKey img = true → minSeq s.teasel ≤ imgSeq img → last →
        ∃ t, exec .recoverySubmit s = .next t ∧ t.teasel.flash.active = img ∧ t.teasel.flash.staging = img ∧
          t.teasel.flash.record = fl.record ∧ t.teasel.recStatus = 1 ∧ t.teasel.recov = false ∧ t.teasel.up = true ∧ t.mem = [] ∧
          t.hub.recs = [] ∧ ∀ c f, (t.frame c f).task = none))

/-- R360, R371, R377, R392, R396, R397: who may issue a command, what none defines, what a response holds; a package
reset, partition descriptors, the pin of a page and the limits, each with its refusals, its effect and its response. The
conventions of log entry 59 are the model choices here, and that a pin change waits with status 0 that of log entry 84.
-/
def Obligations.MailboxCommandsRun : Prop :=
  ∀ (s : State) (fn : Fin 4) (part cube : Nat) (d : Part), partOf s part = some d →
    let w := reqWord s fn
    let k := s.kicked
    (∀ code action i, (mailOf s fn).status ≠ 0 → s.teasel.power = true → s.teasel.up = true → 0 < fn.val → fn.val < s.hub.parts.length → headOf s fn = ⟨code, part, cube, action, true⟩ →
      (code, action, i) ∈ [(2, 0, Instr.writePartitionDescriptors fn), (4, 0, .commitLimitSet fn), (6, 0, .firmwareUpdate fn),
        (8, 0, .debugAttach fn), (8, 4, .debugHalt fn), (8, 8, .debugWrite fn)] →
      exec i s = .next (reply k fn 3 [])) ∧
    (∀ code action c, (mailOf s fn).status ≠ 0 → s.teasel.power = true → s.teasel.up = true → fn.val < s.hub.parts.length → headOf s fn = ⟨code, part, cube, action, c⟩ →
      code = 0 ∨ 9 < code → exec (.unknownCommand fn) s = .next (reply s fn 4 [])) ∧
    -- a nonzero ACTION of a command that has none
    (∀ code action i bi, (mailOf s fn).status ≠ 0 → s.teasel.power = true → s.teasel.up = true → fn.val = 0 → s.teasel.copying = false →
      action ≠ 0 → headOf s fn = ⟨code, part, cube, action, true⟩ →
      (code, i) ∈ [(1, Instr.packageReset fn bi), (2, .writePartitionDescriptors fn), (3, .pinTableChange fn), (4, .commitLimitSet fn),
        (6, .firmwareUpdate fn), (7, .attestationQuote fn)] → exec i s = .next (reply k fn 2 [(0, [0xFF])])) ∧
    (∀ st l, ((reply s fn st l).teasel.mail[fn]).status = st ∧ ∀ o b, l = [(o, b)] → ∀ i, i < b.length →
      fget 0 ((reply s fn st l).teasel.mail[fn]).resp (o + i) = b.getD i 0) ∧
    (∀ i, s.asks fn 1 part 0 0 [] → exec (.packageReset fn i) s = .next (bootRun (reply k fn 1 []) i)) ∧
    (s.asks fn 2 part 0 0 [(8, 8), (16, 8)] → w 8 % 64 = 0 → 1 ≤ w 16 → w 16 ≤ 4 →
      let l := (List.range (w 16)).map fun i => descOf (busBytes s (w 8 + 64 * i) 64) 0
      (descsOk l = false → exec (.writePartitionDescriptors fn) s = .next (reply k fn 2 [(0, [1])])) ∧
      (descsOk l = true → s.hub.recs = [] → ∃ t, exec (.writePartitionDescriptors fn) s = .next (reply t fn 1 []) ∧ t.mem = s.mem ∧
        t.hub.parts.map (fun p => (p.cubes, p.fpid, p.asidtab, p.pintab, p.queues)) =
          l.map fun x => (x.cubes, BitVec.ofNat 12 (bits x.w0 16 12), x.asidtab, x.pintab, BitVec.ofNat 64 x.queues))) ∧
    (s.asks fn 3 part 0 0 [(8, 8), (16, 8), (24, 8)] → w 8 % 65536 = 0 → w 16 = 1 → w 24 ≤ 3 →
      (inPart d (w 8) = false → exec (.pinTableChange fn) s = .next (reply k fn 2 [(0, [1])])) ∧
      (inPart d (w 8) = true → w 24 = 2 → exec (.pinTableChange fn) s = .next (reply k fn 2 [(0, [2])])) ∧
      (inPart d (w 8) = true → w 24 ≠ 2 → pinBusy s (w 8) 1 = true → exec (.pinTableChange fn) s =
        .next { k with teasel := { k.teasel with mail := k.teasel.mail.set fn { k.teasel.mail[fn] with status := 0 } } }) ∧
      (inPart d (w 8) = true → w 24 ≠ 2 → pinBusy s (w 8) 1 = false → ∃ t, exec (.pinTableChange fn) s = .next (reply t fn 1 [(8, leBytes 8 1)]) ∧
        pinCode t s.pkg d.pintab (w 8) = w 24 ∧ t.cubes = s.cubes ∧ t.hub = s.hub)) ∧
    (s.asks fn 4 part 0 0 [(8, 8), (16, 8), (24, 8), (32, 8), (40, 8)] → w 8 ≤ 15 →
      let top := recordLimits s.teasel
      let below := w 16 ≤ top.icmax ∧ w 24 ≤ top.tthr ∧ w 32 ≤ top.ttrip ∧ w 40 ≤ top.lcap
      (¬ below → exec (.commitLimitSet fn) s = .next (reply k fn 2 [(0, [1])])) ∧
      (below → w 32 ≤ w 24 → exec (.commitLimitSet fn) s = .next (reply k fn 2 [(0, [2])])) ∧
      (below → w 24 < w 32 → ∃ t, exec (.commitLimitSet fn) s = .next (reply t fn 1 []) ∧ t.teasel.fallback = false ∧ t.hub = s.hub ∧
        ∀ c : CubeId, (t.cube c).camp = if Nat.testBit (w 8) c.val then { (s.cube c).camp with lim := ⟨w 16, w 24, w 32, w 40⟩ } else (s.cube c).camp))

/-- R353, R359, R387, R394, R397, R398: the commands that configure and read a monitor, update the firmware, give a
quote, register an address-space identifier and drop one, each with its refusals, its effect and its response. An update
is staged and checked, then copied in an event of its own (the model's choice, log 107). The conventions of log entry 59
are the model choices here; digests and signatures are opaque, log entry 16. -/
def Obligations.MailboxCommandsAnswer : Prop :=
  ∀ (s : State) (fn : Fin 4) (part cube : Nat) (d : Part), partOf s part = some d →
    let w := reqWord s fn
    let k := s.kicked
    (∀ c, namedCube s ⟨5, part, cube, 0, true⟩ = some c → s.asks fn 5 part cube 0 [(8, 8), (16, 8), (24, 8), (32, 8), (40, 8)] → (hm : w 8 < 8) → w 32 < 2 ^ 32 →
      w 40 < 32 →
      (w 16 ≤ 4 → selOk (w 16) (w 24) = true → exec (.monitorConfigure fn) s = .next (reply (k.modCube c fun q => { q with
        mons := q.mons.set (w 8) ⟨w 16, w 24, w 32, w 40, 0, 0, 0, Vector.replicate 16 0⟩ }) fn 1 [])) ∧
      (w 16 ≤ 4 → selOk (w 16) (w 24) = false → exec (.monitorConfigure fn) s = .next (reply k fn 2 [(0, [2])])) ∧
      (4 < w 16 → w 16 < 8 → exec (.monitorConfigure fn) s = .next (reply k fn 2 [(0, [1])]))) ∧
    (∀ c, namedCube s ⟨5, part, cube, 1, true⟩ = some c → s.asks fn 5 part cube 1 [(8, 8)] → (hm : w 8 < 8) →
      let m := (s.cube c).mons[w 8]
      exec (.monitorRead fn) s = .next (reply k fn 1 [(8, leBytes 4 m.min), (0xC, leBytes 4 m.max), (0x10, leBytes 4 m.count),
        (0x14, m.bins.toList.flatMap (leBytes 4)), (0x58, leBytes 8 m.src), (0x60, leBytes 8 m.sel), (0x68, leBytes 8 m.base), (0x70, leBytes 8 m.shift)])) ∧
    (s.asks fn 6 part 0 0 [(8, 8), (16, 8)] → s.teasel.copying = false → w 8 % 64 = 0 →
      let img := busBytes s (w 8) (w 16)
      let good := imageOk s.teasel.vendorKey img = true ∧ minSeq s.teasel ≤ imgSeq img ∧ wordAt s.teasel.flash.seqrec 0 < imgSeq img
      (¬ good → ∃ t, exec (.firmwareUpdate fn) s =
          .next (reply t fn 2 [(0, [if imageOk s.teasel.vendorKey img = true then 2 else 1])]) ∧
        t.teasel.flash = { s.teasel.flash with staging := img } ∧ t.cubes = s.cubes) ∧
      (good → exec (.firmwareUpdate fn) s = .next { k with teasel := { k.teasel with
        copying := true, flash := { s.teasel.flash with staging := img }
        mail := k.teasel.mail.set fn { k.teasel.mail[fn] with status := 0 } } })) ∧
    -- the copy of an accepted image
    (s.teasel.power = true → s.teasel.copying = true → fn.val = 0 → let img := s.teasel.flash.staging
      ∃ t, exec (.firmwareUpdate fn) s = .next (reply t fn 1 [(8, leBytes 8 (imgSeq img))]) ∧ t.cubes = s.cubes ∧ t.mem = s.mem ∧
        t.teasel.copying = false ∧ t.teasel.flash = { s.teasel.flash with
          active := img, seqrec := seqRecord (deviceKey s.teasel.flash.record) img }) ∧
    (s.asks fn 7 part 0 0 [(8, 32)] →
      let t := s.teasel
      let nonce := (List.range 32).map fun i => reqByte s fn (8 + i)
      let d1 := (Config.sha512 t.flash.record).take 64
      let d2 := sliceB t.flash.active 0x10 64
      let d3 := (Config.sha512 (descBytes s)).take 64
      let sq := leBytes 8 (imgSeq t.flash.active)
      let rom := leBytes 8 t.romVersion.toNat
      exec (.attestationQuote fn) s = .next (reply k fn 1 [(8, d1), (0x48, sq), (0x50, d2), (0x90, rom), (0x98, d3),
        (0xD8, (Config.ed25519Sign (deviceKey t.flash.record) (Config.sha512 (nonce ++ d1 ++ sq ++ d2 ++ rom ++ d3))).take 64)])) ∧
    (s.asks fn 9 part 0 0 [(8, 8), (16, 8)] → w 8 ≤ 65535 → w 16 % 256 = 0 →
      (w 8 = 0 → exec (.asidRegister fn) s = .next (reply k fn 2 [(0, [1])])) ∧
      (w 8 ≠ 0 → inPart d (w 16) = false → exec (.asidRegister fn) s = .next (reply k fn 2 [(0, [3])])) ∧
      (w 8 ≠ 0 → inPart d (w 16) = true → ∃ t, exec (.asidRegister fn) s = .next (reply t fn 1 []) ∧ t.cubes = s.cubes ∧
        (w 16 < 2 ^ 42 → asidRoot t d (BitVec.ofNat 16 (w 8)) = some (w 16)))) ∧
    (s.asks fn 9 part 0 1 [(8, 8)] → w 8 ≤ 65535 →
      (w 8 ≠ 0 → (∃ r ∈ s.hub.recs, r.part = part ∧ r.asid.toNat = w 8) → exec (.asidDrop fn) s = .next (reply k fn 2 [(0, [2])])) ∧
      (w 8 ≠ 0 → s.hub.recs = [] → ∃ t, exec (.asidDrop fn) s = .next (reply t fn 1 []) ∧ asidRoot t d (BitVec.ofNat 16 (w 8)) = none ∧
        ∀ c : CubeId, let cut := fun (l : List TlbEnt) => l.filter fun e => !(decide (e.part = part) && decide (e.asid.toNat = w 8))
          let b := (s.cube c).tlb
          (t.cube c).tlb = if d.cubes.getLsbD c.val then
            ⟨cut b.fetch, cut b.ls, cut b.copy, cut b.msg, cut b.cube, cut b.nm, cut b.last⟩ else b))

/-- R276, R401, R402: a debugger attaches and detaches, halts, steps and resumes a frame, and reads and writes its
registers, words and bytes; a cube not attached, an empty frame and a running one are refused. The rights of a debug
access and its failures are the reading of log entry 60. -/
def Obligations.DebuggerActs : Prop :=
  ∀ (s : State) (fn : Fin 4) (part cube : Nat) (c : CubeId) (f : FrameId), (∀ a, namedCube s ⟨8, part, cube, a, true⟩ = some c) → fn.val = 0 →
    let w := reqWord s fn
    let k := s.kicked
    let q := s.cube c
    let r := s.frame c f
    let run := fun (x : DbgRun) => reply (k.modFrame c f fun r => { r with issue := { r.issue with dbg := x } }) fn 1 []
    let rw := [(8, 8), (0x18, 8), (0x20, 8), (0x28, 8)]
    (s.asks fn 8 part cube 0 [] → ∃ t, exec (.debugAttach fn) s = .next (reply t fn 1 []) ∧ t.cubes = (s.modCube c fun q => { q with dbgAttached := true }).cubes ∧
      t.teasel.logSeq = s.teasel.logSeq + 1 ∧ t.mem = s.mem) ∧
    (q.dbgAttached = false → ∀ a i, (a, i) ∈ [(1, Instr.debugDetach fn), (2, .debugEventsOn fn), (3, .debugEventsOff fn)] → s.asks fn 8 part cube a [] →
      exec i s = .next (reply k fn 2 [(0, [1])])) ∧
    (q.dbgAttached = true →
      (s.asks fn 8 part cube 1 [] → ∃ t, exec (.debugDetach fn) s = .next (reply t fn 1 []) ∧ (t.cube c).dbgAttached = false ∧ t.mem = s.mem ∧
        ∀ g, t.frame c g = { s.frame c g with issue := { (s.frame c g).issue with dbg := .run } }) ∧
      (s.asks fn 8 part cube 2 [] → exec (.debugEventsOn fn) s = .next (reply (k.modCube c fun q => { q with dbgEvents := true }) fn 1 [])) ∧
      (s.asks fn 8 part cube 3 [] → exec (.debugEventsOff fn) s = .next (reply (k.modCube c fun q => { q with dbgEvents := false }) fn 1 [])) ∧
      (w 8 = f.val → r.task.isSome = true →
        (s.asks fn 8 part cube 4 [(8, 8)] → exec (.debugHalt fn) s = .next (run .halted)) ∧
        (s.asks fn 8 part cube 5 [(8, 8), (16, 8)] → 1 ≤ w 16 → w 16 ≤ 65536 → exec (.debugStep fn) s = .next (run (.step (w 16)))) ∧
        (s.asks fn 8 part cube 6 [(8, 8)] → exec (.debugResume fn) s = .next (run .run)) ∧
        (r.issue.dbg ≠ .halted → w 0x18 < 3 → (s.asks fn 8 part cube 7 rw → exec (.debugRead fn) s = .next (reply k fn 2 [(0, [2])])) ∧
          (s.asks fn 8 part cube 8 (rw ++ [(0x100, 256)]) → exec (.debugWrite fn) s = .next (reply k fn 2 [(0, [2])]))) ∧
        (r.issue.dbg = .halted → w 0x18 = 1 → w 0x20 = 0x00D → s.asks fn 8 part cube 8 (rw ++ [(0x100, 256)]) →
          exec (.debugWrite fn) s = .next (reply k fn 2 [(0, [0xFF])])) ∧
        (r.issue.dbg = .halted → w 0x18 = 0 → ∀ file i, dbgReg (w 0x20) = some (file, i) →
          (s.asks fn 8 part cube 7 rw → exec (.debugRead fn) s = .next (reply k fn 1 [(8, List.replicate 8 0xFF), (0x100, leBytes 256 (r.regs.rdNo file i))])) ∧
          (s.asks fn 8 part cube 8 (rw ++ [(0x100, 256)]) → let v := leVal ((List.range 256).map fun i => reqByte s fn (0x100 + i))
            exec (.debugWrite fn) s = .next (reply (k.modFrame c f fun r => { r with regs := r.regs.wr file i (BitVec.ofNat 2048 v) }) fn 1
              [(8, List.replicate 8 0xFF)])))) ∧
      (w 8 = f.val → r.task = none → s.asks fn 8 part cube 4 [(8, 8)] → exec (.debugHalt fn) s = .next (reply k fn 2 [(0, [3])]))) ∧
    (s.teasel.power = true → r.issue.dbg = .step 0 →
      exec (.debugStepDone c f) s = .next (s.modFrame c f fun r => { r with issue := { r.issue with dbg := .halted } })) ∧
    (s.teasel.power = true → (∀ n, r.issue.dbg = .step n → n ≠ 0) → exec (.debugStepDone c f) s = .next s)

/-- R114, R115, R130 to R137: a well-formed instruction has a word in the slots of its unit, and in every slot the word
that the encoder gives a well-formed instruction decodes to it, each operand as it was. -/
def Obligations.DecodeAndEncodeAgree : Prop :=
  ∀ i : Instr, i.wf = true →
    (i.unit = some .ctl → (encodeCtl i).isSome) ∧ (i.unit = some .xy → (encodeXY i).isSome) ∧
    (i.unit = some .a → (encodeA i).isSome) ∧ (i.unit = some .v → (encodeV i).isSome) ∧
    (i.unit = some .ls → (encodeLS i).isSome) ∧ (i.unit = some .cc → (encodeCC i).isSome) ∧
    (∀ w, encodeCtl i = some w → decodeCtl w = .ok i) ∧
    (∀ u w, encodeXY i = some (u, w) → decodeXY u w = .ok i) ∧
    (∀ w, encodeA i = some w → decodeA w = .ok i) ∧
    (∀ w, encodeV i = some w → decodeV w = .ok i) ∧
    (∀ w, encodeLS i = some w → decodeLS w = .ok i) ∧
    (∀ w, encodeCC i = some w → decodeCC w = .ok i)

/-- R65, R76: every step keeps the global memory and the poison of its lines in canonical form, from every state. -/
def Obligations.MemoryKept : Prop :=
  ∀ s t : State, s.memWf → step s = .next t → t.memWf

/-- R10, R23, R60, R315, R333, R367, R377, R378, R382, R385: what reset leaves, and the canonical memory. The limits are
those of the shipped record, which R377 gives; that no layer is in service before boot and that no record, write or
queue entry stands are the choice of log entry 27. -/
def Obligations.ResetLeaves : Prop :=
  let s := State.reset
  s.memWf ∧ s.hub.recs = [] ∧ s.merge = [] ∧
  (∀ c : CubeId,
    let q := s.cube c
    q.ctl.dplimit = 65536 ∧ q.ctl.unsched = 8192 ∧ q.ctl.grantq = 65536 ∧ q.ctl.grantmax = 8 ∧ q.ctl.tokexp = 20 ∧ q.ctl.orphto = 1000 ∧
    q.ctl.floor = 0 ∧ q.ctl.ramp = 0 ∧ q.camp.s = 0 ∧ q.camp.lrep = 828 ∧ q.camp.changes = 0 ∧ q.camp.cause = 0 ∧
    q.camp.lim = ⟨1150, 95, 110, 828⟩ ∧ q.fab.insvc = 0) ∧
  (∀ q : Fin 64, s.hub.queues[q].en = false ∧ s.hub.queues[q].level = 3 ∧ s.hub.queues[q].weight = 1)

/-- R130 to R137: the spec's worked encodings, one or more of each slot, decode to their instructions. -/
def Obligations.WorkedEncodingsDecode : Prop :=
  decodeCtl 0x18E980 = .ok (.lsetImm 2 99) ∧
  decodeXY .x 0x111892140 = .ok (.mulh .x .s32 9 2 3) ∧
  decodeXY .x 0x00090C080 = .ok (.addi .x 6 4 1) ∧
  decodeA 0x0031882100 = .ok (.aidx 1 2 3 3) ∧
  decodeLS 0x1D0014C30300 = .ok (.atom .add .pkg true 3 .x 3 6 5 0) ∧
  decodeLS 0xFFFC44A401C0 = .ok (.gld .x .s32 4 5 (-8)) ∧
  decodeLS 0x0010018300C0 = .ok (.vld 12 3 256) ∧
  decodeLS 0x000000010340 = .ok (.drain .nm) ∧
  decodeLS 0x000049944200 = .ok (.gst .y .s64 20 12 0) ∧
  decodeCC 0x0DFE62290040 = .ok (.cmma 2 4 5 6 0xFF 3) ∧
  decodeCC 0x000000104380 = .ok (.semw 1 2) ∧
  decodeCC 0x0000080104C0 = .ok (.crw 4 0x100) ∧ decodeCC 0x00000810C480 = .ok (.crr 3 0x102) ∧
  decodeCC 0x00000028C580 = .ok (.tlbi 5 3) ∧ decodeCC 0x0000000A85C0 = .ok (.dbg 0x2A) ∧
  decodeCC 0xFC0001514200 = .ok (.nmc 5 true 10 0x3F) ∧ decodeCC 0xFC000062C1C0 = .ok (.putfReg 11 12 0x3F) ∧
  decodeCC 0xFC000003C180 = .ok (.msend 15 0 0x3F) ∧
  decodeV 0x2022160A8506C0 = .ok (.vscan .add false true .s32 .rn false 20 21 22)
end

