-- ==== Sys2Proof/Laws/Arith.lean ====
section
/-! SUPPORT. The arithmetic helpers of the meanings in terms of bit vectors. -/

namespace Sys2Proof.Machine

theorem shiftLeft_one (n : Nat) : 1 <<< n = 2 ^ n := by simp [Nat.shiftLeft_eq]

/-- The low bits of an integer are its bit vector. -/
theorem lowBits_eq (w : Nat) (i : Int) : lowBits w i = (BitVec.ofInt w i).toNat := by
  simp [lowBits, shiftLeft_one, BitVec.toNat_ofInt]

theorem lowBits_natCast (w n : Nat) : lowBits w (n : Int) = n % 2 ^ w := by
  simp only [lowBits, shiftLeft_one, ← Int.natCast_emod, Int.toNat_natCast]

theorem w64_lowBits (i : Int) : w64 (lowBits 64 i) = BitVec.ofInt 64 i := by
  rw [w64, lowBits_eq, BitVec.ofNat_toNat, BitVec.setWidth_eq]

/-- The signed reading of a word's bits (R157). -/
theorem toSigned_toNat {w : Nat} (x : BitVec w) : toSigned w x.toNat = x.toInt := by
  unfold toSigned
  rw [BitVec.testBit_toNat, BitVec.toInt_eq_msb_cond, BitVec.msb_eq_getLsbD_last]
  simp [shiftLeft_one]

/-- The bits that a register contributes are those of `srcW` (R157). -/
theorem opW_eq (t : Ty) (v : Word) : opW t v = (srcW t v).toNat := by
  simp [opW, srcW, shiftLeft_one]

theorem width_pos (t : Ty) : 0 < t.width := by cases t <;> decide

/-- The result as it is written is that of `dstW` (R157). -/
theorem outW_eq (t : Ty) (n : Nat) : outW t n = dstW t (BitVec.ofNat t.width n) := by
  have hn : n % 1 <<< t.width = (BitVec.ofNat t.width n).toNat := by simp [shiftLeft_one]
  simp only [outW, dstW, hn, toSigned_toNat, w64_lowBits]
  split
  · rw [BitVec.signExtend]
  · apply BitVec.eq_of_toNat_eq; simp [w64]

theorem scalar_width {t : Ty} (h : t.isScalar = true) : t.width ≤ 64 := by revert h; cases t <;> decide

end Sys2Proof.Machine
end

