-- ==== Sys2Proof/Laws/FMap.lean ====
section
/-! SUPPORT. Sparse maps: what a read after a write gives, for every list, and that a write keeps the canonical form. -/

namespace Sys2Proof.Machine

variable {α : Type}

@[simp] theorem fget_nil (d : α) (k : Nat) : fget d ([] : FMap α) k = d := rfl
@[simp] theorem fwf_nil [DecidableEq α] (d : α) : fwf d ([] : FMap α) = true := rfl

theorem fget_fdel_same (d : α) (k : Nat) : ∀ m : FMap α, fget d (fdel k m) k = d
  | [] => rfl
  | (a, v) :: l => by
    by_cases h : a = k <;> simp [fdel, fget, h, fget_fdel_same d k l]

theorem fget_fdel_other (d : α) (k j : Nat) (hj : j ≠ k) : ∀ m : FMap α, fget d (fdel k m) j = fget d m j
  | [] => rfl
  | (a, v) :: l => by
    have ih := fget_fdel_other d k j hj l
    by_cases h : a = k
    · simp [fdel, fget, h, hj.symm, ih]
    · simp [fdel, fget, h, ih]

theorem fget_fput_same (d : α) (k : Nat) (v : α) : ∀ m : FMap α, fget d (fput k v (fdel k m)) k = v
  | [] => by simp [fdel, fput, fget]
  | (a, w) :: l => by
    have ih := fget_fput_same d k v l
    by_cases h : a = k
    · simp [fdel, h, ih]
    · by_cases h2 : k < a <;> simp [fdel, fput, fget, h, h2, ih]

theorem fget_fput_other (d : α) (k j : Nat) (v : α) (hj : j ≠ k) : ∀ m : FMap α, fget d (fput k v m) j = fget d m j
  | [] => by simp [fput, fget, hj.symm]
  | (a, w) :: l => by
    have ih := fget_fput_other d k j v hj l
    by_cases h2 : k < a <;> simp [fput, fget, h2, hj.symm, ih]

/-- Reading the key just written gives the value written. -/
@[simp] theorem fget_fset_same [DecidableEq α] (d : α) (m : FMap α) (k : Nat) (v : α) : fget d (fset d m k v) k = v := by
  by_cases h : v = d <;> simp [fset, h, fget_fdel_same, fget_fput_same]

/-- Reading another key is not affected by a write. -/
theorem fget_fset_other [DecidableEq α] (d : α) (m : FMap α) (k j : Nat) (v : α) (hj : j ≠ k) :
    fget d (fset d m k v) j = fget d m j := by
  by_cases h : v = d <;> simp [fset, h, fget_fdel_other d k j hj, fget_fput_other d k j v hj]

theorem fget_fset [DecidableEq α] (d : α) (m : FMap α) (k j : Nat) (v : α) :
    fget d (fset d m k v) j = if j = k then v else fget d m j := by
  by_cases h : j = k
  · subst h; simp
  · simp [h, fget_fset_other d m k j v h]

/-- A bound may be lowered. -/
theorem fwfFrom_weaken [DecidableEq α] (d : α) (m : FMap α) (lo lo' : Option Nat)
    (hb : ∀ b', lo' = some b' → ∃ b, lo = some b ∧ b' ≤ b) (h : fwfFrom d lo m = true) : fwfFrom d lo' m = true := by
  cases m with
  | nil => rfl
  | cons e l =>
    obtain ⟨a, v⟩ := e
    simp only [fwfFrom, Bool.and_eq_true] at h ⊢
    refine ⟨⟨?_, h.1.2⟩, h.2⟩
    cases lo' with
    | none => rfl
    | some b' =>
      obtain ⟨b, hb1, hb2⟩ := hb b' rfl
      subst hb1
      have := h.1.1
      simp only [decide_eq_true_eq] at this ⊢
      omega

theorem fwfFrom_fdel [DecidableEq α] (d : α) (k : Nat) : ∀ (m : FMap α) (lo : Option Nat),
    fwfFrom d lo m = true → fwfFrom d lo (fdel k m) = true
  | [], _, _ => rfl
  | (a, v) :: l, lo, h => by
    simp only [fwfFrom, Bool.and_eq_true] at h
    by_cases hk : a = k
    · simp only [fdel, hk, if_true]
      refine fwfFrom_weaken d _ (some a) lo ?_ (fwfFrom_fdel d k l (some a) h.2)
      intro b' hb
      subst hb
      have := h.1.1
      simp only [decide_eq_true_eq] at this
      exact ⟨a, rfl, by omega⟩
    · simp only [fdel, hk, if_false, fwfFrom, Bool.and_eq_true]
      exact ⟨h.1, fwfFrom_fdel d k l (some a) h.2⟩

theorem fwfFrom_fput [DecidableEq α] (d : α) (k : Nat) (v : α) (hv : v ≠ d) : ∀ (m : FMap α) (lo : Option Nat),
    (∀ b, lo = some b → b < k) → fwfFrom d lo (fdel k m) = true → fwfFrom d lo (fput k v (fdel k m)) = true
  | [], lo, hb, _ => by
    cases lo with
    | none => simp [fdel, fput, fwfFrom, hv]
    | some b => simp [fdel, fput, fwfFrom, hv, hb b rfl]
  | (a, w) :: l, lo, hb, h => by
    by_cases hk : a = k
    · simp only [fdel, hk, if_true] at h ⊢
      exact fwfFrom_fput d k v hv l lo hb h
    · simp only [fdel, hk, if_false, fwfFrom, Bool.and_eq_true] at h
      simp only [fdel, hk, if_false, fput]
      by_cases h2 : k < a
      · simp only [h2, if_true, fwfFrom, Bool.and_eq_true, decide_eq_true_eq]
        refine ⟨⟨?_, hv⟩, ⟨trivial, by simpa using h.1.2⟩, h.2⟩
        cases lo with
        | none => rfl
        | some b => simpa using hb b rfl
      · simp only [h2, if_false, fwfFrom, Bool.and_eq_true]
        refine ⟨h.1, fwfFrom_fput d k v hv l (some a) ?_ h.2⟩
        intro b hb'
        cases hb'
        omega

/-- A write keeps the canonical form. -/
theorem fwf_fset [DecidableEq α] (d : α) (m : FMap α) (k : Nat) (v : α) (h : fwf d m = true) :
    fwf d (fset d m k v) = true := by
  by_cases hv : v = d
  · simpa [fset, hv, fwf] using fwfFrom_fdel d k m none h
  · simpa [fset, hv, fwf] using fwfFrom_fput d k v hv m none (by simp) (fwfFrom_fdel d k m none h)

/-- Dropping entries keeps the canonical form. -/
theorem fwfFrom_filter [DecidableEq α] (d : α) (p : Nat × α → Bool) : ∀ (m : FMap α) (lo : Option Nat),
    fwfFrom d lo m = true → fwfFrom d lo (m.filter p) = true
  | [], _, _ => rfl
  | (a, v) :: l, lo, h => by
    simp only [fwfFrom, Bool.and_eq_true] at h
    by_cases hp : p (a, v) = true
    · simp only [List.filter_cons, hp, if_true, fwfFrom, Bool.and_eq_true]
      exact ⟨h.1, fwfFrom_filter d p l (some a) h.2⟩
    · simp only [List.filter_cons, hp]
      refine fwfFrom_weaken d _ (some a) lo ?_ (fwfFrom_filter d p l (some a) h.2)
      intro b' hb
      subst hb
      have := h.1.1
      simp only [decide_eq_true_eq] at this
      exact ⟨a, rfl, by omega⟩

theorem fwf_filter [DecidableEq α] (d : α) (m : FMap α) (p : Nat × α → Bool) (h : fwf d m = true) :
    fwf d (m.filter p) = true := fwfFrom_filter d p m none h

end Sys2Proof.Machine
end

