-- ==== Sys2Proof/Laws/State.lean ====
section
/-! SUPPORT. One lemma per field of the state and per update of a part, so that nothing later unfolds a record update. -/

namespace Sys2Proof.Machine

@[simp] theorem State.setCube_mem (s : State) (c : CubeId) (q : Cube) : (s.setCube c q).mem = s.mem := rfl
@[simp] theorem State.setCube_poison (s : State) (c : CubeId) (q : Cube) : (s.setCube c q).poison = s.poison := rfl
@[simp] theorem State.setCube_merge (s : State) (c : CubeId) (q : Cube) : (s.setCube c q).merge = s.merge := rfl
@[simp] theorem State.setCube_nextMid (s : State) (c : CubeId) (q : Cube) : (s.setCube c q).nextMid = s.nextMid := rfl
@[simp] theorem State.setCube_hub (s : State) (c : CubeId) (q : Cube) : (s.setCube c q).hub = s.hub := rfl
@[simp] theorem State.setCube_teasel (s : State) (c : CubeId) (q : Cube) : (s.setCube c q).teasel = s.teasel := rfl
@[simp] theorem State.setCube_pkg (s : State) (c : CubeId) (q : Cube) : (s.setCube c q).pkg = s.pkg := rfl
@[simp] theorem State.setCube_cur (s : State) (c : CubeId) (q : Cube) : (s.setCube c q).cur = s.cur := rfl
@[simp] theorem State.setCube_now (s : State) (c : CubeId) (q : Cube) : (s.setCube c q).now = s.now := rfl
@[simp] theorem State.setCube_fresh (s : State) (c : CubeId) (q : Cube) : (s.setCube c q).fresh = s.fresh := rfl
@[simp] theorem State.setCube_agenda (s : State) (c : CubeId) (q : Cube) : (s.setCube c q).agenda = s.agenda := rfl
@[simp] theorem State.modCube_mem (s : State) (c : CubeId) (g : Cube → Cube) : (s.modCube c g).mem = s.mem := rfl
@[simp] theorem State.modCube_poison (s : State) (c : CubeId) (g : Cube → Cube) : (s.modCube c g).poison = s.poison := rfl
@[simp] theorem State.modCube_merge (s : State) (c : CubeId) (g : Cube → Cube) : (s.modCube c g).merge = s.merge := rfl
@[simp] theorem State.modCube_nextMid (s : State) (c : CubeId) (g : Cube → Cube) : (s.modCube c g).nextMid = s.nextMid := rfl
@[simp] theorem State.modCube_hub (s : State) (c : CubeId) (g : Cube → Cube) : (s.modCube c g).hub = s.hub := rfl
@[simp] theorem State.modCube_teasel (s : State) (c : CubeId) (g : Cube → Cube) : (s.modCube c g).teasel = s.teasel := rfl
@[simp] theorem State.modCube_pkg (s : State) (c : CubeId) (g : Cube → Cube) : (s.modCube c g).pkg = s.pkg := rfl
@[simp] theorem State.modCube_cur (s : State) (c : CubeId) (g : Cube → Cube) : (s.modCube c g).cur = s.cur := rfl
@[simp] theorem State.modCube_now (s : State) (c : CubeId) (g : Cube → Cube) : (s.modCube c g).now = s.now := rfl
@[simp] theorem State.modCube_fresh (s : State) (c : CubeId) (g : Cube → Cube) : (s.modCube c g).fresh = s.fresh := rfl
@[simp] theorem State.modCube_agenda (s : State) (c : CubeId) (g : Cube → Cube) : (s.modCube c g).agenda = s.agenda := rfl
@[simp] theorem State.setFrame_mem (s : State) (c : CubeId) (f : FrameId) (r : Frame) : (s.setFrame c f r).mem = s.mem := rfl
@[simp] theorem State.setFrame_poison (s : State) (c : CubeId) (f : FrameId) (r : Frame) : (s.setFrame c f r).poison = s.poison := rfl
@[simp] theorem State.setFrame_merge (s : State) (c : CubeId) (f : FrameId) (r : Frame) : (s.setFrame c f r).merge = s.merge := rfl
@[simp] theorem State.setFrame_nextMid (s : State) (c : CubeId) (f : FrameId) (r : Frame) : (s.setFrame c f r).nextMid = s.nextMid := rfl
@[simp] theorem State.setFrame_hub (s : State) (c : CubeId) (f : FrameId) (r : Frame) : (s.setFrame c f r).hub = s.hub := rfl
@[simp] theorem State.setFrame_teasel (s : State) (c : CubeId) (f : FrameId) (r : Frame) : (s.setFrame c f r).teasel = s.teasel := rfl
@[simp] theorem State.setFrame_pkg (s : State) (c : CubeId) (f : FrameId) (r : Frame) : (s.setFrame c f r).pkg = s.pkg := rfl
@[simp] theorem State.setFrame_cur (s : State) (c : CubeId) (f : FrameId) (r : Frame) : (s.setFrame c f r).cur = s.cur := rfl
@[simp] theorem State.setFrame_now (s : State) (c : CubeId) (f : FrameId) (r : Frame) : (s.setFrame c f r).now = s.now := rfl
@[simp] theorem State.setFrame_fresh (s : State) (c : CubeId) (f : FrameId) (r : Frame) : (s.setFrame c f r).fresh = s.fresh := rfl
@[simp] theorem State.setFrame_agenda (s : State) (c : CubeId) (f : FrameId) (r : Frame) : (s.setFrame c f r).agenda = s.agenda := rfl
@[simp] theorem State.modFrame_mem (s : State) (c : CubeId) (f : FrameId) (g : Frame → Frame) : (s.modFrame c f g).mem = s.mem := rfl
@[simp] theorem State.modFrame_poison (s : State) (c : CubeId) (f : FrameId) (g : Frame → Frame) : (s.modFrame c f g).poison = s.poison := rfl
@[simp] theorem State.modFrame_merge (s : State) (c : CubeId) (f : FrameId) (g : Frame → Frame) : (s.modFrame c f g).merge = s.merge := rfl
@[simp] theorem State.modFrame_nextMid (s : State) (c : CubeId) (f : FrameId) (g : Frame → Frame) : (s.modFrame c f g).nextMid = s.nextMid := rfl
@[simp] theorem State.modFrame_hub (s : State) (c : CubeId) (f : FrameId) (g : Frame → Frame) : (s.modFrame c f g).hub = s.hub := rfl
@[simp] theorem State.modFrame_teasel (s : State) (c : CubeId) (f : FrameId) (g : Frame → Frame) : (s.modFrame c f g).teasel = s.teasel := rfl
@[simp] theorem State.modFrame_pkg (s : State) (c : CubeId) (f : FrameId) (g : Frame → Frame) : (s.modFrame c f g).pkg = s.pkg := rfl
@[simp] theorem State.modFrame_cur (s : State) (c : CubeId) (f : FrameId) (g : Frame → Frame) : (s.modFrame c f g).cur = s.cur := rfl
@[simp] theorem State.modFrame_now (s : State) (c : CubeId) (f : FrameId) (g : Frame → Frame) : (s.modFrame c f g).now = s.now := rfl
@[simp] theorem State.modFrame_fresh (s : State) (c : CubeId) (f : FrameId) (g : Frame → Frame) : (s.modFrame c f g).fresh = s.fresh := rfl
@[simp] theorem State.modFrame_agenda (s : State) (c : CubeId) (f : FrameId) (g : Frame → Frame) : (s.modFrame c f g).agenda = s.agenda := rfl
@[simp] theorem State.modCf_mem (s : State) (g : Frame → Frame) : (s.modCf g).mem = s.mem := rfl
@[simp] theorem State.modCf_poison (s : State) (g : Frame → Frame) : (s.modCf g).poison = s.poison := rfl
@[simp] theorem State.modCf_merge (s : State) (g : Frame → Frame) : (s.modCf g).merge = s.merge := rfl
@[simp] theorem State.modCf_nextMid (s : State) (g : Frame → Frame) : (s.modCf g).nextMid = s.nextMid := rfl
@[simp] theorem State.modCf_hub (s : State) (g : Frame → Frame) : (s.modCf g).hub = s.hub := rfl
@[simp] theorem State.modCf_teasel (s : State) (g : Frame → Frame) : (s.modCf g).teasel = s.teasel := rfl
@[simp] theorem State.modCf_pkg (s : State) (g : Frame → Frame) : (s.modCf g).pkg = s.pkg := rfl
@[simp] theorem State.modCf_cur (s : State) (g : Frame → Frame) : (s.modCf g).cur = s.cur := rfl
@[simp] theorem State.modCf_now (s : State) (g : Frame → Frame) : (s.modCf g).now = s.now := rfl
@[simp] theorem State.modCf_fresh (s : State) (g : Frame → Frame) : (s.modCf g).fresh = s.fresh := rfl
@[simp] theorem State.modCf_agenda (s : State) (g : Frame → Frame) : (s.modCf g).agenda = s.agenda := rfl

@[simp] theorem State.modHub_mem (s : State) (g : Hub → Hub) : (s.modHub g).mem = s.mem := rfl
@[simp] theorem State.modHub_poison (s : State) (g : Hub → Hub) : (s.modHub g).poison = s.poison := rfl
@[simp] theorem State.modHub_merge (s : State) (g : Hub → Hub) : (s.modHub g).merge = s.merge := rfl
@[simp] theorem State.modHub_nextMid (s : State) (g : Hub → Hub) : (s.modHub g).nextMid = s.nextMid := rfl
@[simp] theorem State.modHub_hub (s : State) (g : Hub → Hub) : (s.modHub g).hub = g s.hub := rfl
@[simp] theorem State.modHub_teasel (s : State) (g : Hub → Hub) : (s.modHub g).teasel = s.teasel := rfl
@[simp] theorem State.modHub_pkg (s : State) (g : Hub → Hub) : (s.modHub g).pkg = s.pkg := rfl
@[simp] theorem State.modHub_cur (s : State) (g : Hub → Hub) : (s.modHub g).cur = s.cur := rfl
@[simp] theorem State.modHub_now (s : State) (g : Hub → Hub) : (s.modHub g).now = s.now := rfl
@[simp] theorem State.modHub_fresh (s : State) (g : Hub → Hub) : (s.modHub g).fresh = s.fresh := rfl
@[simp] theorem State.modHub_agenda (s : State) (g : Hub → Hub) : (s.modHub g).agenda = s.agenda := rfl
@[simp] theorem State.modHub_cubes (s : State) (g : Hub → Hub) : (s.modHub g).cubes = s.cubes := rfl
@[simp] theorem State.modTeasel_mem (s : State) (g : Teasel → Teasel) : (s.modTeasel g).mem = s.mem := rfl
@[simp] theorem State.modTeasel_poison (s : State) (g : Teasel → Teasel) : (s.modTeasel g).poison = s.poison := rfl
@[simp] theorem State.modTeasel_merge (s : State) (g : Teasel → Teasel) : (s.modTeasel g).merge = s.merge := rfl
@[simp] theorem State.modTeasel_nextMid (s : State) (g : Teasel → Teasel) : (s.modTeasel g).nextMid = s.nextMid := rfl
@[simp] theorem State.modTeasel_hub (s : State) (g : Teasel → Teasel) : (s.modTeasel g).hub = s.hub := rfl
@[simp] theorem State.modTeasel_teasel (s : State) (g : Teasel → Teasel) : (s.modTeasel g).teasel = g s.teasel := rfl
@[simp] theorem State.modTeasel_pkg (s : State) (g : Teasel → Teasel) : (s.modTeasel g).pkg = s.pkg := rfl
@[simp] theorem State.modTeasel_cur (s : State) (g : Teasel → Teasel) : (s.modTeasel g).cur = s.cur := rfl
@[simp] theorem State.modTeasel_now (s : State) (g : Teasel → Teasel) : (s.modTeasel g).now = s.now := rfl
@[simp] theorem State.modTeasel_fresh (s : State) (g : Teasel → Teasel) : (s.modTeasel g).fresh = s.fresh := rfl
@[simp] theorem State.modTeasel_agenda (s : State) (g : Teasel → Teasel) : (s.modTeasel g).agenda = s.agenda := rfl
@[simp] theorem State.modTeasel_cubes (s : State) (g : Teasel → Teasel) : (s.modTeasel g).cubes = s.cubes := rfl
@[simp] theorem State.take_mem (s : State) : s.take.2.mem = s.mem := rfl
@[simp] theorem State.take_poison (s : State) : s.take.2.poison = s.poison := rfl
@[simp] theorem State.take_merge (s : State) : s.take.2.merge = s.merge := rfl
@[simp] theorem State.take_nextMid (s : State) : s.take.2.nextMid = s.nextMid := rfl
@[simp] theorem State.take_hub (s : State) : s.take.2.hub = s.hub := rfl
@[simp] theorem State.take_teasel (s : State) : s.take.2.teasel = s.teasel := rfl
@[simp] theorem State.take_pkg (s : State) : s.take.2.pkg = s.pkg := rfl
@[simp] theorem State.take_cur (s : State) : s.take.2.cur = s.cur := rfl
@[simp] theorem State.take_now (s : State) : s.take.2.now = s.now := rfl
@[simp] theorem State.take_agenda (s : State) : s.take.2.agenda = s.agenda := rfl
@[simp] theorem State.take_cubes (s : State) : s.take.2.cubes = s.cubes := rfl
@[simp] theorem State.take_fresh (s : State) : s.take.2.fresh = s.fresh + 1 := rfl
@[simp] theorem State.take_value (s : State) : s.take.1 = Config.free s.fresh := rfl

/-! Cubes and frames. -/

@[simp] theorem State.cube_setCube (s : State) (c d : CubeId) (q : Cube) :
    (s.setCube c q).cube d = if d = c then q else s.cube d := by
  simp only [State.cube, State.setCube, Fin.getElem_fin, Vector.getElem_set, Fin.ext_iff]
  by_cases h : c.val = d.val <;> simp [h, eq_comm]
@[simp] theorem State.cube_modCube (s : State) (c d : CubeId) (g : Cube → Cube) :
    (s.modCube c g).cube d = if d = c then g (s.cube c) else s.cube d := by simp [State.modCube]
@[simp] theorem Cube.frame_setFrame (q : Cube) (f g : FrameId) (r : Frame) :
    (q.setFrame f r).frame g = if g = f then r else q.frame g := by
  simp only [Cube.frame, Cube.setFrame, Fin.getElem_fin, Vector.getElem_set, Fin.ext_iff]
  by_cases h : f.val = g.val <;> simp [h, eq_comm]
@[simp] theorem State.frame_setFrame_same (s : State) (c : CubeId) (f : FrameId) (r : Frame) :
    (s.setFrame c f r).frame c f = r := by simp [State.frame, State.setFrame]
theorem State.frame_setFrame (s : State) (c d : CubeId) (f g : FrameId) (r : Frame) :
    (s.setFrame c f r).frame d g = if d = c ∧ g = f then r else s.frame d g := by
  by_cases h : d = c
  · subst h; by_cases h2 : g = f <;> simp [State.frame, State.setFrame, h2]
  · simp [State.frame, State.setFrame, h]
@[simp] theorem State.frame_modFrame_same (s : State) (c : CubeId) (f : FrameId) (g : Frame → Frame) :
    (s.modFrame c f g).frame c f = g (s.frame c f) := by simp [State.modFrame]
theorem State.frame_modFrame (s : State) (c d : CubeId) (f h : FrameId) (g : Frame → Frame) :
    (s.modFrame c f g).frame d h = if d = c ∧ h = f then g (s.frame c f) else s.frame d h := by
  simp [State.modFrame, State.frame_setFrame]
/-- A part written back as it stands changes nothing. -/
@[simp] theorem State.setCube_cube (s : State) (c : CubeId) : s.setCube c (s.cube c) = s := by
  simp [State.setCube, State.cube]
@[simp] theorem Cube.setFrame_frame (q : Cube) (f : FrameId) : q.setFrame f (q.frame f) = q := by
  simp [Cube.setFrame, Cube.frame]
@[simp] theorem State.setFrame_frame (s : State) (c : CubeId) (f : FrameId) : s.setFrame c f (s.frame c f) = s := by
  simp [State.setFrame, State.modCube, State.frame]
@[simp] theorem State.setCube_setCube (s : State) (c : CubeId) (p q : Cube) : (s.setCube c p).setCube c q = s.setCube c q := by
  simp [State.setCube]
@[simp] theorem Cube.setFrame_setFrame (q : Cube) (f : FrameId) (a b : Frame) : (q.setFrame f a).setFrame f b = q.setFrame f b := by
  simp [Cube.setFrame]
@[simp] theorem State.modCube_modCube (s : State) (c : CubeId) (g h : Cube → Cube) :
    (s.modCube c g).modCube c h = s.modCube c fun q => h (g q) := by simp [State.modCube]
@[simp] theorem State.setFrame_setFrame (s : State) (c : CubeId) (f : FrameId) (a b : Frame) :
    (s.setFrame c f a).setFrame c f b = s.setFrame c f b := by simp [State.setFrame]
@[simp] theorem State.modFrame_modFrame (s : State) (c : CubeId) (f : FrameId) (g h : Frame → Frame) :
    (s.modFrame c f g).modFrame c f h = s.modFrame c f fun r => h (g r) := by simp [State.modFrame]
@[simp] theorem Cube.setFrame_running (q : Cube) (f : FrameId) (r : Frame) : (q.setFrame f r).running = q.running := rfl
@[simp] theorem State.modFrame_curF (s : State) (c : CubeId) (f : FrameId) (g : Frame → Frame) :
    (s.modFrame c f g).curF = s.curF := by
  simp only [State.curF, State.modFrame, State.setFrame, State.modCube_cur, State.cube_modCube]
  split <;> simp_all

end Sys2Proof.Machine
end

