-- ==== Sys2Proof/Laws/Issue.lean ====
section
/-! SUPPORT. What one attempt to issue does at a quiet core. -/

namespace Sys2Proof.Machine

theorem quiet_fl {r : Frame} (h : r.quiet = true) :
    r.fl = { Flight.none with heldDue := r.fl.heldDue, heldTraps := r.fl.heldTraps, heldLand := r.fl.heldLand } := by
  simp only [Frame.quiet, Bool.and_eq_true, decide_eq_true_eq] at h
  exact h.1.1.1.1.1.1

section
variable {r : Frame} (h : r.quiet = true)
include h
theorem quiet_land : r.fl.land = [] := by rw [quiet_fl h]; rfl
theorem quiet_var : r.fl.var = [] := by rw [quiet_fl h]; rfl
theorem quiet_due : r.fl.due = [] := by rw [quiet_fl h]; rfl
theorem quiet_traps : r.fl.traps = [] := by rw [quiet_fl h]; rfl
theorem quiet_ls : r.fl.ls = [] := by rw [quiet_fl h]; rfl
theorem quiet_fly : r.fl.fly = [] := by rw [quiet_fl h]; rfl
theorem quiet_cubeQ : r.fl.cubeQ = [] := by rw [quiet_fl h]; rfl
theorem quiet_cubeA : r.fl.cubeA = [] := by rw [quiet_fl h]; rfl
theorem quiet_copyQ : r.fl.copyQ = [] := by rw [quiet_fl h]; rfl
theorem quiet_copyA : r.fl.copyA = [] := by rw [quiet_fl h]; rfl
theorem quiet_syncQ : r.fl.syncQ = [] := by rw [quiet_fl h]; rfl
theorem quiet_msgs : r.fl.msgs = [] := by rw [quiet_fl h]; rfl
theorem quiet_refusal : r.sync.refusal = none := by
  simp only [Frame.quiet, Bool.and_eq_true, Option.isNone_iff_eq_none] at h; exact h.1.1.1.1.1.2
theorem quiet_preempt : r.issue.preempt = none := by
  simp only [Frame.quiet, Bool.and_eq_true, Option.isNone_iff_eq_none] at h; exact h.1.1.1.1.2
theorem quiet_slice : r.issue.slice = none := by
  simp only [Frame.quiet, Bool.and_eq_true, Option.isNone_iff_eq_none] at h; exact h.1.1.1.2
theorem quiet_barred : r.issue.barred = false := by
  simp only [Frame.quiet, Bool.and_eq_true, Bool.not_eq_true'] at h; exact h.1.1.2
theorem quiet_dbgCode : r.issue.dbgCode = none := by
  simp only [Frame.quiet, Bool.and_eq_true, Option.isNone_iff_eq_none] at h; exact h.1.2
theorem quiet_out : r.taint.out = [] := by
  simp only [Frame.quiet, Bool.and_eq_true, List.isEmpty_iff] at h; exact h.2
end

/-- Instructions whose bundle, at a quiet core, has no wait, no arrival and no second thought of its own. -/
def plain (r : Frame) (i : Instr) : Bool :=
  (storeSrc r i).isNone && (semwOf i).isNone && (barOf i).isNone && (copyOf i).isNone && (dbgOf i).isNone
    && !leavesS i && !isSys i && !isRfe i

/-- The fields that a slot alone in its bundle gives. -/
theorem soloSlot_fields {i : Instr} {x : SlotIns} (h : soloSlot i = some x) :
    x.guard = 0 ∧ x.last = false ∧ x.first = false ∧ x.ins = i := by
  unfold soloSlot at h
  repeat' split at h
  all_goals first
    | (cases h; exact ⟨rfl, rfl, rfl, rfl⟩)
    | (cases hc : encodeCC i <;> simp [hc] at h; subst h; exact ⟨rfl, rfl, rfl, rfl⟩)

theorem fixedWrites_le (r : Frame) (i : Instr) : fixedWrites r i ≤ 3 := by
  cases i <;> simp [fixedWrites, destsOf] <;> (repeat' split) <;> simp_all

/-- A slot alone in its bundle issues (R114). -/
theorem slotIssues_solo (r : Frame) (x : SlotIns) (hg : x.guard = 0) (hl : x.last = false) (hf : x.first = false) (lv : BitVec 3) :
    slotIssues r lv x = true := by simp [slotIssues, Regs.pred, hg, hl, hf]

theorem soloBundle_slots (s : State) {i : Instr} {x : SlotIns} (h : soloSlot i = some x) : (soloBundle s i).slots = [x] := by
  simp [soloBundle, h]

theorem staticTrap_solo (s : State) (r : Frame) {i : Instr} {x : SlotIns} (h : soloSlot i = some x) :
    staticTrap r (soloBundle s i) = none := by
  obtain ⟨hg, hl, hf, hi⟩ := soloSlot_fields h
  have hdw : doubleWrite r [x] = none := by simp [doubleWrite]
  simp only [staticTrap, soloBundle_slots s h]
  have hb : (soloBundle s i).bad = false := rfl
  have hlv : (soloBundle s i).lvl = 0 := rfl
  simp only [hb, hlv]
  cases hlev : levelOf x.ins <;> simp [hlev, staticTrap.dw, soloBundle_slots s h, hdw]

theorem entersFull_quiet {r : Frame} (h : r.quiet = true) (i : Instr) : entersFull r i = false := by
  unfold entersFull
  split
  · next q _ => cases q <;> simp [queueFull, quiet_ls h, quiet_cubeQ h, quiet_copyQ h, quiet_syncQ h]
  · rfl

section
variable {r : Frame} {i : Instr} (hp : plain r i = true)
include hp
theorem plain_parts : storeSrc r i = none ∧ semwOf i = none ∧ barOf i = none ∧ copyOf i = none ∧ dbgOf i = none ∧
    leavesS i = false ∧ isSys i = false ∧ isRfe i = false := by
  simpa [plain, and_assoc] using hp
theorem plain_store (g : Taint) : storeWait r g i = none := by simp [storeWait, (plain_parts hp).1]
theorem plain_semw : semwOf i = none := (plain_parts hp).2.1
theorem plain_bar : barOf i = none := (plain_parts hp).2.2.1
theorem plain_copy : copyOf i = none := (plain_parts hp).2.2.2.1
theorem plain_dbg : dbgOf i = none := (plain_parts hp).2.2.2.2.1
theorem plain_leavesS : leavesS i = false := (plain_parts hp).2.2.2.2.2.1
theorem plain_mismatch (b : BundleIn) (l : List SlotIns) (x : SlotIns) (hx : x.ins = i) : mismatched b l x = false := by
  have h := (plain_parts hp).2.2.2.2.2.2
  simp [mismatched, hx, h]
end

theorem holdOf_solo (s : State) (c : CubeId) (f : FrameId) {i : Instr} {x : SlotIns} (h : soloSlot i = some x)
    (hq : (s.frame c f).quiet = true) (hp : plain (s.frame c f) i = true) : holdOf s c f (soloBundle s i) [x] = none := by
  obtain ⟨hg, hl, hf, hi⟩ := soloSlot_fields h
  have h2 : (soloBundle s i).wait = 0 := rfl
  have h3 : (soloBundle s i).dp = false := rfl
  simp [holdOf, h2, h3, hi, entersFull_quiet hq, plain_store hp, plain_leavesS hp]

theorem waveBar_solo (s : State) {r : Frame} {i : Instr} {x : SlotIns} (h : soloSlot i = some x) (hp : plain r i = true) :
    waveBar r (soloBundle s i) = none := by
  obtain ⟨-, -, -, hi⟩ := soloSlot_fields h
  simp [waveBar, soloBundle_slots s h, hi, plain_bar hp]

theorem busyVar_quiet {r : Frame} (hq : r.quiet = true) (l : List RegName) : busyVar r l = false := by
  simp [busyVar, pendingVar, quiet_var hq]
theorem busyArmed_quiet {r : Frame} (hq : r.quiet = true) (l : List RegName) : busyArmed r l = false := by
  simp [busyArmed, quiet_land hq]

/-- Nothing is due at a quiet core but what the bundle raises itself (R320). -/
theorem firstDue_quiet {s : State} {c : CubeId} {f : FrameId} (hq : (s.frame c f).quiet = true) (d e : Option TrapInfo) :
    firstDue s c f d e = (d <|> e) := by
  have hov : overdue s c f = none := by simp [overdue, quiet_preempt hq]
  cases d <;> simp [firstDue, quiet_traps hq, hov]
theorem boundaryTrap_quiet {s : State} {c : CubeId} {f : FrameId} (hq : (s.frame c f).quiet = true) (hr : refusalOf s c f = none)
    (b : BundleIn) (v : Verdict) :
    boundaryTrap s c f b v = none := by
  have hd : ∀ l k, dueHere (s.frame c f) b l k = none := fun l k => by simp [dueHere, quiet_due hq]
  have hn : ∀ l k, semNamed s c f l k = none := fun l k => by simp [semNamed, hr]
  have hs : ∀ i, semTrap s c f i = none := fun i => by simp [semTrap, hr]
  unfold boundaryTrap
  split <;> simp [firstDue_quiet hq, hd, hn, hs, quiet_due hq, afterTrap]

/-- At a quiet core no switch is due and none counts (R28). -/
theorem forcedDue_quiet {s : State} {c : CubeId} {f : FrameId} (hq : (s.frame c f).quiet = true) (m : Readiness) :
    forcedDue m s c f = false := by simp [forcedDue, quiet_slice hq]
theorem countSlice_quiet {s : State} {c : CubeId} {f : FrameId} (hq : (s.frame c f).quiet = true) (m : Readiness) (s' : State) :
    countSlice s c f m s' = s' := by simp [countSlice, quiet_slice hq]

theorem setFrame_self (s : State) (c : CubeId) (f : FrameId) : s.setFrame c f (s.frame c f) = s := by
  simp only [State.setFrame, State.modCube, State.setCube, State.cube, State.frame, Cube.setFrame, Cube.frame]
  have h : ({ s.cubes[c] with frames := s.cubes[c].frames.set f s.cubes[c].frames[f] } : Cube) = s.cubes[c] := by
    simp only [Fin.getElem_fin, Vector.set_getElem_self]
  rw [h]
  simp only [Fin.getElem_fin, Vector.set_getElem_self]

/-- At a quiet core no result lands (R121). -/
theorem landDue_quiet {s : State} {c : CubeId} {f : FrameId} (hq : (s.frame c f).quiet = true) : landDue s c f = s := by
  have hl := quiet_land hq
  simp only [landDue, hl, List.filter_nil, List.foldl_nil]
  have : ({ s.frame c f with fl := { (s.frame c f).fl with land := [] } } : Frame) = s.frame c f := by
    rw [← hl]
  rw [this, setFrame_self]

/-- At a quiet core a plain slot alone in its bundle is judged to issue (R138). -/
theorem judge_solo (s : State) (c : CubeId) (f : FrameId) {i : Instr} {x : SlotIns} {m : Ctx → State → SlotRes} {e : SlotEff}
    (h : soloSlot i = some x) (hq : (s.frame c f).quiet = true) (hp : plain (s.frame c f) i = true)
    (hm : m (ctxOf s c f (soloBundle s i) x) s = .ok e) :
    judge s c f (soloBundle s i) (fun _ => m) = .go [(x, e)] := by
  obtain ⟨hg, hl, hf, hi⟩ := soloSlot_fields h
  have hs := soloBundle_slots s h
  have hiss : [x].filter (slotIssues (s.frame c f) (soloBundle s i).lvl) = [x] := by
    simp [slotIssues_solo (s.frame c f) x hg hl hf]
  have heff : slotEffects s c f (soloBundle s i) [x] (fun _ => m) = .ok [(x, e)] := by
    simp [slotEffects, plain_mismatch hp _ _ x hi, hm]
  have hfix : ¬ 64 < fixedWrites (s.frame c f) i := by have := fixedWrites_le (s.frame c f) i; omega
  have hover : overfull (s.frame c f) [x] = false := by simp [overfull, quiet_land hq, hi, hfix]
  simp only [judge, staticTrap_solo s _ h, waveBar_solo s h hp, hs, hiss]
  simp [hg, busyVar_quiet hq, busyArmed_quiet hq, hi, holdOf_solo s c f h hq hp, plain_semw hp, plain_bar hp, plain_copy hp,
    judgeClear, bundleChecks, heff, hover, quiet_barred hq]

/-- At a quiet core a plain slot alone in its bundle commits (R118). -/
theorem solo_commits (s : State) {i : Instr} {x : SlotIns} {m : Ctx → State → SlotRes} {e : SlotEff}
    (hq : s.quiet = true) (hw : i.wf = true) (h : soloSlot i = some x) (hp : plain s.cf i = true)
    (hm : m (s.ctx i) s = .ok e) :
    solo s i m = .next (commit s s.cur s.curF (soloBundle s i) [(x, e)]) := by
  simp only [State.quiet, Bool.and_eq_true, Option.isNone_iff_eq_none] at hq
  obtain ⟨⟨⟨hpow, hmay⟩, hr⟩, hq⟩ := hq
  have hq' : (s.frame s.cur s.curF).quiet = true := hq
  obtain ⟨hg, hl, hf, hi⟩ := soloSlot_fields h
  have hm' : m (ctxOf s s.cur s.curF (soloBundle s i) x) s = .ok e := by simpa [State.ctx, h] using hm
  have hp' : plain (s.frame s.cur s.curF) i = true := hp
  have hj := judge_solo s s.cur s.curF h hq' hp' hm'
  have hdb : dbgStop s s.cur s.curF [(x, e)] = none := by simp [dbgStop, hi, plain_dbg hp]
  have hdp : (soloBundle s i).dp = false := rfl
  simp [solo, hpow, hmay, hw, landDue_quiet hq', attempt, hj, boundaryTrap_quiet hq' hr, forcedDue_quiet hq', countSlice_quiet hq', hdp, hdb]

/-- An effect that only changes the frame by `g`, without branch, taint, link or halt. -/
def SlotEff.frameOnly (e : SlotEff) : Prop :=
  e.taken = none ∧ e.ctSet = none ∧ e.ctClr = false ∧ e.ctAdd = 0 ∧ e.link = none ∧ e.halts = false ∧ e.sys = none ∧ e.rfe = false

theorem finish_solo (s : State) {i : Instr} {x : SlotIns} (r : Frame)
    (hpre : r.issue.preempt = none) (hsl : r.issue.slice = none) (e : SlotEff) (he : e.frameOnly) :
    finish r (soloBundle s i) [(x, e)] false 0 false = advanced s.nextPc 0 true r := by
  obtain ⟨h1, h2, h3, h4, h5, h6, -, -⟩ := he
  have hw : (soloBundle s i).wait = 0 := rfl
  have hn : (soloBundle s i).next = s.nextPc := rfl
  have hdf : ∀ d : BitVec 8, d &&& 255#8 = d := fun d => BitVec.and_allOnes
  simp [finish, h1, h2, h3, h4, h5, h6, hw, hn, hdf, Ctl.orBrcol, advanced, hpre, hsl]

theorem resolve_one (x : SlotIns) (e : SlotEff) (h : e.halts = false) : resolve [(x, e)] = ([(x, e)], false) := by
  simp only [resolve]
  cases ht : e.taken <;> simp [h, ht]

/-- A frame update looks at that frame only. -/
theorem modFrame_congr (s : State) (c : CubeId) (f : FrameId) (g k : Frame → Frame) (h : g (s.frame c f) = k (s.frame c f)) :
    s.modFrame c f g = s.modFrame c f k := by simp [State.modFrame, h]

theorem storesLast_one (r : Frame) (y : SlotIns × SlotEff) : storesLast r [y] = [y] := by
  simp only [storesLast]
  cases h : storeSrc r y.1.ins <;> simp [h]

/-- At a quiet core the commit of one slot whose effect is a change of the frame (R118). -/
theorem commit_frameOnly (s : State) {i : Instr} {x : SlotIns} (h : soloSlot i = some x) (hq : s.quiet = true)
    (e : SlotEff) (he : e.frameOnly) (g : Frame → Frame) (ha : e.act = fun s' => s'.modFrame s.cur s.curF g)
    (hg : ∀ r, (g r).issue = r.issue) :
    commit s s.cur s.curF (soloBundle s i) [(x, e)] = s.issued g := by
  obtain ⟨hgu, hl, hf, hi⟩ := soloSlot_fields h
  simp only [State.quiet, Bool.and_eq_true] at hq
  have hq' : (s.frame s.cur s.curF).quiet = true := hq.2
  have hdp : (soloBundle s i).dp = false := rfl
  have hfin := finish_solo s (i := i) (x := x) (g (s.frame s.cur s.curF)) (by rw [hg]; exact quiet_preempt hq')
    (by rw [hg]; exact quiet_slice hq') e he
  have hz : [x].foldl (fun u x => u ||| (s.frame s.cur s.curF).taint.pred x.guard) (0 : Taint) = 0 := by simp [Taints.pred, hgu]
  simp only [commit, resolve_one x e he.2.2.2.2.2.1, storesLast_one, soloBundle_slots s h, hdp, hz, List.foldl, ha, Bool.false_and]
  have hmod : (s.modFrame s.cur s.curF fun r => finish (g r) (soloBundle s i) [(x, e)] false 0 false) =
      s.modFrame s.cur s.curF fun r => advanced s.nextPc 0 true (g r) := modFrame_congr s _ _ _ _ hfin
  simp [State.issued, State.modCf, he.2.2.2.2.2.2.1, he.2.2.2.2.2.2.2, he.2.2.2.2.2.1]
  exact congrArg (fun s' : State => s'.modCube s.cur fun q => { q with stallSince := none }) hmod

/-- A plain slot whose effect is a change of the frame: the machine after it. -/
theorem solo_frameOnly (s : State) {i : Instr} {x : SlotIns} {m : Ctx → State → SlotRes} {e : SlotEff} (g : Frame → Frame)
    (hq : s.quiet = true) (hw : i.wf = true) (h : soloSlot i = some x) (hp : plain s.cf i = true)
    (hm : m (s.ctx i) s = .ok e) (he : e.frameOnly) (ha : e.act = fun s' => s'.modFrame s.cur s.curF g)
    (hg : ∀ r, (g r).issue = r.issue) :
    solo s i m = .next (s.issued g) := by
  rw [solo_commits s hq hw h hp hm, commit_frameOnly s h hq e he g ha hg]

/-- A slot that puts one result in flight (R121). -/
theorem solo_lands (s : State) {i : Instr} {x : SlotIns} {m : Ctx → State → SlotRes} (l : Landing)
    (hq : s.quiet = true) (hw : i.wf = true) (h : soloSlot i = some x) (hp : plain s.cf i = true)
    (hm : m (s.ctx i) s = .ok (onFrame (s.ctx i) fun r => r.addLanding l)) :
    solo s i m = .next (s.landing l) :=
  solo_frameOnly s _ hq hw h hp hm ⟨rfl, rfl, rfl, rfl, rfl, rfl, rfl, rfl⟩ rfl fun _ => rfl

/-- A plain slot that acts on the machine, without branch, taint, link or halt: the machine after it. -/
theorem solo_acts (s : State) {i : Instr} {x : SlotIns} {m : Ctx → State → SlotRes} {e : SlotEff}
    (hq : s.quiet = true) (hw : i.wf = true) (h : soloSlot i = some x) (hp : plain s.cf i = true)
    (hm : m (s.ctx i) s = .ok e) (he : e.frameOnly)
    (hpre : ((e.act s).frame s.cur s.curF).issue.preempt = none) (hsl : ((e.act s).frame s.cur s.curF).issue.slice = none) :
    solo s i m = .next (s.acted e.act) := by
  rw [solo_commits s hq hw h hp hm]
  obtain ⟨hgu, hl, hf, hi⟩ := soloSlot_fields h
  have hdp : (soloBundle s i).dp = false := rfl
  have hfin := finish_solo s (i := i) (x := x) ((e.act s).frame s.cur s.curF) hpre hsl e he
  have hz : [x].foldl (fun u x => u ||| (s.frame s.cur s.curF).taint.pred x.guard) (0 : Taint) = 0 := by simp [Taints.pred, hgu]
  simp only [commit, resolve_one x e he.2.2.2.2.2.1, storesLast_one, soloBundle_slots s h, hdp, hz, List.foldl, Bool.false_and]
  have hmod : ((e.act s).modFrame s.cur s.curF fun r => finish r (soloBundle s i) [(x, e)] false 0 false) =
      (e.act s).modFrame s.cur s.curF (advanced s.nextPc 0 true) := modFrame_congr _ _ _ _ _ hfin
  simp [State.acted, he.2.2.2.2.2.2.1, he.2.2.2.2.2.2.2, he.2.2.2.2.2.1]
  exact congrArg (fun s' : State => s'.modCube s.cur fun q => { q with stallSince := none }) hmod

/-- The frame after a branch: `CTAINT` set or joined, the link in flight, then every result armed (R93, R94, R124, R143). -/
def branchFrame (s : State) (e : SlotEff) (r : Frame) : Frame :=
  let ct := e.ctSet.getD r.taint.ct ||| e.ctAdd
  let r := withCt ct r
  match e.link with
  | some g => r.addLanding (mkLanding r 2 g.toNat 1 (s.nextPc.setWidth 2048) ct)
  | none => r

/-- A slot that branches: the machine after it (R120). -/
theorem solo_branches (s : State) {i : Instr} {x : SlotIns} {m : Ctx → State → SlotRes} {e : SlotEff} (g : Frame → Frame)
    (target : Word) (hq : s.quiet = true) (hw : i.wf = true) (h : soloSlot i = some x) (hp : plain s.cf i = true)
    (hm : m (s.ctx i) s = .ok e) (ha : e.act = fun s' => s'.modFrame s.cur s.curF g) (hg : ∀ r, (g r).issue = r.issue)
    (ht : e.taken = some target) (hc : e.ctClr = false) (hh : e.halts = false) (hs : e.sys = none) (hr : e.rfe = false) :
    solo s i m = .next (s.branched target fun r => branchFrame s e (g r)) := by
  rw [solo_commits s hq hw h hp hm]
  obtain ⟨hgu, hl, hf, hi⟩ := soloSlot_fields h
  simp only [State.quiet, Bool.and_eq_true] at hq
  have hq' : (s.frame s.cur s.curF).quiet = true := hq.2
  have hdp : (soloBundle s i).dp = false := rfl
  have hwait : (soloBundle s i).wait = 0 := rfl
  have hn : (soloBundle s i).next = s.nextPc := rfl
  have hdf : ∀ d : BitVec 8, d &&& 255#8 = d := fun d => BitVec.and_allOnes
  have hz : [x].foldl (fun u x => u ||| (s.frame s.cur s.curF).taint.pred x.guard) (0 : Taint) = 0 := by simp [Taints.pred, hgu]
  have hpre := quiet_preempt hq'
  have hsl := quiet_slice hq'
  have hfin : ∀ r : Frame, r.issue.preempt = none → r.issue.slice = none →
      finish r (soloBundle s i) [(x, e)] false 0 false = advanced target r.issue.pc false (armAll (branchFrame s e r)) := by
    intro r hpre hsl
    cases hcs : e.ctSet <;> cases hlk : e.link <;>
      simp [finish, ht, hc, hh, hcs, hlk, hwait, hn, hdf, Ctl.orBrcol, advanced, branchFrame, withCt, armAll, Frame.addLanding,
        mkLanding, hpre, hsl]
  simp only [commit, resolve_one x e hh, storesLast_one, soloBundle_slots s h, hdp, hz, List.foldl, ha, Bool.false_and]
  have hmod : (s.modFrame s.cur s.curF fun r => finish (g r) (soloBundle s i) [(x, e)] false 0 false) =
      s.modFrame s.cur s.curF fun r => advanced target r.issue.pc false (armAll (branchFrame s e (g r))) :=
    modFrame_congr s _ _ _ _ (by simpa [hg] using hfin (g (s.frame s.cur s.curF)) (by rw [hg]; exact hpre) (by rw [hg]; exact hsl))
  simp [State.branched, State.modCf, hs, hr, hh]
  exact congrArg (fun s' : State => s'.modCube s.cur fun q => { q with stallSince := none }) hmod

/-- A slot that neither branches nor links: the machine after it, `CTAINT` replaced, cleared or joined, and `halt` at
level U noted (R93, R94, R97, R156). -/
theorem solo_joins (s : State) {i : Instr} {x : SlotIns} {m : Ctx → State → SlotRes} {e : SlotEff} (g : Frame → Frame)
    (hq : s.quiet = true) (hw : i.wf = true) (h : soloSlot i = some x) (hp : plain s.cf i = true)
    (hm : m (s.ctx i) s = .ok e) (ha : e.act = fun s' => s'.modFrame s.cur s.curF g) (hg : ∀ r, (g r).issue = r.issue ∧ (g r).priv = r.priv)
    (ht : e.taken = none) (hlk : e.link = none) (hs : e.sys = none) (hr : e.rfe = false)
    (hh : e.halts = true → s.cf.priv.lvl = false) :
    solo s i m = .next (s.issued fun r =>
      let u := withCt (e.ctSet.getD (if e.ctClr then 0 else (g r).taint.ct) ||| e.ctAdd) (g r)
      if e.halts then { u with issue := { u.issue with halted := true } } else u) := by
  rw [solo_commits s hq hw h hp hm]
  obtain ⟨hgu, hl, hf, hi⟩ := soloSlot_fields h
  simp only [State.quiet, Bool.and_eq_true] at hq
  have hq' : (s.frame s.cur s.curF).quiet = true := hq.2
  have hdp : (soloBundle s i).dp = false := rfl
  have hwait : (soloBundle s i).wait = 0 := rfl
  have hn : (soloBundle s i).next = s.nextPc := rfl
  have hdf : ∀ d : BitVec 8, d &&& 255#8 = d := fun d => BitVec.and_allOnes
  have hz : [x].foldl (fun u x => u ||| (s.frame s.cur s.curF).taint.pred x.guard) (0 : Taint) = 0 := by simp [Taints.pred, hgu]
  have hpre := quiet_preempt hq'
  have hsl := quiet_slice hq'
  have hres : resolve [(x, e)] = ([(x, e)], false) := by cases hx : e.halts <;> simp [resolve, ht, hx]
  have hfin : ∀ r : Frame, r.issue.preempt = none → r.issue.slice = none → (e.halts = true → r.priv.lvl = false) →
      finish r (soloBundle s i) [(x, e)] false 0 false = advanced s.nextPc 0 true
        (let u := withCt (e.ctSet.getD (if e.ctClr then 0 else r.taint.ct) ||| e.ctAdd) r
         if e.halts then { u with issue := { u.issue with halted := true } } else u) := by
    intro r hpre hsl hlv
    cases hcs : e.ctSet <;> cases hx : e.halts <;> cases hcl : e.ctClr <;>
      simp [finish, ht, hcl, hx, hcs, hlk, hwait, hn, hdf, Ctl.orBrcol, advanced, withCt, hpre, hsl] <;> simp_all
  simp only [commit, hres, storesLast_one, soloBundle_slots s h, hdp, hz, List.foldl, ha, Bool.false_and]
  have hlv : e.halts = true → (g (s.frame s.cur s.curF)).priv.lvl = false := fun hx => by rw [(hg _).2]; exact hh hx
  have hmod := modFrame_congr s s.cur s.curF (fun r => finish (g r) (soloBundle s i) [(x, e)] false 0 false)
    (fun r => advanced s.nextPc 0 true (let u := withCt (e.ctSet.getD (if e.ctClr then 0 else (g r).taint.ct) ||| e.ctAdd) (g r)
      if e.halts then { u with issue := { u.issue with halted := true } } else u))
    (hfin (g (s.frame s.cur s.curF)) (by rw [(hg _).1]; exact hpre) (by rw [(hg _).1]; exact hsl) hlv)
  have hnot : ¬ ((s.frame s.cur s.curF).priv.lvl = true ∧ e.halts = true) := fun ⟨a, b⟩ => by
    have := hh b; simp only [State.cf] at this; simp [this] at a
  simp [State.issued, State.modCf, hs, hr, hnot]
  exact congrArg (fun s' : State => s'.modCube s.cur fun q => { q with stallSince := none }) hmod

theorem modFrame_self (s : State) (c : CubeId) (f : FrameId) (g : Frame → Frame) (h : g (s.frame c f) = s.frame c f) :
    s.modFrame c f g = s := by
  rw [State.modFrame, h, setFrame_self]

/-- At a quiet core a slot whose checks fail takes its trap (R138, R318). -/
theorem solo_trap (s : State) {i : Instr} {x : SlotIns} {m : Ctx → State → SlotRes} {t : TrapInfo}
    (hq : s.quiet = true) (hw : i.wf = true) (h : soloSlot i = some x) (hp : plain s.cf i = true)
    (hm : m (s.ctx i) s = .error t) :
    solo s i m = .next (enterTrap s s.cur s.curF t) := by
  simp only [State.quiet, Bool.and_eq_true] at hq
  obtain ⟨⟨⟨hpow, hmay⟩, -⟩, hq⟩ := hq
  have hq' : (s.frame s.cur s.curF).quiet = true := hq
  obtain ⟨hg, hl, hf, hi⟩ := soloSlot_fields h
  have hm' : m (ctxOf s s.cur s.curF (soloBundle s i) x) s = .error t := by simpa [State.ctx, h] using hm
  have hp' : plain (s.frame s.cur s.curF) i = true := hp
  have hs := soloBundle_slots s h
  have hiss : [x].filter (slotIssues (s.frame s.cur s.curF) (soloBundle s i).lvl) = [x] := by
    simp [slotIssues_solo (s.frame s.cur s.curF) x hg hl hf]
  have heff : slotEffects s s.cur s.curF (soloBundle s i) [x] (fun _ => m) = .error t := by
    by_cases hc : t.cause = 15 <;> simp [slotEffects, plain_mismatch hp' _ _ x hi, hm', hc]
  have hj : judge s s.cur s.curF (soloBundle s i) (fun _ => m) = .trap t := by
    have hfix : ¬ 64 < fixedWrites (s.frame s.cur s.curF) i := by have := fixedWrites_le (s.frame s.cur s.curF) i; omega
    have hover : overfull (s.frame s.cur s.curF) [x] = false := by simp [overfull, quiet_land hq', hi, hfix]
    simp only [judge, staticTrap_solo s _ h, waveBar_solo s h hp', hs, hiss]
    simp [hg, busyVar_quiet hq', busyArmed_quiet hq', hi, holdOf_solo s s.cur s.curF h hq' hp', plain_semw hp', plain_bar hp',
      judgeClear, bundleChecks, heff, hover, quiet_barred hq']
  simp [solo, hpow, hmay, hw, landDue_quiet hq', attempt, hj]

end Sys2Proof.Machine
end

