-- ==== Sys2Proof/Laws/Memory.lean ====
section
/-! SUPPORT. Global memory: what a read after a write gives, and that every operation that changes memory or poison
keeps the canonical form (R65, R76, R77, R84). -/

namespace Sys2Proof.Machine

@[simp] theorem memByte_memSet_same (m : List Host.Cell) (a : Nat) (b : Byte) : memByte (memSet m a b) a = b :=
  fget_fset_same ..

theorem memByte_memSet (m : List Host.Cell) (a p : Nat) (b : Byte) :
    memByte (memSet m a b) p = if p = a then b else memByte m p := fget_fset ..

/-- Writing a list of bytes changes the bytes it covers and no other. -/
theorem memByte_memSetList : ∀ (l : List Byte) (m : List Host.Cell) (a p : Nat),
    memByte (memSetList m a l) p = if a ≤ p ∧ p < a + l.length then l.getD (p - a) 0 else memByte m p
  | [], m, a, p => by
    rw [memSetList, if_neg]; simp only [List.length_nil]; omega
  | b :: l, m, a, p => by
    rw [memSetList, memByte_memSetList l, memByte_memSet]
    rcases Nat.lt_trichotomy p a with h | h | h
    · have h1 : ¬ (a + 1 ≤ p ∧ p < a + 1 + l.length) := by omega
      have h2 : ¬ (a ≤ p ∧ p < a + (b :: l).length) := by omega
      rw [if_neg h1, if_neg h2, if_neg (Nat.ne_of_lt h)]
    · subst h
      rw [if_neg (by omega)]
      simp
    · obtain ⟨k, rfl⟩ : ∃ k, p = a + 1 + k := ⟨p - (a + 1), by omega⟩
      have e1 : a + 1 + k - a = k + 1 := by omega
      have e2 : a + 1 + k - (a + 1) = k := by omega
      have hne : a + 1 + k ≠ a := by omega
      have hiff : (a + 1 ≤ a + 1 + k ∧ a + 1 + k < a + 1 + l.length) ↔
          (a ≤ a + 1 + k ∧ a + 1 + k < a + (b :: l).length) := by
        simp only [List.length_cons]; omega
      simp only [e1, e2, hne, if_false, hiff, List.getD_cons_succ]

theorem wf_memSet (m : List Host.Cell) (a : Nat) (b : Byte) (h : Memory.wf m) : Memory.wf (memSet m a b) :=
  fwf_fset memDefault m a b h

theorem wf_memSetList : ∀ (l : List Byte) (m : List Host.Cell) (a : Nat), Memory.wf m → Memory.wf (memSetList m a l)
  | [], _, _, h => h
  | _ :: l, _, a, h => wf_memSetList l _ (a + 1) (wf_memSet _ a _ h)

theorem memWf_gWrite (s : State) (a : Nat) (l : List Byte) (h : s.memWf) : (gWrite s a l).memWf :=
  ⟨wf_memSetList l s.mem a h.1, h.2⟩

theorem memWf_gWriteVal (s : State) (a n v : Nat) (h : s.memWf) : (gWriteVal s a n v).memWf :=
  memWf_gWrite s a _ h

theorem memWf_setPoison (s : State) (a : Nat) (b : Bool) (h : s.memWf) : (setPoison s a b).memWf :=
  ⟨h.1, fwf_fset false s.poison (a / 64) b h.2⟩

theorem memWf_clearFull (s : State) (a n : Nat) (h : s.memWf) : (clearFull s a n).memWf := by
  unfold clearFull
  split
  · exact memWf_setPoison s a false h
  · exact h

theorem memWf_clearRange (s : State) (a n : Nat) (h : s.memWf) : (clearRange s a n).memWf :=
  ⟨fwf_filter memDefault s.mem _ h.1, fwf_filter false s.poison _ h.2⟩

theorem memWf_writeBlock (s : State) (base : Nat) (l : List Fld) (h : s.memWf) : (writeBlock s base l).memWf := by
  have key : ∀ (l : List Fld) (u : State), u.memWf →
      (l.foldl (fun s (o, n, v) => if v = 0 then s else gWriteVal s (base + o) n v) u).memWf := by
    intro l
    induction l with
    | nil => exact fun u hu => hu
    | cons e l ih =>
      obtain ⟨o, n, v⟩ := e
      intro u hu
      rw [List.foldl_cons]
      apply ih
      dsimp only
      split
      · exact hu
      · exact memWf_gWriteVal u _ n v hu
  exact key l _ (memWf_clearRange s base blockBytes h)

@[simp] theorem memWf_modFrame (s : State) (c : CubeId) (f : FrameId) (g : Frame → Frame) :
    (s.modFrame c f g).memWf ↔ s.memWf := Iff.rfl
@[simp] theorem memWf_modCube (s : State) (c : CubeId) (g : Cube → Cube) : (s.modCube c g).memWf ↔ s.memWf := Iff.rfl
@[simp] theorem memWf_setCube (s : State) (c : CubeId) (q : Cube) : (s.setCube c q).memWf ↔ s.memWf := Iff.rfl
@[simp] theorem memWf_modHub (s : State) (g : Hub → Hub) : (s.modHub g).memWf ↔ s.memWf := Iff.rfl
@[simp] theorem memWf_modTeasel (s : State) (g : Teasel → Teasel) : (s.modTeasel g).memWf ↔ s.memWf := Iff.rfl

theorem memWf_performWrite (s : State) (mid : Nat) (h : s.memWf) : (performWrite s mid).memWf := by
  have key : ∀ (w : MergeW) (ml : List MergeW) (g : Hub → Hub),
      (({ s with mem := memSetList s.mem w.pa w.bytes, merge := ml } : State).modHub g).memWf := fun w ml g =>
    ⟨wf_memSetList w.bytes s.mem w.pa h.1, h.2⟩
  unfold performWrite
  split
  · exact h
  · split
    · exact h
    · dsimp only
      split
      · rw [memWf_modFrame]
        split
        · exact memWf_setPoison _ _ _ (key _ _ _)
        · exact key _ _ _
      · exact memWf_clearFull _ _ _ (key _ _ _)

/-! TLBs (R358). -/

@[simp] theorem Tlb.first_setFirst (t : Tlb) (src : Stream) (l : List TlbEnt) : (t.setFirst src l).first src = l := by
  cases src <;> rfl
@[simp] theorem Tlb.setFirst_last (t : Tlb) (src : Stream) (l : List TlbEnt) : (t.setFirst src l).last = t.last := by
  cases src <;> rfl
theorem Tlb.first_setFirst_ne (t : Tlb) {a b : Stream} (h : a ≠ b) (l : List TlbEnt) : (t.setFirst a l).first b = t.first b := by
  cases a <;> cases b <;> first | rfl | exact absurd rfl h
/-- A TLB never holds more entries than it has room for. -/
theorem tlbPut_length (n : Nat) (e : TlbEnt) (l : List TlbEnt) : (tlbPut n e l).length ≤ n := by
  simp only [tlbPut, List.length_take]; omega

end Sys2Proof.Machine
end

