-- ==== Sys2Proof/Tests/Slice0.lean ====
section
/-! SUPPORT. Small checks: words written out from the spec's encodings, ill-formed terms, the spec's worked values, and for
every statement with hypotheses a concrete state and operands that meet them. -/

-- one proof at a time: each evaluates in the kernel, and proofs that wait for one another hold a thread each
set_option Elab.async false

namespace Sys2Proof.Tests

open Sys2Proof Sys2Proof.Machine

/-! Decoding (R130 to R137): each word is written from the spec's field tables. -/

def reads (r : Except Reject Instr) (i : Instr) : Bool := match r with | .ok j => j == i | .error _ => false
def refusesWord (r : Except Reject Instr) : Bool := match r with | .ok _ => false | .error _ => true

theorem test_decode_control_1 : ([(0x000000, .nop),
    (0xFFF440, .br (-3)),
    (0x004480, .bri 17),
    (0x6AF0C0, .call 0x1ABC),
    (0x04D900, .calli 9 22),
    (0x007D40, .ret 31),
    (0x18E980, .lsetImm 2 99),
    (0x139580, .lsetReg 5 .a 19),
    (0x658DC0, .lstride 3 12 25),
    (0x001200, .loop 4),
    (0x54A640, .lexit 1 0x2A5),
    (0x234680, .wcfg 17 6 2),
    (0xE6E6C0, .setfmt 9 11 1 2 .rd),
    (0x006F00, .setfid 3 2 1),
    (0x000340, .yield),
    (0x030F80, .trap 0xC3)] : List (BitVec 24 × Instr)).all (fun (w, i) => reads (decodeCtl w) i) = true := by
  decide +kernel

theorem test_decode_control_2 : ([(0x0003C0, .halt)] : List (BitVec 24 × Instr)).all (fun (w, i) => reads (decodeCtl w) i) = true := by
  decide +kernel

theorem test_decode_scalar_1 : ([(0x911892040, .add .x .s32 true 9 2 3),
    (0xFFF90C080, .addi .x 6 4 (-1)),
    (0x163F820C0, .sub .x .z64 false 1 30 7),
    (0x12F946100, .mul .x .s64 3 5 31),
    (0x11F188140, .mulh .x .s32 4 6 30),
    (0x15E9CA180, .mulhz .x .z32 5 7 29),
    (0x11E20C1C0, .div .x .s32 6 8 28),
    (0x16DA4E200, .rem .x .z64 7 9 27),
    (0x15D290240, .and .x .z32 8 10 26),
    (0x12CAD2280, .andn .x .s64 9 11 25),
    (0x16C3142C0, .or .x .z64 10 12 24),
    (0x11BB56300, .xor .x .s32 11 13 23),
    (0x15B398340, .sll .x .z32 12 14 22),
    (0x16ABDA380, .srl .x .z64 13 15 21),
    (0x12A41C3C0, .sra .x .s64 14 16 20),
    (0x159C5E400, .rol .x .z32 15 17 19)] : List (BitVec 36 × Instr)).all (fun (w, i) => reads (decodeXY .x w) i) = true := by
  decide +kernel

theorem test_decode_scalar_2 : ([(0x1194A0440, .min .x .s32 16 18 18),
    (0x128CE2480, .max .x .s64 17 19 17),
    (0x1585244C0, .minz .x .z32 18 20 16),
    (0x167D66500, .maxz .x .z64 19 21 15),
    (0xB5AD12540, .cmp .x .lez .z32 9 20 21),
    (0xFE5106580, .cmpi .x .lt 3 4 (-7)),
    (0x0C398A5C0, .sel .x 12 5 6 7),
    (0x110512600, .clz .x .s32 9 20),
    (0x160554640, .ctz .x .z64 10 21),
    (0x120596680, .popc .x .s64 11 22),
    (0x0905D86C0, .sext .x .s8 12 23),
    (0x14061A700, .zext .x .z16 13 24),
    (0x1206D0740, .mov .x 8 27),
    (0xFFFF86780, .movi .x 3 (-2)),
    (0xBEEF887C0, .movhi .x 4 0xBEEF 2),
    (0x004B82800, .pand .x 1 14 9)] : List (BitVec 36 × Instr)).all (fun (w, i) => reads (decodeXY .x w) i) = true := by
  decide +kernel

theorem test_decode_scalar_3 : ([(0x004B84840, .por .x 2 14 9),
    (0x004B86880, .pxor .x 3 14 9),
    (0x0002CC8C0, .pnot .x 6 11),
    (0x00155A900, .xmov .x .a 13 21),
    (0x003882940, .fadd .x .f64 .rn 1 2 7),
    (0x214082980, .fsub .x .f32 .rz 1 2 8),
    (0x4248829C0, .fmul .x .f16 .ru 1 2 9),
    (0x635082A00, .fma .x .bf16 .rd 1 2 10),
    (0x012906A40, .fmin .x .f32 3 4 5),
    (0x002906A80, .fmax .x .f64 3 4 5),
    (0x624A0EAC0, .fcmp .x .le .f16 7 8 9),
    (0xA08AD4B00, .fcvt .x .s32 .f64 .rz true 10 11),
    (0x417358B40, .fsgn .x .f32 .xor 12 13 14),
    (0x40041EB80, .frcp .x .f64 .ru 15 16),
    (0x6104A2BC0, .frsq .x .f32 .rd 17 18)] : List (BitVec 36 × Instr)).all (fun (w, i) => reads (decodeXY .x w) i) = true := by
  decide +kernel

theorem test_decode_address_1 : ([(0x0001882040, .aadd 1 2 3),
    (0x00018820C0, .asub 1 2 3),
    (0xFFE0148080, .aaddi 4 5 (-64)),
    (0x0051882100, .aidx 1 2 3 5),
    (0x000077C140, .amov 30 29),
    (0x48D158E180, .amovi 7 0x123456),
    (0x00452501C0, .acmp .ltz 8 9 10),
    (0x0041882200, .amod 1 2 3 4)] : List (BitVec 40 × Instr)).all (fun (w, i) => reads (decodeA w) i) = true := by
  decide +kernel

theorem test_decode_vector_1 : ([(0x00837F0A4B0040, .vadd .f32 .ru false 300 20 383),
    (0x01200301004080, .vsub .s16 .rn true 1 2 3),
    (0x014006028100C0, .vmul .f64 .rz true 4 5 6),
    (0x0026090401C100, .vfma .z8 .rn false 7 8 9),
    (0x00240301004140, .vmin .s64 1 2 3),
    (0x00060301004180, .vmax .bf16 1 2 3),
    (0x011200028101C0, .vabs .s8 true 4 5),
    (0x00040002810200, .vneg .f16 false 4 5),
    (0x002A0301004240, .vand .z32 1 2 3),
    (0x002A0301004280, .vor .z32 1 2 3),
    (0x002A03010042C0, .vxor .z32 1 2 3),
    (0x002A0301004300, .vshl .z32 1 2 3),
    (0x002A0301004340, .vshr .z32 1 2 3),
    (0x08280301004380, .vcmp .ltz .z16 1 2 3),
    (0x200803010043C0, .vsel .e2m1 1 2 3 4),
    (0x89C20301004400, .vcvt .f32 .e4m3 2 .rd true 1 2 3)] : List (BitVec 56 × Instr)).all (fun (w, i) => reads (decodeV w) i) = true := by
  decide +kernel

theorem test_decode_vector_2 : ([(0x1B560301004440, .vpack .tern 13 .rz true 1 2 3),
    (0x0A0C0301004480, .vunpack .e2m3 5 1 2 3),
    (0x9D0203010044C0, .vscale true 19 .rn true 1 2 3),
    (0x3A8203010044C0, .vscale false 7 .ru false 1 2 3),
    (0xC8120001004500, .vbcast .s8 100 1 2),
    (0x002C0301004540, .vperm .z64 1 2 3),
    (0x00220301004580, .vshuf .zlo .s32 1 2 3),
    (0x02220301004580, .vshuf .zhi .s32 1 2 3),
    (0x04220301004580, .vshuf .uev .s32 1 2 3),
    (0x06220301004580, .vshuf .uod .s32 1 2 3),
    (0x08220001004580, .vshuf .rev .s32 1 2 0),
    (0x0A220001004580, .vshuf .swp .s32 1 2 0),
    (0x422800010045C0, .vrot .z16 33 1 2),
    (0x42280001004600, .vlane .z16 33 1 2),
    (0x42280001004640, .vins .z16 33 1 2),
    (0x12000301004680, .vext .f64 9 1 2 3)] : List (BitVec 56 × Instr)).all (fun (w, i) => reads (decodeV w) i) = true := by
  decide +kernel

theorem test_decode_vector_3 : ([(0x2022160A8506C0, .vscan .add false true .s32 .rn false 20 21 22),
    (0x142600010046C0, .vscan .max true false .z8 .rn false 1 2 0),
    (0x0A2C0301004700, .vred .xor .z64 .rn false 1 2 3),
    (0x44080301004740, .vpart .s32 1 2 3 4),
    (0x00020001004780, .vexp2 .f32 1 2),
    (0x000400010047C0, .vlog2 .f16 1 2),
    (0x00460001004800, .vrcp .bf16 .rz 1 2),
    (0x00C20001004840, .vrsqrt .f32 .rd 1 2),
    (0x00040001004880, .vtanh .f16 1 2),
    (0x000000030148C0, .vmov 5 6),
    (0xEF56DF77934900, .vmovi true 0xDEADBEEF 77)] : List (BitVec 56 × Instr)).all (fun (w, i) => reads (decodeV w) i) = true := by
  decide +kernel

theorem test_decode_load_store_1 : ([(0xFFFC4CA40040, .ld .x .z8 4 5 (-8)),
    (0xFFFC00A44080, .st .y .f64 4 5 (-8)),
    (0xFFFC48A481C0, .gld .a .s64 4 5 (-8)),
    (0xFFFC0CA40200, .gst .x .bf16 4 5 (-8)),
    (0xFFF001CB00C0, .vld 300 3 (-256)),
    (0xFFF001CB0100, .vst 300 3 (-256)),
    (0xFFF001CB0240, .gvld 300 3 (-256)),
    (0xFFF001CB0280, .gvst 300 3 (-256)),
    (0x08C0B6034140, .vgath .s32 2 11 12 13),
    (0x08C0B6034180, .vscat .s32 2 11 12 13),
    (0x7FFFF30002C0, .gpf 6 0x7FFFF),
    (0x1E000C414300, .atom .add .span true 3 .y 1 2 3 0),
    (0x1E100C414300, .atom .fadd .span true 3 .y 1 2 3 0),
    (0x1E200C414300, .atom .min .span true 3 .y 1 2 3 0),
    (0x1E300C414300, .atom .max .span true 3 .y 1 2 3 0),
    (0x1E400C414300, .atom .and .span true 3 .y 1 2 3 0)] : List (BitVec 48 × Instr)).all (fun (w, i) => reads (decodeLS w) i) = true := by
  decide +kernel

theorem test_decode_load_store_2 : ([(0x1E500C414300, .atom .or .span true 3 .y 1 2 3 0),
    (0x1E600C414300, .atom .xor .span true 3 .y 1 2 3 0),
    (0x1E700C414300, .atom .swap .span true 3 .y 1 2 3 0),
    (0x1E820C414300, .atom .cas .span true 3 .y 1 2 3 4),
    (0x000000000340, .drain (.scope .cube)),
    (0x000000004340, .drain (.scope .pkg)),
    (0x000000008340, .drain (.scope .span)),
    (0x00000000C340, .drain (.scope .sys)),
    (0x000000010340, .drain .nm),
    (0x0005FC06C380, .tclr .v 3 383),
    (0x0000000003C0, .tctl),
    (0x00001C130400, .tget 7 (.reg .p 9)),
    (0x000020014400, .tget 8 .ctaint),
    (0x001C1590C440, .spt .v 200 5 224),
    (0x001C1590C480, .ldt .v 200 5 224)] : List (BitVec 48 × Instr)).all (fun (w, i) => reads (decodeLS w) i) = true := by
  decide +kernel

theorem test_decode_cube_control_1 : ([(0x9C7862290040, .cmma 2 4 5 6 0x3C 39),
    (0x9C7862290080, .cmmz 2 4 5 6 0x3C 39),
    (0x011B2183C0C0, .accrd .s32 3 100 2 15),
    (0x001C0C83C100, .accwr .f32 9 1 3 15),
    (0xFC000001C140, .copy 7 63),
    (0x0000001A0180, .msend 8 3 0),
    (0x21579B0241C0, .putfImm 9 0xABCD 8),
    (0xFC00005241C0, .putfReg 9 10 63),
    (0xFC0001514200, .nmc 5 true 10 63),
    (0x00018A484240, .bdecl 33 4 5 6),
    (0x000000184280, .bstate true 33),
    (0x0000000F82C0, .bfree 62),
    (0x91A7FFF94300, .semi 5 0xFFFF 0x1234),
    (0x014C00094340, .sems 5 0x8001 true 20),
    (0x000000104380, .semw 1 2),
    (0x0000000643C0, .bar .span 9)] : List (BitVec 48 × Instr)).all (fun (w, i) => reads (decodeCC w) i) = true := by
  decide +kernel

theorem test_decode_cube_control_2 : ([(0x000048D14400, .pleave 5 0x1234),
    (0x1C0000014440, .wlaunch 5 7),
    (0x00000810C480, .crr 3 0x102),
    (0x0000080104C0, .crw 4 0x100),
    (0x00002FBBC500, .sys 0xBEEF),
    (0x000000000540, .rfe),
    (0x00000030C580, .tlbi 6 3),
    (0x0000000A85C0, .dbg 0x2A)] : List (BitVec 48 × Instr)).all (fun (w, i) => reads (decodeCC w) i) = true := by
  decide +kernel

/-- R130 to R137: codes of no instruction, set bits of unused fields, and types, modes and registers outside the lists. -/
theorem test_reserved_words_refused :
    ([0x000400, 0x003980, 0x300280] : List (BitVec 24)).all (fun w => refusesWord (decodeCtl w)) = true ∧
    ([0xC00, 0x010000040, 0xD10000540, 0x002800900] : List (BitVec 36)).all (fun w => refusesWord (decodeXY .x w)) = true ∧
    refusesWord (decodeA 0x0000000240) = true ∧
    ([0x01600301004080, 0x6008C0, 0x940] : List (BitVec 56)).all (fun w => refusesWord (decodeV w)) = true ∧
    ([0x4C0, 0x1E900C414300, 0xC040] : List (BitVec 48)).all (fun w => refusesWord (decodeLS w)) = true ∧
    ([0x600, 0xA00000040, 0x001000000340] : List (BitVec 48)).all (fun w => refusesWord (decodeCC w)) = true := by
  decide +kernel

/-! Well-formedness: one ill-formed term for each check, which the check refuses, beside well-formed ones. -/

theorem test_wf_refuses_control : ([.lsetImm 6 0, .lsetReg 7 .x 0, .lstride 6 0 0, .loop 7, .lexit 6 0, .wcfg 0 0 3,
    .setfmt 12 0 0 0 .rn, .setfmt 0 13 0 0 .rn, .setfmt 0 0 2 0 .rn, .setfmt 0 0 0 3 .rn] : List Instr).all (fun i => !i.wf) = true := by
  decide +kernel

theorem test_wf_refuses_scalar : ([.add .x .s16 false 1 2 3, .sub .y .f32 true 1 2 3, .mul .x .z8 1 2 3, .div .x .f64 1 2 3,
    .sra .x .s8 1 2 3, .mulh .x .z32 1 2 3, .min .x .z64 1 2 3, .mulhz .x .s32 1 2 3, .maxz .x .s64 1 2 3, .cmp .x .eq .f32 1 2 3,
    .clz .x .s16 1 2, .sext .x .z8 1 2, .sext .x .s64 1 2, .zext .x .s8 1 2, .xmov .x .x 1 2, .xmov .y .y 1 2,
    .fadd .x .s32 .rn 1 2 3, .fmin .x .z32 1 2 3, .fcmp .x .ltz .f32 1 2 3, .fcmp .x .lt .s32 1 2 3, .fcvt .x .f32 .tern .rn false 1 2,
    .fsgn .x .s64 .cpy 1 2 3, .frcp .x .s32 .rn 1 2] : List Instr).all (fun i => !i.wf) = true := by
  decide +kernel

theorem test_wf_refuses_vector : ([.vadd .s32 .rz false 1 2 3, .vadd .f32 .rn false 384 2 3, .vsub .f32 .rn false 1 384 3,
    .vmul .f32 .rn false 1 2 384, .vfma .e4m3 .rn false 1 2 3, .vmin .e2m1 1 2 3, .vabs .f32 true 1 2, .vneg .tern false 1 2,
    .vand .f32 1 2 3, .vcmp .ltz .f32 1 2 3, .vsel .e2m3 1 2 3 4, .vcvt .f64 .int4 0 .rn false 1 2 3, .vcvt .f32 .f16 2 .rn false 1 2 3,
    .vpack .tern 16 .rn false 1 2 3, .vunpack .e2m3 6 1 2 3, .vscale false 0 .rn false 1 2 384, .vbcast .f64 32 1 2, .vperm .int4 1 2 3,
    .vshuf .rev .s32 1 2 3, .vrot .s32 64 1 2, .vlane .f32 1 1 2, .vins .z16 127 1 400, .vext .f64 32 1 2 3,
    .vscan .and false false .f32 .rn false 1 2 0, .vscan .add false false .s32 .rz false 1 2 0, .vscan .max false false .s32 .rn true 1 2 0,
    .vscan .add false false .s32 .rn false 1 2 3, .vred .xor .f16 .rn false 1 2 3, .vpart .s16 1 2 3 4, .vpart .s32 1 1 3 4,
    .vexp2 .f64 1 2, .vrcp .s32 .rn 1 2, .vmov 384 0, .vmovi false 0 500] : List Instr).all (fun i => !i.wf) = true := by
  decide +kernel

theorem test_wf_refuses_memory_and_cube : ([.ld .x .e4m3 1 2 0, .gst .a .int4 1 2 0, .vld 384 1 0, .gvst 400 1 0, .vgath .s8 0 1 2 3,
    .vscat .s32 0 384 2 3, .atom .fadd .cube true 1 .x 1 2 3 0, .atom .add .cube true 2 .x 1 2 3 4, .atom .add .cube false 2 .x 1 2 3 0,
    .tclr .x 5 4, .tclr .p 0 16, .tget 1 (.reg .x 32), .spt .a 32 0 0, .ldt .v 0 0 225, .sems 0 1 false 2, .cmma 0 1 2 3 0 63,
    .cmmz 0 1 2 3 5 63, .cmma 0 1 2 3 1 40, .accrd .z32 0 0 0 0, .accrd .z16 0 1 0 0, .accwr .f16 0 0 0 0, .copy 1 62, .nmc 1 false 2 63,
    .wlaunch 1 44, .tlbi 3 0, .tlbi 7 0] : List Instr).all (fun i => !i.wf) = true := by
  decide +kernel

theorem test_wf_accepts : ([.lsetImm 5 1023, .wcfg 31 31 2, .setfmt 11 11 1 2 .rd, .add .x .s32 true 31 31 31, .xmov .x .y 0 0,
    .fcmp .y .le .f64 15 1 2, .fcvt .x .tern .f32 .rn false 1 2, .vadd .z8 .rn true 383 383 383, .vsel .e2m1 1 2 3 4,
    .vcvt .s8 .f32 3 .rz true 1 2 3, .vpack .tern 15 .rn false 1 2 3, .vscan .add true true .f32 .rz false 1 2 3, .vpart .z64 1 2 3 4,
    .tclr .v 0 383, .ldt .v 383 7 224, .cmma 15 31 31 31 0x80 63, .accrd .z16 0 0 0 0, .nmc 1 true 2 63, .tlbi 6 0] : List Instr).all
    Instr.wf = true := by
  decide +kernel

/-! The spec's worked values (R159, R170, R172, the worked conversions of 03). -/

/-- The reset machine with one task resident at level U and zero bundles before it. -/
def placed : State := { placeBundle State.reset 0 with agenda := [] }
def withX (l : List (Nat × Nat)) (s : State := placed) : State :=
  s.modCf fun r => { r with regs := { r.regs with x := Vector.ofFn fun i => w64 ((l.find? (·.1 = i.val)).map (·.2) |>.getD 0) } }
def withA (l : List (Nat × Nat)) (s : State := placed) : State :=
  s.modCf fun r => { r with regs := { r.regs with a := Vector.ofFn fun i => w64 ((l.find? (·.1 = i.val)).map (·.2) |>.getD 0) } }
/-- The one result that an instruction puts in flight: its value, its flags and whether it divided by zero. -/
def result (i : Instr) (s : State) : Option (Nat × Nat × Bool) :=
  match exec i s with
  | .next u => match (u.frame s.cur s.curF).fl.land with | [l] => some (l.val.toNat, l.flags.toNat, l.idz) | _ => none
  | _ => none
/-- An instruction on x2 and x3, which hold a and b, puts this in flight. -/
def gives (i : Instr) (a b : Nat) (v : Nat) (fl : Flags5 := 0) (idz : Bool := false) : Bool :=
  result i (withX [(2, a), (3, b)]) = some (v, fl.toNat, idz)

theorem test_division_values :
    (gives (.div .x .s64 1 2 3) 7 (2 ^ 64 - 2) (2 ^ 64 - 3) && gives (.rem .x .s64 1 2 3) (2 ^ 64 - 7) 2 (2 ^ 64 - 1)
      && gives (.div .x .s64 1 2 3) 5 0 (2 ^ 64 - 1) 0 true && gives (.div .x .z32 1 2 3) 5 0 0xFFFFFFFF 0 true
      && gives (.rem .x .z32 1 2 3) 0x100000005 0 5 0 true
      && gives (.div .x .s32 1 2 3) 0x80000000 0xFFFFFFFF 0xFFFFFFFF80000000) = true := by
  decide +kernel

theorem test_integer_values :
    (gives (.sll .x .s64 1 2 3) 1 65 2 && gives (.srl .x .s32 1 2 3) 0x80000000 4 0x08000000
      && gives (.sra .x .z32 1 2 3) 0x80000000 4 0xF8000000 && gives (.add .x .s32 true 1 2 3) 0x7FFFFFFF 1 0x7FFFFFFF
      && gives (.clz .x .z32 1 2) 0 0 32 && gives (.add .x .z64 true 1 2 3) (2 ^ 64 - 1) 1 (2 ^ 64 - 1)) = true := by
  decide +kernel

theorem test_float_values :
    (gives (.fadd .x .f32 .rn 1 2 3) 0x7F800000 0xFF800000 0x7FC00000 flINV && gives (.fadd .x .f32 .rd 1 2 3) 0x3F800000 0xBF800000 0x80000000
      && gives (.fadd .x .f32 .rn 1 2 3) 0x7F7FFFFF 0x7F7FFFFF 0x7F800000 (flOVF ||| flINX)
      && gives (.fadd .x .f32 .rz 1 2 3) 0x7F7FFFFF 0x7F7FFFFF 0x7F7FFFFF (flOVF ||| flINX)
      && gives (.fmin .x .f32 1 2 3) 0x7FC00000 0x40000000 0x40000000 && gives (.frcp .x .f32 .rn 1 2) 0x40400000 0 0x3EAAAAAB flINX
      && gives (.frcp .x .f32 .rn 1 2) 0x80000000 0 0xFF800000 flDZ && gives (.frsq .x .f32 .rn 1 2) 0xC0800000 0 0x7FC00000 flINV
      && gives (.fcvt .x .bf16 .f32 .rn false 1 2) 0x3F808000 0 0x3F80 flINX) = true := by
  decide +kernel

theorem test_conversion_values :
    (gives (.fcvt .x .bf16 .f32 .ru false 1 2) 0x3F808000 0 0x3F81 flINX && gives (.fcvt .x .bf16 .f32 .rn false 1 2) 0x3F818000 0 0x3F82 flINX
      && gives (.fcvt .x .e4m3 .f32 .rn false 1 2) 0x43E80000 0 0x7E flINX && gives (.fcvt .x .e4m3 .f32 .rn false 1 2) 0x43F00000 0 0x7E (flOVF ||| flINX)
      && gives (.fcvt .x .e2m1 .e5m2 .rn false 1 2) 0x7C 0 7 (flOVF ||| flINV) && gives (.fcvt .x .e2m1 .e5m2 .rn true 1 2) 0x7C 0 7 flOVF
      && gives (.fcvt .x .e2m1 .f32 .rn false 1 2) 0xFFC00000 0 0xF flINV && gives (.fcvt .x .f16 .f32 .rn false 1 2) 0xFFC00000 0 0x7E00
      && gives (.fcvt .x .e2m1 .f32 .rn false 1 2) 0x3E99999A 0 1 (flUNF ||| flINX) && gives (.fcvt .x .e2m1 .f32 .rz false 1 2) 0x3E99999A 0 0 flINX
      && gives (.fcvt .x .s8 .f32 .rn false 1 2) 0xC0200000 0 (2 ^ 64 - 2) flINX && gives (.fcvt .x .s8 .f32 .rn false 1 2) 0x43480000 0 0x7F flINV
      && gives (.fcvt .x .s8 .s32 .rn false 1 2) 300 0 44) = true := by
  decide +kernel

theorem test_ring_offset : result (.amod 5 2 3 4) (withA [(2, 0xF80), (3, 0x100), (4, 0x1000)]) = some (0x080, 0, false) := by
  decide +kernel

/-! The spec's vector examples (R184, R188, R190). -/

/-- The one vector result that an instruction on v21, v22 puts in flight. -/
def vector (i : Instr) (a b : List Nat) (w : Nat) : VReg :=
  let v := fun (l : List Nat) => (l.zipIdx.foldl (fun (n : Nat) (x : Nat × Nat) => n + x.1 <<< (w * x.2)) 0)
  match exec i (placed.modCf fun r => { r with regs := { r.regs with v := [(21, BitVec.ofNat 2048 (v a)), (22, BitVec.ofNat 2048 (v b))] } }) with
  | .next u => match (u.frame 0 0).fl.land with | [l] => l.val | _ => 0
  | _ => 0
def lanes32 (v : VReg) (l : List (Nat × Nat)) : Bool := l.all fun (i, x) => (lane .s32 v i).toNat == x

theorem test_segmented_scan :
    let a := [3, 1, 4, 1, 5, 9, 2, 6] ++ List.replicate 56 1
    let heads := [1, 0, 0, 1, 0, 0, 1, 0]
    lanes32 (vector (.vscan .add false true .s32 .rn false 20 21 22) a heads 32)
      [(0, 3), (1, 4), (2, 8), (3, 1), (4, 6), (5, 15), (6, 2), (7, 8), (8, 9), (63, 64)] = true ∧
    lanes32 (vector (.vscan .add true true .s32 .rn false 20 21 22) a heads 32)
      [(0, 0), (1, 3), (2, 4), (3, 0), (4, 1), (5, 6), (6, 0), (7, 2), (8, 8), (63, 63)] = true := by
  decide +kernel

theorem test_scan_and_reduction_orders :
    let a := [0x3F800000, 0, 0x33800000, 0x33800000]
    lanes32 (vector (.vscan .add false false .f32 .rn false 5 21 0) a [] 32) [(0, 0x3F800000), (3, 0x3F800000), (63, 0x3F800000)] = true ∧
    lanes32 (vector (.vred .add .f32 .rn false 6 21 0) a [] 32) [(0, 0x3F800001), (63, 0x3F800001)] = true := by
  decide +kernel

theorem test_pack_e2m1 :
    (vector (.vpack .e2m1 0 .rn false 22 21 0) [0x3F800000, 0xBF000000, 0x40C00000, 0, 0x40E00000, 0x3E99999A]
      [2 ^ 256 * 77] 32).toNat = 0x170792 + 77 * 2 ^ 256 := by
  decide +kernel

/-! Witnesses: for every statement with hypotheses, concrete states and operands that meet them, clause by clause, at the
ends of the ranges. -/

theorem no_bufs {s : State} (h : s.cf.bufs = Vector.replicate 64 none) (i : Nat) : s.cf.buf i = none := by
  unfold Frame.buf
  rw [h]
  simp only [Vector.toList_replicate, List.getD_eq_getElem?_getD, List.getElem?_replicate]
  split <;> rfl

/-- The decidable part of `State.scratch`; with no buffer declared it is the whole. -/
def scratchOk (s : State) (ea : Word) (n : Nat) : Bool :=
  let a := bits ea.toNat 0 32
  decide (ea.toNat % min n 64 = 0) && windowOk ea && layerIn s.cf (spLayer a) && spInside s.cf a n && !spRetired s.cf a
    && !spRetired s.cf (a + n - 1) && decide (s.cf.bufs = Vector.replicate 64 none)

theorem scratch_of {s : State} {ea : Word} {n : Nat} (e : BufEvent) (h : scratchOk s ea n = true) : s.scratch ea n e := by
  simp only [scratchOk, Bool.and_eq_true, decide_eq_true_eq, Bool.not_eq_true'] at h
  obtain ⟨⟨⟨⟨⟨⟨h1, h2⟩, h3⟩, h4⟩, h5⟩, h6⟩, h7⟩ := h
  refine ⟨h1, h2, h3, h4, h5, h6, fun i b hb => ?_⟩
  rw [no_bufs h7] at hb
  cases hb

def cleanOk (s : State) (ea : Word) (n : Nat) : Bool :=
  (List.range (ceilDiv (bits ea.toNat 0 32 % 64 + n) 64)).all fun i =>
    let ln := s.spKey ea / 64 * 64 + 64 * i
    !facePoisoned (s.cube s.cur) ln && !faceFails (s.cube s.cur) ln

theorem clean_of {s : State} {ea : Word} {n : Nat} (h : cleanOk s ea n = true) : s.clean ea n := by
  simp only [cleanOk, List.all_eq_true, List.mem_range, Bool.and_eq_true, Bool.not_eq_true'] at h
  exact h

def tsk : Machine.Task := ⟨0, 0, 0, 0, 0, 0, 0, 0, #v[0x10000, 0x8000, 0x4000], [(0, 512), (1, 2 ^ 16), (2, 0)], 0⟩
/-- The placed machine with 64, 32 and 16 KiB of every layer's faces reserved. -/
def faced : State := placed.modCf fun r => { r with task := some tsk, ctl := { r.ctl with layers := 0xFF } }
def levelS : State := faced.modCf fun r => { r with priv := { r.priv with lvl := true, ctxptr := 0x40000 } }

/-- ScalarSumsAndProducts, ScalarDivision, ScalarLogicShiftsAndCounts, ScalarMovesAndPredicates, ScalarFloat,
ScalarConversion, AddressResults, BranchesAndCalls, TaintInstructions: a core that issues; types and files; for `amod`
two offsets below a ring of the greatest length. -/
theorem witness_scalar : placed.quiet = true ∧ Ty.isScalar .s32 = true ∧ Ty.isScalar .z64 = true ∧ Ty.isFp .bf16 = true ∧
    Ty.f64.isFp = true ∧ (Ty.f32 ≠ .tern) ∧ (File3.y ≠ xyFile .x) ∧ (Cnd.fpOk .lt = true) ∧
    (let s := withA [(2, 2 ^ 63 - 1), (3, 2 ^ 63 - 1), (4, 2 ^ 63)]
     s.quiet = true ∧ (s.reg .a 2).ult (s.reg .a 4) = true ∧ (s.reg .a 3).ult (s.reg .a 4) = true ∧ (s.reg .a 4).toNat ≤ 2 ^ 63) ∧
    (Instr.tclr .v 0 383).wf = true ∧ (Instr.tclr .p 15 15).wf = true ∧ vok 383 = true := by
  decide +kernel

/-- ScalarConversion: a field with a ternary source; a float and an integer source; a NaN; a narrower integer. -/
theorem witness_conversion : (0xB0000B00#36).extractLsb' 6 7 = 0x2C#7 ∧ (0xB0000B00#36).extractLsb' 28 5 = Ty.tern.code ∧
    Ty.f32.isFloat = true ∧ Ty.s8.isFloat = false ∧ (fval .f32 0x7FC00000).isNan = true ∧
    Ty.s8 ≠ .tern ∧ Ty.s8.width < Ty.s32.width ∧ placed.quiet = true := by
  decide +kernel

/-- VectorIntegerArithmetic, VectorFloatArithmetic, VectorLogicShiftsAndSelection, VectorConversions, VectorLaneMovement,
VectorScansReductionsAndPartition, VectorMovesAndTranscendentals: the last register, part, lane and type codes. -/
theorem witness_vector : placed.quiet = true ∧ vok 383 = true ∧ vok 0 = true ∧ Ty.z8.isLaneInt = true ∧ Ty.bf16.isFp = true ∧
    Cnd.fpOk .ne = true ∧ (Instr.vcvt .s8 .f32 3 .rz true 383 0 1).wf = true ∧ (Instr.vcvt .f32 .tern 0 .rn false 383 0 1).wf = false ∧
    (15 < Ty.tern.parts) ∧ (5 < Ty.e2m3.parts) ∧ Ty.s8.moveOk = true ∧ (127 < Ty.z16.lanes) ∧ scanOk .add .f32 .rd false = true ∧
    scanOk .add .z8 .rn true = true ∧ scanOk .xor .s64 .rn false = true ∧ (Instr.vpart .z64 383 0 1 2).wf = true := by
  decide +kernel

/-- VectorMovesAndTranscendentals: at FP32, `vexp2` of 128, of 3 and −149, of a half, of −151 and −152; `vlog2` of a power of
two and of 3; `vtanh` of 10 and of the value below it. -/
theorem witness_transcendentals :
    let fin := fun (c : Nat) (p : Bool → Nat → Int → Bool) => match fval .f32 c with | .fin neg m e => decide (m ≠ 0) && p neg m e | _ => false
    let i := fun (neg : Bool) (m : Nat) (e : Int) => (roundToInt .rz neg m e).1
    let whole := fun (neg : Bool) (m : Nat) (e : Int) => (roundToInt .rz neg m e).2 == false
    let pow2 := fun (m : Nat) => m == 2 ^ Nat.log2 m
    fin 0x43000000 (fun g m e => decide (128 ≤ i g m e)) = true ∧
    (∀ c ∈ [0x40400000, 0xC3150000], fin c (fun g m e => decide (i g m e < 128) && whole g m e && decide (-149 ≤ i g m e)) = true) ∧
    (∀ c ∈ [0x3F000000, 0xC3170000], fin c (fun g m e => decide (i g m e < 128) && !(whole g m e && decide (-149 ≤ i g m e)) &&
      decide (-152 < i g m e)) = true) ∧
    fin 0xC3180000 (fun g m e => decide (i g m e < 128) && !(whole g m e && decide (-149 ≤ i g m e)) && decide (i g m e < -151)) = true ∧
    (∀ c ∈ [0x41000000, 0x3E800000], fin c (fun g m _ => !g && pow2 m) = true) ∧ fin 0x40400000 (fun g m _ => !g && !pow2 m) = true ∧
    fin 0x41200000 (fun _ m e => decide (10 ≤ i false m e)) = true ∧ fin 0xC11FFFFF (fun _ m e => decide (i false m e < 10)) = true ∧
    (∀ t ∈ [Ty.f32, .f16, .bf16], 0 < t.lanes) ∧ vok 383 = true := by
  decide +kernel

def levels (n : Nat) (on : Bool) (k : Nat) : State := placed.modCf fun r =>
  { r with seq := r.seq.set 5 ⟨on, 0x10044, n, true, List.replicate k (3, 8)⟩ }

/-- LoopLevels: counts 1 and 2^32 − 1, 0 and 2^32; three pairs and four; one and two turns left; an inactive level. -/
theorem witness_loops : (5#3).toNat < 6 ∧
    (∀ n ∈ [0, 1, 2 ^ 32 - 1, 2 ^ 32], (withX [(2, n)]).quiet = true ∧ ((withX [(2, n)]).reg .x 2).toNat = n) ∧
    (∀ k ∈ [3, 4], (levels 1 true k).quiet = true ∧ ((levels 1 true k).cf.level 5).pairs.length = k) ∧
    (∀ n ∈ [1, 2], (levels n true 4).quiet = true ∧ ((levels n true 4).cf.level 5).active = true ∧ ((levels n true 4).cf.level 5).remain = n) ∧
    (levels 0 false 0).quiet = true ∧ ((levels 0 false 0).cf.level 5).active = false := by
  decide +kernel

def dbgOn : State := placed.modCube 0 fun q => { q with dbgAttached := true, dbgEvents := true }
def fids : State := placed.modCf fun r => { r with ctl := { r.ctl with fid := 0x1A } }   -- B2, B1, B0 = 1, 2, 2

/-- WindowFormatAndQuietSlots: both orders of offset and size; an order of bands kept, one relaxed; a debugger and none. -/
theorem witness_window : placed.quiet = true ∧ (2#2 ≠ 3) ∧ (31#5).toNat ≤ (31#5).toNat ∧ (0#5).toNat < (1#5).toNat ∧
    (Instr.setfmt 11 11 1 2 .rd).wf = true ∧ (Instr.setfid 2 2 1).wf = true ∧ fids.quiet = true ∧
    (let old := fun (b : Nat) => (fids.cf.ctl.fid.extractLsb' (2 * b) 2).toNat
     2 ≤ old 0 ∧ 2 ≤ old 1 ∧ 1 ≤ old 2 ∧ ¬ 3 ≤ old 0) ∧
    (placed.cube placed.cur).dbgAttached = false ∧ dbgOn.quiet = true ∧ (dbgOn.cube dbgOn.cur).dbgAttached = true ∧
    (dbgOn.cube dbgOn.cur).dbgEvents = true := by
  decide +kernel

/-- HaltTrapSysAndReturn, HandlerFaultsAndReturns: level U; level S with each disposition. -/
theorem witness_levels : placed.quiet = true ∧ placed.cf.priv.lvl = false ∧ levelS.quiet = true ∧ levelS.cf.priv.lvl = true ∧
    levelS.cf.priv.disp = 0 ∧
    (let s := levelS.modCf fun r => { r with priv := { r.priv with disp := 2 } }
     s.quiet = true ∧ s.cf.priv.lvl = true ∧ s.cf.priv.disp = 2) := by
  decide +kernel

/-- A state whose a3 holds an address. -/
def at3 (ea : Nat) (s : State := faced) : State := withA [(3, ea)] s
def spEnd : Nat := 0x00FF000000010000

/-- ScratchpadLoads, ScratchpadStores: the last element and the last 256 bytes of the reservation; a line poisoned is not
clean. -/
theorem witness_scratchpad :
    (let s := at3 (spEnd - 8)
     s.quiet = true ∧ (Instr.ld .x .s64 1 3 0).wf = true ∧ s.scratch (s.reg .a 3 + (0#17).signExtend 64) 8 .load ∧
       s.clean (s.reg .a 3 + (0#17).signExtend 64) 8 ∧ s.cf.taint.ct = 0 ∧ s.tnt .a 3 = 0 ∧ s.tnt .x 1 = 0) ∧
    (let s := at3 spEnd
     s.quiet = true ∧ vok 383 = true ∧ s.scratch (s.reg .a 3 + (BitVec.ofInt 20 (-256)).signExtend 64) 256 .load ∧
       s.clean (s.reg .a 3 + (BitVec.ofInt 20 (-256)).signExtend 64) 256 ∧
       s.scratch (s.reg .a 3 + (BitVec.ofInt 20 (-256)).signExtend 64) 256 .store ∧ s.vtnt 383 = 0) := by
  refine ⟨⟨by decide +kernel, by decide +kernel, scratch_of _ (by decide +kernel), clean_of (by decide +kernel), by decide +kernel,
    by decide +kernel, by decide +kernel⟩, by decide +kernel, by decide +kernel, scratch_of _ (by decide +kernel), clean_of (by decide +kernel),
    scratch_of _ (by decide +kernel), by decide +kernel⟩

/-- ScratchpadStores: no face line of the cube fails. -/
theorem witness_faces_sound : ∀ k, faceFails (faced.cube faced.cur) k = false := by
  have h1 : (faced.cube faced.cur).fab.busBad = 0 := by decide +kernel
  have h2 : (faced.cube faced.cur).fab.banks = [] := by decide +kernel
  intro k
  simp [faceFails, h1, h2]

def okWith {ε α : Type} (x : Except ε α) (p : α → Bool) : Bool := match x with | .ok a => p a | .error _ => false
theorem okWith_of {ε α : Type} {x : Except ε α} {p : α → Bool} (h : okWith x p = true) : ∃ a, x = .ok a ∧ p a = true := by
  cases x with
  | ok a => exact ⟨a, rfl, h⟩
  | error e => cases h
def errWith {ε α : Type} (x : Except ε α) (p : ε → Bool) : Bool := match x with | .ok _ => false | .error e => p e
theorem errWith_of {ε α : Type} {x : Except ε α} {p : ε → Bool} (h : errWith x p = true) : ∃ e, x = .error e ∧ p e = true := by
  cases x with
  | error a => exact ⟨a, rfl, h⟩
  | ok e => cases h

/-- GatherAndScatter: all lanes name one element, the last of the reservation; then 32 lanes of one line. -/
def gatherAt (ix : VReg) : State := (at3 (spEnd - 64)).modCf fun r => { r with regs := { r.regs with v := [(5, ix)] } }
def gatherEa (s : State) (i : Nat) : Word := (s.reg .a 3).extractLsb' 32 32 ++
  ((s.reg .a 3).setWidth 32 + ((lane .s64 (s.vreg 5) i).setWidth 64 <<< (3#2).toNat).setWidth 32 : BitVec 32)
def sevens : VReg := BitVec.ofNat 2048 ((2 ^ 2048 - 1) / (2 ^ 64 - 1) * 7)
theorem gather_lanes : ∀ i, i < 32 → scratchOk (gatherAt sevens) (gatherEa (gatherAt sevens) i) 8 = true ∧
    cleanOk (gatherAt sevens) (gatherEa (gatherAt sevens) i) 8 = true ∧
    laneBank (gatherAt sevens).cf (bits (gatherEa (gatherAt sevens) i).toNat 0 32)
      = laneBank (gatherAt sevens).cf (bits (gatherEa (gatherAt sevens) 0).toNat 0 32) := by
  decide +kernel
theorem witness_gather :
    let s := gatherAt sevens
    s.quiet = true ∧ (Instr.vgath .s64 3 5 3 6).wf = true ∧
    (∀ i j, i < 32 → j < 32 → (laneBank s.cf (bits (gatherEa s i).toNat 0 32)).1 = (laneBank s.cf (bits (gatherEa s j).toNat 0 32)).1 →
      (laneBank s.cf (bits (gatherEa s i).toNat 0 32)).2 = (laneBank s.cf (bits (gatherEa s j).toNat 0 32)).2) ∧
    (∀ i, i < 32 → s.scratch (gatherEa s i) 8 .load ∧ s.clean (gatherEa s i) 8) ∧ (∀ i, i < 32 → s.scratch (gatherEa s i) 8 .store) ∧
    s.cf.taint.ct = 0 ∧ s.tnt .a 3 = 0 ∧ s.vtnt 5 = 0 ∧ s.vtnt 6 = 0 := by
  refine ⟨by decide +kernel, by decide +kernel, fun i j hi hj _ => by rw [(gather_lanes i hi).2.2, (gather_lanes j hj).2.2],
    fun i hi => ⟨scratch_of _ (gather_lanes i hi).1, clean_of (gather_lanes i hi).2.1⟩, fun i hi => scratch_of _ (gather_lanes i hi).1,
    by decide +kernel, by decide +kernel, by decide +kernel, by decide +kernel⟩

/-- GatherAndScatter: lane 0 and one other, the next or the last, in two lines of one bank; the greatest bank named. -/
theorem witness_bank_conflict : ∀ i ∈ [1, 31],
    let s := gatherAt (BitVec.ofNat 2048 ((2 ^ 64 - 1) <<< (64 * i)))
    let bank := fun (l : Nat) => laneBank s.cf (bits (gatherEa s l).toNat 0 32)
    s.quiet = true ∧ (Instr.vgath .s64 3 5 3 6).wf = true ∧ s.cf.taint.ct = 0 ∧ s.tnt .a 3 = 0 ∧ s.vtnt 5 = 0 ∧ s.vtnt 6 = 0 ∧
    (∀ l, l < 32 → scratchOk s (gatherEa s l) 8 = true) ∧ (bank 0).1 = (bank i).1 ∧ (bank 0).2 ≠ (bank i).2 ∧
    (∀ l, l < i → (bank l).2 = (bank 0).2) := by
  simp only [List.forall_mem_cons, List.not_mem_nil, false_implies, implies_true, and_true]
  refine ⟨⟨?_, ?_, ?_, ?_, ?_, ?_, ?_, ?_, ?_, ?_⟩, ?_, ?_, ?_, ?_, ?_, ?_, ?_, ?_, ?_, ?_⟩ <;> decide +kernel

/-- AddressFaults: an odd address; the last layer withdrawn; bits 63 to 32 of no window; a byte past the reservation;
then the global window, an odd global address, and bit 56. -/
theorem witness_address_faults :
    let e := fun (s : State) => s.reg .a 3 + (0#17).signExtend 64
    let a := fun (s : State) => bits (e s).toNat 0 32
    let ok := fun (s : State) => s.quiet = true ∧ s.cf.taint.ct = 0 ∧ s.tnt .a 3 = 0 ∧ s.tnt .x 1 = 0
    (Instr.ld .x .s64 1 3 0).wf = true ∧ (Instr.st .x .s64 1 3 0).wf = true ∧ (Instr.gld .x .s64 1 3 0).wf = true ∧
    (Instr.gst .x .s64 1 3 0).wf = true ∧
    (let s := at3 (spEnd - 7)
     ok s ∧ (e s).toNat % 8 ≠ 0) ∧
    (let s := (at3 (0x00FF0000E0000000)).modCf fun r => { r with ctl := { r.ctl with layers := 0x7F } }
     ok s ∧ (e s).toNat % 8 = 0 ∧ layerIn s.cf (spLayer (a s)) = false) ∧
    (let s := at3 0x0000000100000000
     ok s ∧ (e s).toNat % 8 = 0 ∧ layerIn s.cf (spLayer (a s)) = true ∧ windowOk (e s) = false) ∧
    (let s := at3 spEnd
     ok s ∧ (e s).toNat % 8 = 0 ∧ layerIn s.cf (spLayer (a s)) = true ∧ windowOk (e s) = true ∧ s.cf.banks = [] ∧
       spInside s.cf (a s) 8 = false) ∧
    (let s := at3 0x00FF000000000000
     ok s ∧ bits (e s).toNat 48 16 = 0xFF) ∧
    (let s := at3 0x1001
     ok s ∧ bits (e s).toNat 48 16 ≠ 0xFF ∧ (e s).toNat % 8 ≠ 0) ∧
    (let s := at3 0x0100000000000000
     ok s ∧ (e s).toNat % 8 = 0 ∧ 0x100 ≤ bits (e s).toNat 48 16) := by
  decide +kernel

/-- AddressFaults: the 256-byte forms, byte 32 of a line, the last layer withdrawn, no window, a
line past the reservation; atomics and prefetches in the window and above bit 55. -/
theorem witness_wide_faults :
    let e := fun (s : State) => s.reg .a 3 + (0#20).signExtend 64
    let a := fun (s : State) => bits (e s).toNat 0 32
    let ok := fun (s : State) => s.quiet = true ∧ s.cf.taint.ct = 0 ∧ s.tnt .a 3 = 0 ∧ s.vtnt 383 = 0
    vok 383 = true ∧ (Instr.atom .cas .sys true 3 .x 1 3 4 5).wf = true ∧
    (let s := at3 (spEnd - 32)
     ok s ∧ (e s).toNat % min 256 64 ≠ 0) ∧
    (let s := (at3 (0x00FF0000E0000000)).modCf fun r => { r with ctl := { r.ctl with layers := 0x7F } }
     ok s ∧ (e s).toNat % min 256 64 = 0 ∧ layerIn s.cf (spLayer (a s)) = false) ∧
    (let s := at3 0x0000000100000000
     ok s ∧ (e s).toNat % min 256 64 = 0 ∧ layerIn s.cf (spLayer (a s)) = true ∧ windowOk (e s) = false) ∧
    (let s := at3 (spEnd - 192)
     ok s ∧ (e s).toNat % min 256 64 = 0 ∧ layerIn s.cf (spLayer (a s)) = true ∧ windowOk (e s) = true ∧ s.cf.banks = [] ∧
       spInside s.cf (a s) 256 = false) ∧
    (let s := at3 0x00FF000000000000
     ok s ∧ bits (e s).toNat 48 16 = 0xFF ∧ bits (s.reg .a 3).toNat 48 16 = 0xFF) ∧
    (let s := at3 0x1020
     ok s ∧ bits (e s).toNat 48 16 ≠ 0xFF ∧ (e s).toNat % 64 ≠ 0 ∧ ¬ (e s).toNat % 1 ≠ 0) ∧
    (let s := at3 0x0100000000000000
     ok s ∧ (e s).toNat % 64 = 0 ∧ (e s).toNat % 1 = 0 ∧ 0x100 ≤ bits (e s).toNat 48 16) := by
  decide +kernel

/-- GlobalAccessesJoinTheQueue: the greatest global address below the window. -/
theorem witness_global_queue :
    let s := at3 0x00FEFFFFFFFFFFF8
    let ea := s.reg .a 3
    s.quiet = true ∧ (Instr.gld .x .s64 1 3 0).wf = true ∧ (Instr.gst .x .s64 1 3 0).wf = true ∧ vok 383 = true ∧
    ea.toNat % 8 = 0 ∧ bits ea.toNat 48 16 < 0xFF ∧ (ea - 56).toNat % 64 = 0 ∧ bits (ea - 56).toNat 48 16 < 0xFF ∧
    (Instr.atom .cas .sys true 3 .x 1 3 4 5).wf = true ∧ (Instr.atom .fadd .span true 2 .y 1 3 4 0).wf = true := by
  decide +kernel

/-- SpillAndReload: the last granule of X and the last 32 of a vector register, on the last layer; the line to read. -/
theorem witness_spill :
    faced.quiet = true ∧ faced.cf.taint.ct = 0 ∧ (Instr.spt .x 31 7 255).wf = true ∧ (Instr.ldt .x 31 7 255).wf = true ∧
    (Instr.spt .v 383 7 224).wf = true ∧ (Instr.ldt .v 383 7 224).wf = true ∧ layerIn faced.cf (7#3).toNat = true ∧ faced.cf.banks = [] ∧
    (224#8).toNat % 8 = 0 ∧
    (let ln := (faceKey 7 2 (0x1FFF000 + 0x800 * faced.curF.val + 8 * 224)) / 64 * 64
     ∀ i, i < 4 → facePoisoned (faced.cube faced.cur) (ln + 64 * i) = false ∧ faceFails (faced.cube faced.cur) (ln + 64 * i) = false) := by
  decide +kernel

/-- A buffer 63 in a given state. -/
def bufIn (st : BufSt) : State := faced.modCf fun r => { r with bufs := r.bufs.set 63 (some ⟨0xFFC0, 0x40, 7, st, 3, 1, 9⟩) }
/-- DeclaredBuffers: the last line of the reservation, on all layers; each state of a buffer; none. -/
theorem witness_buffers :
    (let s := withA [(3, spEnd - 64), (4, 64)] faced
     let a := bits (s.reg .a 3).toNat 0 32
     let n := (s.reg .a 4).toNat
     s.quiet = true ∧ windowOk (s.reg .a 3) = true ∧ spForm a = true ∧ a % 64 = 0 ∧ 0 < n ∧ n % 64 = 0 ∧ s.cf.task = some tsk ∧
       spOff a + n ≤ tsk.sizeOf (spFace a) ∧ spLayer a + (7#3).toNat < 8 ∧ s.cf.banks = [] ∧ s.cf.bufs = Vector.replicate 64 none ∧
       (∀ z, z < 8 → layerIn s.cf z = true)) ∧
    (∀ st ∈ [BufSt.empty, .full, .filling, .draining, .lost], (bufIn st).quiet = true ∧
      ((bufIn st).cf.buf 63).map (·.st) = some st) ∧
    faced.cf.buf 63 = none := by
  decide +kernel

/-- The placed task as member 2 of a gang with one other, its semaphore 3 at 5 of 9, and barred or not. -/
def gangs (ph : Option Nat) : State := withA [(3, 1), (4, 2)] (faced.modCf fun r => { r with
  task := some { tsk with rank := 1 }
  ctl := { r.ctl with taskid := 1#64 <<< 48 }
  issue := { r.issue with barred := ph.isSome }
  sync := { r.sync with semc := r.sync.semc.set 3 5, semx := r.sync.semx.set 3 9, stalled := r.sync.stalled.set 1 ph } })
def spans : State := faced.modCf fun r => { r with ctl := { r.ctl with taskid := 1#64 <<< 36 } }
/-- SemaphoresAndBarriers: counts at, below and above the ceiling and the count; a member and none; each leave; a first
arrival, a fifth span's form outside a wave, an ended phase. -/
theorem witness_semaphores :
    (let s := gangs none
     let member := fun (h : Nat) => bits h 14 50 = 0 ∧ bits h 2 6 = 0 ∧ bits h 8 6 ≤ taskSsize s.cf ∧ bits h 0 2 ≤ taskGsize s.cf
     let c := s.cf.sync.semc[(3#5).toFin]
     let x := s.cf.sync.semx[(3#5).toFin]
     s.quiet = true ∧ s.cf.away = false ∧ semRead s s.cur s.curF 3 = (c.toNat, x.toNat) ∧ member (s.reg .a 3).toNat ∧ ¬ member (s.reg .a 4).toNat ∧ (5#16).toNat ≤ x.toNat ∧ (5#16).toNat ≤ c.toNat ∧
       c.toNat < (6#16).toNat ∧ (9#16).toNat ≤ x.toNat ∧ c.toNat < (9#16).toNat ∧ x.toNat < (10#16).toNat ∧ (0#16).toNat = 0) ∧
    (let s := gangs none
     let t := { tsk with rank := 1 }
     s.cf.task = some t ∧ s.cf.sync.stalled.toList.getD 1 none = none ∧ heldPhases s 0 0 0 .gang 1 (taskSrank s.cf, t.rank) < 4 ∧
       taskSsize s.cf = 0) ∧
    (spans.quiet = true ∧ taskSsize spans.cf ≠ 0 ∧ findRec spans 0 0 = none ∧ spans.cf.sync.stalled.toList.getD 16 none = none) ∧
    (let s := gangs (some 7)
     (s.modCf fun r => { r with issue := { r.issue with barred := false } }).quiet = true ∧ s.cf.issue.barred = true ∧
       s.cf.sync.stalled.toList.getD 1 none = some 7 ∧ phaseEnded s 0 0 0 .gang 1 7 = true) := by
  decide +kernel

/-- SemaphoresAndBarriers: a handler's `semw` finds its task's count at 5 of 9 in the block; an arrival at the barrier of a span whose
record stands, of packages 0 and 3. -/
theorem witness_away_semaphores :
    (let s := gWriteVal levelS (ctxBase levelS levelS.cf.priv.ctxptr + offSem + 24) 8 (5 + 9 * 2 ^ 16)
     s.quiet = true ∧ s.cf.away = true ∧ semRead s s.cur s.curF 3 = (5, 9)) ∧
    (let k : Rec := ⟨0, 0, ((List.replicate 32 0).set 0 0x40000000001).set 16 0xC00, 0, 0, [], 1, 0, 0, none, false, [], [], none, 0, [], 0, [], []⟩
     let s := { spans with hub := { spans.hub with recs := [k] } }
     s.quiet = true ∧ s.cf.task = some tsk ∧ taskSsize s.cf ≠ 0 ∧ s.cf.sync.stalled.toList.getD 31 none = none ∧ findRec s 0 0 = some k ∧
      bits (k.word 0) 0 2 = 1 ∧ spanPkgs k = [0, 3] ∧ s.pkg = 0 ∧ heldPhases s 0 0 0 .span 15 (taskSrank s.cf, 0) < 4) := by
  refine ⟨?_, ?_⟩ <;> decide +kernel

/-- Words stored from a face key of cube 0 on. -/
def putWords (s : State) (key : Nat) (l : List Nat) : State :=
  s.modCube 0 fun q => { q with
    face := (l.zipIdx.flatMap fun (v, i) => (leBytes 8 v).zipIdx.map fun (b, j) => (key + 8 * i + j, b)).foldl (fun m e => fset 0 m e.1 e.2) q.face }

def cubeT (fmt : BitVec 16) (form : BitVec 32) (shp : Nat) : State := withA [(3, 0x40), (5, 0x08000000), (7, shp)] (faced.modCf fun r => { r with
  task := some { tsk with accN := 6, size := #v[0x4000000, 0x4000000, 0x2000000], base := [] }
  ctl := { r.ctl with fmt := fmt, form := form } })

/-- What CubeOperationsJoinTheQueue asks of a tile with a mask. -/
def tileMay (s : State) (i : Instr) (zero : Bool) (m : BitVec 8) : Bool :=
  let fmt := s.cf.ctl.fmt
  let w := fun (r : Reg) => s.reg .a r
  let low := maskLow m
  let sh := w 7
  let all := operandLines true (w 3) (decide (fmtAF fmt = 11)) (fmtTy (fmtAF fmt)).width (fmtSCM fmt) (shpK sh) (maskN m) (shpM sh) ++
    operandLines false (w 5) (decide (fmtAF fmt = 11)) (fmtTy (fmtBF fmt)).width (fmtSCM fmt) (shpK sh) (maskN m) (shpN sh)
  let runs := all.flatMap fun x => x.runs low
  i.wf && (pairInfo (fmtAF fmt) (fmtBF fmt)).isSome && !cubeIllegal (s.ctx i) zero 5 (w 3) (w 5) sh &&
  (descAdr (w 3) low).toNat % 64 == 0 && (descAdr (w 5) low).toNat % 64 == 0 &&
  (List.range 8).all (fun z => !m.getLsbD z || layerIn s.cf z) && runs.all (fun x => (runRetired s.cf x).isNone) &&
  all.all (fun x => x.boundsOk && (x.runs low).all (fun u => runInside s.cf u)) &&
  (descG (w 3) || descFace (w 3) == 0) && (descG (w 5) || descFace (w 5) == 1) && (touched s.cf runs).isEmpty && 0 < runs.length

/-- CubeOperationsJoinTheQueue: a BF16 tile on all layers and on the last; an accumulator read at the last row; the writes of
each form; a form that a read refuses, one that a write refuses, and pairs at an odd slot and at the last one. -/
theorem witness_cube_operations :
    (let s := cubeT 0x22 0 0x00080800
     s.quiet = true ∧ tileMay s (.cmma 5 3 5 7 0xFF 63) false 0xFF = true ∧ tileMay s (.cmmz 5 3 5 7 0x80 63) true 0x80 = true) ∧
    (let s := cubeT 0x22 0 0x00080800
     (Instr.accrd .f32 5 127 3 383).wf = true ∧ accrdIllegal (s.ctx (.accrd .f32 5 127 3 383)) .f32 5 = false ∧
      accrdIllegal (s.ctx (.accrd .f32 6 127 3 383)) .f32 6 = true ∧ (Instr.accwr .f32 5 127 3 383).wf = true ∧
      writeForm (s.ctx (.accwr .f32 5 127 3 383)) .f32 5 = some 2 ∧ (5#4).toNat < accN s.cf) ∧
    (let s := cubeT 0 0 0
     (Instr.accwr .f64 4 127 3 383).wf = true ∧ writeForm (s.ctx (.accwr .f64 4 127 3 383)) .f64 4 = some 3 ∧ (4#4).toNat % 2 = 0 ∧
      (4#4).toNat + 1 < accN s.cf ∧ writeForm (s.ctx (.accwr .f64 5 127 3 383)) .f64 5 = some 3 ∧ (5#4).toNat % 2 = 1 ∧
      accN s.cf ≤ (6#4).toNat) ∧
    (let s := (cubeT 0 0 0).modCf fun r => { r with task := r.task.map fun t => { t with accN := 5 } }
     s.quiet = true ∧ writeForm (s.ctx (.accwr .f64 4 127 3 383)) .f64 4 = some 3 ∧ accN s.cf ≤ (4#4).toNat + 1) ∧
    (let s := cubeT 0x99 0 0
     s.quiet = true ∧ writeForm (s.ctx (.accwr .f64 4 127 3 383)) .f64 4 = none) := by
  decide +kernel

/-- Records in the E face: of a copy of sixteen bytes at a3, of a message to buffer 5 at a4, to memory at a5, of a sum that
fetches at a6, of a launch at a7, of a scaling at a8. -/
def records : State := withA [(3, 0x00FF000010001000), (4, 0x00FF000010002000), (5, 0x00FF000010002800), (6, 0x00FF000010003000),
    (7, 0x00FF000010003F00), (8, 0x00FF000010003400)]
  (putWords (putWords (putWords (putWords (putWords faced (2 ^ 27 + 0x1000)
    [0x99, 0x00FF000008000000, 0x20000, 0, 16, 1, 1, 0, 1, 0, 0, 0, 1, 0, 0, 0, 1, 0, 0, 0, 1, 0, 0, 0, 1])
    (2 ^ 27 + 0x2000) [0x40, 0x00FF000008000040, 0x8000000000 + 9 * 2 ^ 26 + 5 * 2 ^ 20 + 2 ^ 19])
    (2 ^ 27 + 0x2800) [0x20040, 0x30040, 0x8000000000 + 63 * 2 ^ 26])
    (2 ^ 27 + 0x3000) [0x106, 0x20040, 0x20080, 3, 0x4000000000000000])
    (2 ^ 27 + 0x3400) [0x101, 0x20040, 0, 3, 0x4000000000000000])

/-- What EngineOperationsJoinTheQueue asks of a record of n bytes at an A register, and its words. -/
def heldAt (s : State) (r : Reg) (n : Nat) : Bool := scratchOk s (s.reg .a r) n && spFace (bits (s.reg .a r).toNat 0 32) == 2
def wordsAt (s : State) (r : Reg) (n : Nat) : List Word :=
  (List.range (n / 8)).map fun i => w64 (leVal (faceBytes (s.cube s.cur) (s.spKey (s.reg .a r) + 8 * i) 8))

/-- EngineOperationsJoinTheQueue: one record of each kind; a message of a declared source too. -/
theorem witness_engine_queue :
    (records.quiet = true ∧ sigOk 63 = true) ∧
    (let rc := wordsAt records 3 256
     let x := copyRec rc
     heldAt records 3 256 = true ∧ copyIllegal records.cf rc = false ∧ x.src % max 1 (x.sf.width / 8) = 0 ∧ x.dst % max 1 (x.df.width / 8) = 0 ∧
      okWith (copyAdrCheck (records.ctx (.copy 3 63)) x) (fun _ => true) = true ∧ touched records.cf x.runs.1 = [] ∧
      touched records.cf x.runs.2 = [] ∧ copyBar records records.cf rc = false) ∧
    (∀ r ∈ ([4, 5] : List Reg), let rc := wordsAt records r 64
      let rd := msgRuns rc
      heldAt records r 64 = true ∧ msendIllegal records.cf rc = false ∧ recW rc 1 % 64 = 0 ∧ recW rc 0 % 64 = 0 ∧ msgToBuffer rc = decide (r = 4) ∧
      (∀ x ∈ rd, layerIn records.cf x.1 = true ∧ runRetired records.cf x = none ∧ spForm (runAdr x) = true ∧ runInside records.cf x = true) ∧
      bits (recW rc 1) 56 8 = 0 ∧ bits (recW rc 0) 56 8 = 0 ∧ (bits (recW rc 1) 48 8 = 0xFF → bits (recW rc 1) 32 16 = 0) ∧
      touched records.cf rd = []) ∧
    ((at3 0x00FEFFFFFFFFFFF8).quiet = true ∧ ((at3 0x00FEFFFFFFFFFFF8).reg .a 3).toNat % 8 = 0 ∧
      bits ((at3 0x00FEFFFFFFFFFFF8).reg .a 3).toNat 48 16 < 0xFF) ∧
    (let rc := wordsAt records 6 64
     heldAt records 6 64 = true ∧ (Instr.nmc 6 true 9 63).wf = true ∧ nmcIllegal rc true = false ∧ nmcIllegal rc false = true ∧
      recW rc 1 % 64 = 0 ∧ recW rc 2 % 64 = 0 ∧ bits (recW rc 1) 56 8 = 0 ∧ bits (recW rc 2) 56 8 = 0) ∧
    (let rc := wordsAt records 8 64
     heldAt records 8 64 = true ∧ (Instr.nmc 8 false 0 63).wf = true ∧ nmcIllegal rc false = false ∧
      recW rc 1 % 64 = 0 ∧ recW rc 2 % 64 = 0 ∧ bits (recW rc 1) 56 8 = 0 ∧ bits (recW rc 2) 56 8 = 0) ∧
    heldAt records 7 256 = true := by
  refine ⟨?_, ?_, ?_, ?_, ?_, ?_, ?_⟩ <;> decide +kernel

/-- ControlRegisterReads, ControlWritesAndInvalidation: both levels; the greatest value of each ranged register, and one
past it; an address-space identifier of sixteen bits. -/
theorem witness_control_registers :
    placed.quiet = true ∧ placed.cf.priv.lvl = false ∧ placed.cf.issue.lflags = 0 ∧ levelS.quiet = true ∧ levelS.cf.priv.lvl = true ∧
    levelS.cf.task = some tsk ∧ (0x043, (0 : Word)) ∈ ([(0x043, 0), (0x05F, 0)] : List (BitVec 12 × Word)) ∧ 0x215 ≤ (0x215#12).toNat ∧
    (∀ v ∈ [828, 829, 16384, 16385, 262144, 32, 33, 1000, 1001, 1000000, 1000001, 0x300], (withX [(2, v)] levelS).quiet = true ∧
      ((withX [(2, v)] levelS).reg .x 2).toNat = v) ∧
    (∀ k ∈ [(0 : BitVec 3), 1, 2, 4, 5, 6], (Instr.tlbi k 3).wf = true) ∧
    ((withA [(3, 0xFFFF)] levelS).quiet = true ∧ bits ((withA [(3, 0xFFFF)] levelS).reg .a 3).toNat 16 48 = 0) := by
  decide +kernel

def trapOf (cause slot : Nat) : TrapInfo := ⟨cause, slot, false, false, 0x10044, 0xABCD, 5, 6⟩
/-- A gang whose one member is the placed task. -/
def gang1 : Gang := ⟨0, .running, [(0, 0)], [0], [], false, 0, none⟩
def rec1 : Rec := ⟨0, 0, List.replicate 32 0, 0, 0, [gang1], 1, 0, 0, none, false, [], [], none, 0, [], 0, [], []⟩
/-- TrapIsTaken, HandlerFaultsAndReturns: a trap from level U with a leave granted; one at level S with a
gang; a fatal cause; a block that breaks a limit, and one that a trap wrote, whose leave word names a class. -/
theorem witness_traps :
    (faced.cf.quiet = true ∧ faced.cf.priv.lvl = false ∧ (∀ l ∈ faced.cf.seq.toList, l.pairs.length ≤ 4)) ∧
    (let s := { levelS with hub := { levelS.hub with recs := [rec1] } }
     s.cf.priv.lvl = true ∧ s.cf.task = some tsk ∧ findRec s tsk.part tsk.launch = some rec1 ∧ rec1.gang tsk.gang = some gang1 ∧ gang1.err = none) ∧
    (let s := levelS.modCf fun r => { r with priv := { r.priv with tcause := 0x10A } }
     s.cf.priv.lvl = true ∧ Nat.testBit s.cf.priv.tcause.toNat 8 = true) ∧
    (let s := levelS
     s.cf.priv.lvl = true ∧ blockOk s (ctxBase s s.cf.priv.ctxptr) = false) := by
  refine ⟨?_, ?_, ?_, ?_⟩ <;> decide +kernel
theorem witness_returns : ∀ x ∈ [none, some (8, 2 ^ 40)],
    let u := faced.modCf fun r => { r with leave := x }
    let s := enterTrap u u.cur u.curF (trapOf 7 15)
    u.cf.quiet = true ∧ s.cf.priv.lvl = true ∧ Nat.testBit s.cf.priv.tcause.toNat 8 = false ∧ blockOk s (ctxBase s s.cf.priv.ctxptr) = true ∧
      w64 (gRead s (ctxBase s s.cf.priv.ctxptr + 0x70) 8) = 0 ∧
      (bits (gRead s (ctxBase s s.cf.priv.ctxptr + 0x78) 8) 0 4 = 0 ↔ x = none) := by
  decide +kernel
/-- HaltTrapSysAndReturn: at level S with DISP 1, of a fatal cause and of one that was not, a gang that runs. -/
theorem witness_preempting_halt :
    (let s := levelS.modCf fun r => { r with priv := { r.priv with disp := 1, tcause := 0x10A } }
     s.quiet = true ∧ s.cf.priv.lvl = true ∧ s.cf.priv.disp ≠ 0 ∧ s.cf.priv.disp ≠ 2 ∧ s.cf.priv.tcause.getLsbD 8 = true) ∧
    (let s := ({ levelS with hub := { levelS.hub with recs := [rec1] } }).modCf fun r => { r with priv := { r.priv with disp := 1, tcause := 0xA } }
     s.quiet = true ∧ s.cf.priv.disp = 1 ∧ s.cf.priv.tcause.getLsbD 8 = false ∧ s.cf.task = some tsk ∧ findRec s tsk.part tsk.launch = some rec1 ∧
      rec1.gang tsk.gang = some gang1) := by
  refine ⟨?_, ?_⟩ <;> decide +kernel

/-- The bundle of a placed packet, and the same again in the next. -/
def twice (s : State) : State := gWriteVal s 0x10040 64 (gRead s 0x10000 64)
/-- HaltTrapSysAndReturn: the trap of a `sys` of the greatest code comes first at the next boundary. -/
theorem witness_sys :
    let s := twice placed
    let t : TrapInfo := ⟨16, (s.ctx (.sys 0xFFFF)).info.slot, false, true, s.cf.issue.pc, (s.ctx (.sys 0xFFFF)).info.bits, 0x1FFFF, s.nextPc⟩
    let u := s.issued fun r => { r with fl := { r.fl with traps := [t] } }
    s.quiet = true ∧ boundaryFirst u s.cur s.curF = some t := by
  decide +kernel

/-- TrapRoundTrip: the greatest cause and slot. -/
theorem witness_round_trip :
    let x := trapOf 31 15
    let t := enterTrap faced faced.cur faced.curF x
    faced.cf.quiet = true ∧ faced.cf.priv.lvl = false ∧ x.fatal = false ∧ x.cause < 32 ∧ x.slot < 16 ∧
    (∀ l ∈ faced.cf.seq.toList, l.pairs.length ≤ 4) ∧ blockOk t (ctxBase t faced.cf.priv.ctxptr) = true := by
  decide +kernel

/-- ResultsLand: a result of each kind that is due, a poisoned one, one not due, one of variable latency. -/
theorem witness_results :
    let l : Landing := ⟨3, 383, 7, 3, flINX, true, 2, false, 0, none⟩
    let one := fun (l : Landing) => placed.modCf fun r => { r with fl := { r.fl with land := [l] } }
    (∀ m ∈ [l, { l with file := 5, reg := 0 }, { l with file := 6, reg := 0 }],
      (one m).teasel.power = true ∧ (one m).cf.fl.land = [m] ∧ m.due ≤ (one m).cf.issue.nb ∧ m.poison = none) ∧
    (let m := { l with poison := some (64, ⟨0x10044, 0, 3, 0⟩) }
     (one m).cf.fl.land = [m] ∧ m.due ≤ (one m).cf.issue.nb ∧ m.poison = some (64, ⟨0x10044, 0, 3, 0⟩)) ∧
    (let m := { l with due := (one l).cf.issue.nb + 1 }
     (one m).cf.fl.land = [m] ∧ (one m).cf.issue.nb < m.due) ∧
    (let x : VarRes := ⟨33, ⟨0x10044, 0, 3, 0⟩, 0, 5, some (77, 3, none), some 30⟩
     let s := (one l).modCf fun r => { r with fl := { r.fl with var := [x] } }
     s.teasel.power = true ∧ s.cf.fl.land = [l] ∧ s.cf.fl.var = [x] ∧ x.val = some (77, 3, none)) := by
  decide +kernel

/-- RegisterWritesAndLandings: another register, predicate and vector register; a core that issues. -/
theorem witness_registers : (File3.a, (31 : Reg)) ≠ (.x, 31) ∧ (15 : Pred) ≠ 0 ∧ (382 : Nat) ≠ 383 ∧ placed.quiet = true ∧
    ((3 : CubeId), (1 : FrameId)) ≠ (placed.cur, placed.curF) ∧ (1 : CubeId) ≠ placed.cur := by
  decide +kernel

/-- A bundle with a header and an X slot, the others empty; the placed task, before it. -/
def bundleOf (hdr : BitVec 16) (xs : BitVec 36) : Bundle :=
  { hdr := hdr, bra := 0, brb := 0, xs := xs, ys := 0, as := 0, va := 0, vb := 0, ls := 0, cc := 0 }
def before (b : Bundle) (g : Frame → Frame := id) : State :=
  { placeBundle State.reset b.toBits.toNat with agenda := [] }.modCf fun r => g { r with task := some tsk, ctl := { r.ctl with layers := 0xFF } }

/-- The slots of a bundle that issue, each with its effect. -/
def effsOf (s : State) (x : BundleIn) : List (SlotIns × SlotEff) :=
  (x.slots.filter (slotIssues s.cf x.lvl)).filterMap fun y => match slotMeaning y.ins (ctxOf s s.cur s.curF x y) s with
    | .ok e => some (y, e)
    | .error _ => none
def semwGood (s : State) (held : Bool) (i : Instr) : Bool := match semwOf i with
  | some (k, n) => decide (0 < n.toNat ∧ n.toNat ≤ (semRead s s.cur s.curF k).2) && (!held || decide (n.toNat ≤ (semRead s s.cur s.curF k).1))
  | none => true
/-- What `State.lawful` asks, decided, for a bundle without a `bar`. -/
def lawfulOk (s : State) (b : BundleIn) : Bool :=
  let iss := b.slots.filter (slotIssues s.cf b.lvl)
  !b.bad && (decide (b.lvl.toNat < 6) || b.slots.all fun x => !x.first && !x.last) && decide (b.slots.filterMap fun x => levelOf x.ins).Nodup &&
  (b.slots.all fun x => b.slots.all fun y => !decide (x.slot.code < y.slot.code) || (destsOf s.cf x.ins).all fun d => !decide (d ∈ destsOf s.cf y.ins)) &&
  decide ((effsOf s b).map Prod.fst = iss) && (iss.all fun x => (!isSys x.ins || iss.all fun y => !isHalt y.ins) &&
    (!isRfe x.ins || b.slots.all fun y => decide (y.slot = x.slot ∨ y.ins = .nop)) && semwGood s false x.ins && (Machine.barOf x.ins).isNone) &&
  !overfull s.cf iss

theorem effs_mean (s : State) (b : BundleIn) : ∀ p ∈ effsOf s b, slotMeaning p.1.ins (ctxOf s s.cur s.curF b p.1) s = .ok p.2 := by
  intro p hp
  obtain ⟨y, -, hy⟩ := List.mem_filterMap.1 hp
  split at hy
  · next e he => cases hy; exact he
  · cases hy

theorem lawful_of {s : State} {b : BundleIn} (h : lawfulOk s b = true) : s.lawful b (effsOf s b) := by
  simp only [lawfulOk, Bool.and_eq_true, Bool.not_eq_true', Bool.or_eq_true, decide_eq_true_eq, List.all_eq_true] at h
  obtain ⟨⟨⟨⟨⟨⟨h1, h2⟩, h3⟩, h4⟩, h5⟩, h6⟩, h7⟩ := h
  refine ⟨h1, h2, h3, fun x hx y hy hc d hd => ?_, h5, effs_mean s b, fun x hx => ?_, h7⟩
  · have := (h4 x hx y hy).resolve_left (by simp [hc]) d hd
    simpa using this
  · obtain ⟨⟨⟨a1, a2⟩, a3⟩, a4⟩ := h6 x hx
    refine ⟨fun hs y hy => ?_, fun hr => ?_, fun k n hk => ?_, fun k bid hk => ?_⟩
    · exact (a1.resolve_left (by simp [hs])) y hy
    · exact a2.resolve_left (by simp [hr])
    · simp only [semwGood, hk, Bool.and_eq_true, decide_eq_true_eq] at a3
      exact a3.1
    · rw [hk] at a4
      cases a4

/-- The bundle as `bundleIssue` reads it, and what BundlesAndDrainPoints asks for it to commit. -/
def readIn (s : State) (b : Bundle) : Except Unit BundleIn :=
  match decodeSlots b with
  | .ok l => .ok ⟨b.dp, b.waitMask, b.lvl, decide (b.hdr.extractLsb' 12 4 ≠ 0), l, nextOf s s.cur s.curF true⟩
  | .error _ => .error ()
def commits (b : Bundle) (s : State) (p : BundleIn → Bool) : Bool := okWith (readIn s b) fun x =>
  s.quiet && lawfulOk s x && decide (s.cf.sync.df &&& b.waitMask = b.waitMask) && p x &&
  ((x.slots.filter (slotIssues s.cf b.lvl)).all fun z => (Machine.barOf z.ins).isNone && semwGood s true z.ins && (copyOf z.ins).isNone &&
    (dbgOf z.ins).isNone && (storeWait s.cf (s.cf.taint.pred z.guard) z.ins).all fun t => t &&& 0x7FFFFFFF == 0) &&
  (!b.dp || (!gangFailed s s.cf && !withdrawalDue (s.cube s.cur) s.cf && !s.cf.issue.irq && (s.cube s.cur).stallSince.isNone &&
    (x.slots.filter (slotIssues s.cf b.lvl)).all fun z => !isYield z.ins))
def takes (s : State) (x : BundleIn) (n : Nat) (halts : Bool) : Bool :=
  decide (((effsOf s x).filter fun p => p.2.taken.isSome).length = n) && decide ((effsOf s x).any (fun p => p.2.halts) = halts) &&
    (effsOf s x).all fun p => p.2.sys.isNone && !p.2.rfe
def mulhX : BitVec 36 := 0x111892140
def withBr (b : Bundle) (bra brb : BitVec 24) : Bundle := { b with bra := bra, brb := brb }
/-- Signal 7 done; semaphore 3 at 5 of 9. -/
def signalled (r : Frame) : Frame := { r with
  sync := { r.sync with df := 0x80, semc := r.sync.semc.set 3 5, semx := r.sync.semx.set 3 9 } }

/-- BundlesAndDrainPoints: a sum alone at a drain point; a WAIT for a signal that is done beside a `semw` of the whole count; a branch
in BRA; branches in both; `halt`. -/
theorem witness_commits :
    (let b := bundleOf 1 mulhX
     commits b (before b) (fun x => takes (before b) x 0 false) = true) ∧
    (let b := { bundleOf 0x100 0 with cc := 0x00000028C380 }
     (decodeCC b.cc).toOption = some (.semw 3 5) ∧ commits b (before b signalled) (fun x => takes (before b) x 0 false) = true) ∧
    (let b := withBr (bundleOf 0 mulhX) 0xFFF440 0
     commits b (before b) (fun x => takes (before b) x 1 false) = true) ∧
    (let b := withBr (bundleOf 0 0) 0xFFF440 0xFFF440
     commits b (before b) (fun x => takes (before b) x 2 false) = true) ∧
    (let b := withBr (bundleOf 0 0) 0x0003C0 0
     commits b (before b) (fun x => takes (before b) x 0 true) = true) := by
  decide +kernel

/-- BundlesAndDrainPoints: one slot among `nop`s; a reserved header bit; two slots that write `a31`; a signal not done; a register
armed and pending that the bundle reads. -/
theorem witness_bundles :
    (let b := bundleOf 0 mulhX
     let s := before b
     s.quiet = true ∧ (Instr.mulh .x .s32 9 2 3).wf = true ∧ nextOf s s.cur s.curF true = s.nextPc ∧
      okWith (readIn s b) (fun x => match soloSlot (.mulh .x .s32 9 2 3) with
        | some z => x.slots.contains z && x.slots.all fun y => decide (y = z ∨ (y.ins = .nop ∧ y.guard = 0 ∧ y.first = false ∧ y.last = false))
        | none => false) = true) ∧
    (let b := bundleOf 0x1000 0
     b.hdr.extractLsb' 12 4 ≠ 0 ∧ (before b).quiet = true ∧ okWith (readIn (before b) b) (fun _ => true) = true) ∧
    (let b := { withBr (bundleOf 0 0) 0x6AF0C0 0 with as := 0x000003E140 }
     b.hdr.extractLsb' 12 4 = 0 ∧ (before b).quiet = true ∧ b.lvl.toNat < 6 ∧ okWith (readIn (before b) b) (fun x =>
      decide ((x.slots.filterMap fun w => levelOf w.ins).Nodup) && (doubleWrite (before b).cf x.slots).isSome) = true) ∧
    (let b := bundleOf 0x100 mulhX
     (before b).quiet = true ∧ (before b).cf.sync.df &&& b.waitMask ≠ b.waitMask ∧ b.dp = false ∧ okWith (readIn (before b) b) (fun x =>
      lawfulOk (before b) x && x.slots.all fun z => (Machine.barOf z.ins).isNone && (semwOf z.ins).isNone) = true) ∧
    (let b := bundleOf 0 mulhX
     let w : Landing := ⟨0, 2, 5, 0, 0, false, 0, true, 40, none⟩
     let s := before b fun r => { r with fl := { r.fl with land := [w] } }
     s.teasel.power = true ∧ mayIssue s s.cur s.curF = true ∧ s.cf.fl.var = [] ∧ s.cf.fl.land = [w] ∧ s.cf.issue.nb < w.due ∧ w.arm = true ∧
      okWith (fetchAt s s.cur s.curF) (fun y => decide (y.lit = true ∧ y.b = b ∧ y.next = nextOf s s.cur s.curF true)) = true ∧
      okWith (readIn s b) (fun x => lawfulOk s x && (x.slots.all fun z => (Machine.barOf z.ins).isNone) &&
        decide ((w.file, w.reg) ∈ usedRegs s.cf x.slots (x.slots.filter (slotIssues s.cf b.lvl)))) = true) := by
  decide +kernel

def dpState (g : Frame → Frame) : State := before (bundleOf 1 0) g
/-- What BundlesAndDrainPoints asks of the bundle, and whether one of its slots is a `yield`. -/
def pauses (s : State) : Bool := s.teasel.power && mayIssue s s.cur s.curF && !s.cf.priv.lvl && atDrainPoint s s.cur s.curF &&
  okWith (fetchAt s s.cur s.curF) fun y => okWith (bundleIn s.cf.issue.pc y.b y.next) fun x => lawfulOk s x
theorem pauses_at {s : State} (h : pauses s = true) : ∃ y x, fetchAt s s.cur s.curF = .ok y ∧
    bundleIn s.cf.issue.pc y.b y.next = .ok x ∧ s.lawful x (effsOf s x) := by
  simp only [pauses, Bool.and_eq_true] at h
  obtain ⟨y, hy, h2⟩ := okWith_of h.2
  obtain ⟨x, hx, h3⟩ := okWith_of h2
  exact ⟨y, x, hy, hx, lawful_of h3⟩
def yields (s : State) : Bool := okWith (fetchAt s s.cur s.curF) fun y => okWith (bundleIn s.cf.issue.pc y.b y.next) fun x =>
  (effsOf s x).any fun p => isYield p.1.ins
def failedGang (s : State) : State := { s with hub := { s.hub with recs := [{ rec1 with gangs := [{ gang1 with err := some (7, 1, 2) }] }] } }
/-- BundlesAndDrainPoints: a failed gang; a layer to be withdrawn; a refused addition; a pre-emption; an interrupt. -/
theorem witness_drain_points :
    (let s := failedGang (dpState id)
     pauses s = true ∧ gangFailed s s.cf = true) ∧
    (let s := (dpState id).modCube 0 fun q => { q with fab := { q.fab with failing := 0x80 } }
     pauses s = true ∧ gangFailed s s.cf = false ∧ withdrawalDue (s.cube s.cur) s.cf = true) ∧
    (∀ g ∈ [fun r : Frame => { r with sync := { r.sync with refusal := some (1, 2) } },
        fun r => { r with issue := { r.issue with preempt := some (0, 0) } }, fun r => { r with issue := { r.issue with irq := true } }, id],
      let s := dpState g
      pauses s = true ∧ gangFailed s s.cf = false ∧ withdrawalDue (s.cube s.cur) s.cf = false ∧
      (drainTrap s s.cur s.curF).isSome = s.cf.sync.refusal.isSome) ∧
    (dpState fun r => { r with issue := { r.issue with irq := true } }).cf.issue.irq = true := by
  refine ⟨by decide +kernel, by decide +kernel, ?_, by decide +kernel⟩
  simp only [List.forall_mem_cons, List.not_mem_nil, false_implies, implies_true, and_true]
  refine ⟨?_, ?_, ?_, ?_⟩ <;> decide +kernel

/-- R107, R130, R131: a step from reset runs the word placed for it: `lset` with `movi` of −2 into x3, landing one bundle
later. -/
def firstStep (w : Nat) : Option (Nat × Nat × Nat) :=
  match step (State.reset.withFetchWord 384 w) with
  | .next u => some ((u.frame 0 0).issue.pc.toNat, ((u.frame 0 0).level 2).remain, ((u.frame 0 0).fl.land.map fun l => l.val.toNat % 2 ^ 64).sum)
  | _ => none
theorem test_step_runs_placed_bundle :
    firstStep ({ bundleOf 0 0xFFFF86780 with bra := 0x18E980 } : Bundle).toBits.toNat = some (placeVa + 68, 100, 2 ^ 64 - 2) := by
  decide +kernel

/-- A core of the agenda that stands before an X slot; the bundle's header is `hdr`. -/
def beforeStep (hdr : BitVec 16) : State :=
  { (before (bundleOf hdr mulhX)).modCube 0 fun q => { q with stallSince := some 0 } with agenda := [.core 0] }
def stepMeets (hdr : BitVec 16) (stands : Bool) : Bool :=
  let s := beforeStep hdr
  let u := { syncAll { s with agenda := [] } with cur := 0 }
  let v := landDue ((sliceExpiryRun u 0).modFrame 0 u.curF landArrived) 0 u.curF
  u.teasel.power && mayIssue u 0 u.curF && mayIssue v 0 v.curF &&
    okWith (fetchAt v 0 v.curF) fun y => okWith (bundleIn v.cf.issue.pc y.b y.next) fun b => decide (standing v 0 v.curF b = stands)

/-- StepRunsTheDecodedBundle: a core of the agenda before an X slot, and one before a WAIT that stands; a place for a word. -/
theorem witness_step :
    stepMeets 0 false = true ∧ stepMeets 0x100 true = true ∧
    (let s := { placed with hub := { placed.hub with parts := [] } }
     s.quiet = true ∧ s.hub.parts = [] ∧ s.cf.part = 0 ∧ s.pkg < 1024) := by
  refine ⟨?_, ?_, ?_⟩ <;> decide +kernel

/-! Events: one item alone in flight. -/

def info : OpInfo := ⟨0x10044, 77, 5, 0⟩
def lineAt (va : Word) : Line := ⟨va, 8, none, .queued, 0, [], false⟩
def store : LsEnt := ⟨33, info, .gst, 0, none, 0x10048, 0x1122334455667788, [lineAt 0x10048]⟩
def load : LsEnt := { store with op := .gld 0 .s64 7, tag := some 30 }
def lined (e : LsEnt) (st : Stage) : LsEnt := { e with lines := [{ lineAt 0x10048 with st := st, pa := some 0x10048 }] }
def flown (x : Flight) : State := faced.modFrame 0 0 fun r => { r with fl := x, taint := { r.taint with out := [(33, 30)] } }
def line64 : MergeW := ⟨3, 0x10040, List.replicate 64 5, (0, 0, 0, .ls), 0, none, none⟩
def atomic : LsEnt := { lined store .sent with op := .atom .add .pkg true 3 0 7 9 5, tag := some 30 }

def pair : LsEnt := { store with op := .gvst, lines := [{ lineAt 0x10048 with st := .accepted, pa := some 0x10048 }, lineAt 0x10050] }
def flagPut : CopyEnt := ⟨33, info, .putf 0x10048 7, 63, 0x10048, 0, none, [], [], none, false, none, [], CopyProg.zero, NmProg.zero, 0⟩
def freeVar : VarRes := ⟨33, info, 0, 7, none, some 30⟩
/-- GlobalAccessesMove: a store and a load that may be sent, the second word of a vector store; a value that waits; a drain, a
prefetch, a flag. -/
theorem witness_sends :
    (∀ x ∈ [(store, 0), (load, 0), (pair, 1)], let e := x.1
      let s := flown { Flight.none with ls := [e] }
      let va := ((e.lines.getD x.2 (lineAt 0)).va).toNat
      (s.frame 0 0).task.isSome = true ∧ (s.frame 0 0).issue.swapped = false ∧ s.flies 0 0 { Flight.none with ls := [e] } ∧
      e.op.isDrain = false ∧ e.op.isGpf = false ∧ e.wait = 0 ∧ e.lines[x.2]? = some (lineAt (w64 va)) ∧
      okWith (translateF s 0 0 e.op.need va) (fun a => decide (a = va) && laneUp s 0 a && (accessCheck s (s.frame 0 0).part a e.op.writes).isNone) = true ∧
      (∀ y ∈ e.lines, y.pa.isSome = true ∨ okWith (translateF s 0 0 e.op.need y.va.toNat) (fun _ => true) = true) ∧
      (∀ j, j < x.2 → (e.lines.getD j (lineAt 0)).st = .accepted)) ∧
    (let s := flown { Flight.none with ls := [load], var := [freeVar] }
     s.flies 0 0 { Flight.none with ls := [load], var := [freeVar] } ∧ load.op = .gld 0 .s64 7 ∧ load.lines = [lineAt 0x10048] ∧ freeVar.id = load.id ∧
      okWith (translateF s 0 0 { r := true } 0x10048) (fun a => laneUp s 0 a && (accessCheck s (s.frame 0 0).part a false).isNone) = true ∧
      8 * (lineAt 0x10048).n = Ty.s64.width) ∧
    (∀ e ∈ [{ store with op := .drain (.scope .sys), lines := [] }, { store with op := .gpf, lines := [] }],
      let s := flown { Flight.none with ls := [e] }
      s.flies 0 0 { Flight.none with ls := [e] } ∧ (e.op.isDrain = true ∨ e.op = .gpf ∧ e.wait = 0 ∧
        okWith (lookup s 0 (s.frame 0 0).part (s.frame 0 0).asid e.ea.toNat .ls) (fun _ => true) = true)) ∧
    (let s := flown { Flight.none with copyQ := [flagPut] }
     s.flies 0 0 { Flight.none with copyQ := [flagPut] } ∧ flagPut.wait = 0 ∧ clockStands s 0 = false ∧
      okWith (translateF s 0 0 { w := true } 0x10048 .copy) (fun a => laneUp s 0 a && (accessCheck s (s.frame 0 0).part a true).isNone) = true) := by
  refine ⟨?_, ?_, ?_, ?_⟩ <;> decide +kernel
def mine : MergeW := { line64 with owner := some (0, 0, 33, 0) }
/-- GlobalAccessesMove: a sent write; a performing one of another package and one of a store; an atomic on a clean line and on
a poisoned one; a load whose words are bound, with the last tag. -/
theorem witness_accesses :
    (let s := flown { Flight.none with fly := [lined store .sent] }
     s.flies 0 0 { Flight.none with fly := [lined store .sent] } ∧ (lined store .sent).op = .gst ∧
      (lined store .sent).lines = [{ lineAt 0x10048 with st := .sent, pa := some 0x10048 }]) ∧
    ({ faced with merge := [line64] }.teasel.power = true ∧ line64.owner = none) ∧
    (let s := { flown { Flight.none with fly := [lined store .accepted] } with merge := [mine] }
     s.teasel.power = true ∧ s.merge = [mine] ∧ mine.owner = some ((0 : CubeId).val, (0 : FrameId).val, store.id, 0) ∧
      (s.frame 0 0).fl = { Flight.none with fly := [lined store .accepted] }) ∧
    (∀ bad, let s := { flown { Flight.none with fly := [atomic] } with poison := if bad then [(0x10048 / 64, true)] else [] }
     s.flies 0 0 { Flight.none with fly := [atomic] } ∧ poisoned s 0x10048 = bad ∧ atomic.lines.map (·.st) = [.sent]) ∧
    (let s := flown { Flight.none with fly := [lined load .accepted] }
     s.flies 0 0 { Flight.none with fly := [lined load .accepted] } ∧ load.op.isLoad = true ∧ (s.frame 0 0).taint.out = [(33, 30)] ∧ 30 < 31 ∧
      ∀ d ∈ ([] : List Nat), ∀ w ∈ s.merge, w.mid ≠ d) := by
  refine ⟨?_, ?_, ?_, ?_, ?_⟩ <;> decide +kernel

/-- Five levels of tables that map the page at 0x10000 of the first space (R355, R356). -/
def tables : State := gWriteVal (gWriteVal (gWriteVal (gWriteVal (gWriteVal (gWriteVal faced 0 8 0x200001) 0x200000 8 0x210003) 0x210000 8
  0x220003) 0x220000 8 0x230003) 0x230000 8 0x240003) 0x240008 8 0x3001D
/-- GlobalAccessesMove: a walk that ends at a page, one at an entry that is not present, one at a poisoned entry. -/
theorem witness_walk : tables.teasel.power = true ∧ okWith (walk tables 0 0 0x10048) (fun x => x.page = 1 && x.pa = 0x30000) = true ∧
    errWith (walk tables 0 0 0x99990000) (fun w => !w.bad) = true ∧
    errWith (walk { tables with poison := [(0x240008 / 64, true)] } 0 0 0x10048) (fun w => w.bad) = true := by
  decide +kernel

def far : State := { faced.modCube 0 fun q => { q with tlb := { q.tlb with last := ⟨0, 0, 0x112, 16, 5 * 2 ^ 42 + 0x20000, true, true, true⟩ :: q.tlb.last } } with
  hub := { faced.hub with remotes := [⟨5, 9, 0x3000⟩] } }
def fly1 (x : Flight) : State := far.modFrame 0 0 fun r => { r with fl := x }
def unmapped : LsEnt := { store with lines := [lineAt 0x99990000] }
def remote : LsEnt := { store with lines := [lineAt 0x1120048] }
def write8 : RemoteReq := ⟨5, 2, 0, 0, 0x20010, 3, none, .write [1, 2, 3, 4, 5, 6, 7, 8]⟩
def mma (b : Word) : CubeEnt := ⟨33, info, .mma true 2 b 0x08000080 0x0100081 1 3, 0x99, 0x15, 1, 0, [], 0, none, [], none, 0, []⟩
def farPut : CopyEnt := { flagPut with op := .putf 0x99990000 7 }
def farMma : CubeEnt := { mma 0x8000000001120000 with glob := [{ lineAt 0x1120000 with n := 64 }] }
def errors (s : State) (va : Nat) (src : Stream) (n : Need) : Bool := errWith (translateF s 0 0 n va src) (fun k => decide (k ≠ placeRefused)) &&
  errWith (lookup s 0 (s.frame 0 0).part (s.frame 0 0).asid va src) (fun w => !w.bad)
def refusedFar (s : State) (va : Nat) (src : Stream) (n : Need) : Bool := okWith (translateF s 0 0 n va src) fun a =>
  decide (paPkg a ≠ s.pkg) && (targetCheck s (fpidOf s (s.frame 0 0).part) a n.w).isSome
/-- FaultsFoundAfterIssue: an unmapped line and a flag's; a page of another package that refuses a store and an operand; each
kind of due trap; the last bundle of a request; an interrupt. -/
theorem witness_late_faults :
    (let s := fly1 { Flight.none with ls := [unmapped] }
     s.teasel.power = true ∧ (s.frame 0 0).fl = { Flight.none with ls := [unmapped] } ∧ (s.frame 0 0).taint.out = [] ∧
      errors s 0x99990000 .ls unmapped.op.need = true ∧ unmapped.op.isDrain = false ∧ unmapped.op.isGpf = false) ∧
    (let s := fly1 { Flight.none with copyQ := [farPut] }
     (s.frame 0 0).fl = { Flight.none with copyQ := [farPut] } ∧ farPut.wait = 0 ∧ errors s 0x99990000 .copy { w := true } = true) ∧
    (let s := fly1 { Flight.none with ls := [remote] }
     (s.frame 0 0).fl = { Flight.none with ls := [remote] } ∧ refusedFar s 0x1120048 .ls remote.op.need = true) ∧
    (let s := fly1 { Flight.none with cubeA := [farMma] }
     (s.frame 0 0).fl = { Flight.none with cubeA := [farMma] } ∧ refusedFar s 0x1120000 .cube { r := true } = true) ∧
    (∀ k ∈ [10, 11, 12], let s := fly1 { Flight.none with traps := [trapOf k 3] }
      (afterTrap s 0 0).isSome = true) ∧
    (let s := fly1 { Flight.none with traps := [trapOf 12 3, trapOf 11 3] }
     (s.frame 0 0).fl.traps = [trapOf 12 3, trapOf 11 3] ∧ (trapOf 12 3).cause ≠ 11 ∧ (trapOf 11 3).cause = 11) ∧
    (let s := dpState fun r => { r with fl := { r.fl with due := [⟨trapOf 12 3, none, 63⟩] } }
     (s.frame 0 0).fl.traps = [] ∧ (s.frame 0 0).fl.due.length = 1 ∧ overdue s 0 0 = none ∧ (s.frame 0 0).sync.refusal = none ∧ atDrainPoint s 0 0 = true) ∧
    (let s := dpState fun r => { r with sync := { r.sync with refusal := some (1, 2) } }
     (s.frame 0 0).sync.refusal = some (1, 2) ∧ (s.frame 0 0).priv.lvl = false ∧ atDrainPoint s 0 0 = true ∧ (s.frame 0 0).fl.due = [] ∧
      afterTrap s 0 0 = none) ∧
    (let s := faced.modFrame 0 0 fun r => { r with issue := { r.issue with preempt := some (65536, 3) } }
     (s.frame 0 0).issue.preempt = some (65536, 3) ∧ (s.cube 0).ctl.dplimit.toNat ≤ 65536 ∧ (s.frame 0 0).priv.lvl = false ∧
      (s.frame 0 0).fl.traps = []) ∧
    (let s := dpState fun r => { r with issue := { r.issue with irq := true } }
     (s.frame 0 0).issue.irq = true ∧ (s.frame 0 0).priv.lvl = false ∧ atDrainPoint s 0 0 = true ∧ drainTrap s 0 0 = none) := by
  refine ⟨?_, ?_, ?_, ?_, ?_, ?_, ?_, ?_, ?_, ?_⟩ <;> decide +kernel

/-- FaultsFoundAfterIssue: at a drain point the first of a trap found after issue, a due one, a refused addition, an overdue
request, alone; a halted frame; a bundle whose issue has a cause of its own, and one that has none. -/
theorem witness_boundary :
    (let s := dpState fun r => { r with fl := { r.fl with traps := [trapOf 11 3] } }
     boundaryFirst s 0 0 = some (trapOf 11 3) ∧ afterTrap s 0 0 = some (trapOf 11 3) ∧ (s.cube 0).camp.trip = none ∧
      (s.cube 0).fab.coreOff = false) ∧
    (let s := dpState fun r => { r with fl := { r.fl with traps := [trapOf 13 3] } }
     boundaryFirst s 0 0 = some (trapOf 13 3) ∧ trapOf 13 3 ∈ (s.frame 0 0).fl.traps) ∧
    (let s := dpState fun r => { r with fl := { r.fl with due := [⟨trapOf 12 3, none, 63⟩] } }
     boundaryFirst s 0 0 = some (trapOf 12 3)) ∧
    (let s := dpState fun r => { r with sync := { r.sync with refusal := some (1, 2) } }
     (boundaryFirst s 0 0).map (·.cause) = some 8 ∧ (s.frame 0 0).away = false) ∧
    (let s := dpState fun r => { r with issue := { r.issue with preempt := some (65536, 3) } }
     (boundaryFirst s 0 0).isSome = true ∧ boundaryFirst s 0 0 = overdue s 0 0) ∧
    (let s := dpState fun r => { r with issue := { r.issue with halted := true }, fl := { r.fl with traps := [trapOf 12 3] } }
     ((landDue (s.modFrame 0 0 landArrived) 0 0).frame 0 0).issue.halted = true) ∧
    (let s := fly1 { Flight.none with traps := [trapOf 12 3, trapOf 10 3] }
     (s.frame 0 0).fl.traps = [trapOf 12 3, trapOf 10 3] ∧ (trapOf 12 3).cause = 12 ∧ (trapOf 10 3).cause = 10) := by
  refine ⟨?_, ?_, ?_, ?_, ?_, ?_, ?_⟩ <;> decide +kernel
/-- Whether the bundle at the PC of a frame, once what is due has landed, may issue, `some true`, or has a trap of its own. -/
def issues (s : State) : Option Bool :=
  let u := landDue (s.modFrame 0 0 landArrived) 0 0
  if !(u.frame 0 0).fl.traps.isEmpty || (u.frame 0 0).issue.halted || (u.frame 0 0).issue.preempt.isSome || !drained u 0 0 ||
    (u.frame 0 0).away || !(u.frame 0 0).fl.land.isEmpty then none
  else match fetchAt u 0 0 with
    | .ok y => (match bundleIn (u.frame 0 0).issue.pc y.b y.next with
      | .ok b => (match judge u 0 0 b slotMeaning with | .trap _ => some false | .go _ => some true | _ => none)
      | .error _ => none)
    | .error _ => none
/-- FaultsFoundAfterIssue: a reserved header bit; a drain point with a due trap, a refused addition, and none. -/
theorem witness_judged : issues (before (bundleOf 0x1000 0)) = some false ∧ issues (dpState id) = some true ∧
    issues (dpState fun r => { r with fl := { r.fl with due := [⟨trapOf 12 3, none, 63⟩] } }) = some true ∧
    issues (dpState fun r => { r with sync := { r.sync with refusal := some (1, 2) } }) = some true := by
  refine ⟨?_, ?_, ?_, ?_⟩ <;> decide +kernel

/-- A page that the partition lets other packages write, and the placed task as member of launch 7 with a semaphore at 5 of 9. -/
def pinned : State := gWriteVal far 0 1 0xFF
/-- FaultsFoundAfterIssue: a page pinned and not; a clean line; a member with room for its semaphore. -/
theorem witness_remote_requests :
    (partOfFpid far write8.fpid).isSome = true ∧ targetCheck far write8.fpid 0x20010 true = some 0 ∧
    (∀ w, targetCheck pinned write8.fpid 0x20010 w = none) ∧ poisoned pinned 0x20010 = false ∧
    (let s := { (gangs none).modFrame 0 0 fun r => { r with task := some { tsk with launch := 7 }, ctl := { r.ctl with taskid := 0 } } with
        hub := { faced.hub with recs := [{ rec1 with id := 7 }] } }
     remoteMember s write8.fpid 7 0 0 = some (.frame 0 0) ∧ (s.frame 0 0).task.isSome = true ∧ (s.frame 0 0).away = false ∧
      (s.frame 0 0).sync.semc[(3#5).toFin].toNat + (4#16).toNat ≤ (s.frame 0 0).sync.semx[(3#5).toFin].toNat) := by
  decide +kernel
/-- FaultsFoundAfterIssue: a fabric identifier of no partition; a request of the one placed task comes back refused, at level U
and while its handler runs. -/
theorem witness_refused_requests :
    partOfFpid far 0xFFF = none ∧
    (let mine := fun (t : Machine.Task) => t.part = 0 && t.launch = 0 && t.gang = 0 && t.rank = 0
     ∀ s ∈ [faced, levelS], (s.frame 0 0).task.any mine = true ∧
      (∀ (d : CubeId) (h : FrameId), (s.frame d h).task.any mine = true → d = 0 ∧ h = 0) ∧ (s.frame 0 0).away = decide (s = levelS)) := by
  decide +kernel
/-- The other package lets this one's partition read and write its pages. -/
def admitting : State := gWriteVal { pinned with hub := { pinned.hub with remotes := [⟨5, 0, 0x3000⟩] } } (5 * 2 ^ 42 + 0x3000) 1 0xFF
/-- GlobalAccessesMove: a store, a load and a flag to a page of another package that it lets this one write. -/
theorem witness_far_accesses :
    (∀ e ∈ [remote, { remote with op := .gld 0 .s64 7, tag := some 30 }], let s := admitting.modFrame 0 0 fun r => { r with fl := { Flight.none with ls := [e] } }
      s.flies 0 0 { Flight.none with ls := [e] } ∧ e.wait = 0 ∧ e.lines = [lineAt 0x1120048] ∧
      okWith (translateF s 0 0 e.op.need 0x1120048) (fun a => decide (paPkg a = 5 ∧ s.pkg = 0) && laneUp s 0 a &&
        (accessCheck s (s.frame 0 0).part a e.op.writes).isNone) = true) ∧
    (let k := { flagPut with op := .putf 0x1120048 7 }
     let s := admitting.modFrame 0 0 fun r => { r with fl := { Flight.none with copyQ := [k] } }
     s.flies 0 0 { Flight.none with copyQ := [k] } ∧ k.wait = 0 ∧ clockStands s 0 = false ∧ okWith (translateF s 0 0 { w := true } 0x1120048 .copy)
      (fun a => decide (paPkg a = 5) && laneUp s 0 a && (accessCheck s (s.frame 0 0).part a true).isNone) = true) := by
  refine ⟨?_, ?_⟩ <;> decide +kernel

def engines (x : Flight) : State := ((cubeT 0x99 0 0).modFrame 0 0 fun r => { r with fl := x }).modCube 0 fun q =>
  { q with pow := Vector.replicate 8 ⟨.active, 0, 0x15, 0, false⟩ }
def wide : CubeEnt := { mma 0 with op := .mma true 2 0 0x08000080 0x0100081 0x1F 3 }
def global (va : Nat) : CubeEnt := { mma (w64 (2 ^ 63 + va)) with glob := [{ lineAt (w64 va) with n := 64 }] }
def readAcc : CubeEnt := { mma 0 with op := .rd .z64 0 127 3 383 }
def writeAcc : CubeEnt := { mma 0 with op := .wr .z16 0 127 3 7 }
def rc1 : List Word := [0x99, 0x10000, 0x10101, 0, 1, 0, 0, 0, 1, 0, 0, 0, 1, 0, 0, 0, 1, 0, 0, 0, 1, 0, 0, 0, 1, 0, 0, 0, 0, 0, 0, 0]
def copy1 : CopyEnt := { flagPut with op := .copy rc1, sig := 3, recA := 0x00FF000010001000 }
def flag1 : CopyEnt := { flagPut with line := some { lineAt 0x10040 with st := .performed } }
def scale1 : CopyEnt := { copy1 with op := .nmc [0x101, 0x10040, 0, 1, 0x4000000000000001, 0, 0, 0] false, recA := 0x00FF000010002000 }
def running0 (s : State) : Bool := s.teasel.power && !(s.frame 0 0).away && (s.cube 0).camp.trip.isNone && !(s.cube 0).fab.coreOff
/-- EngineOperationsRun: a tile from the queue and a resumed one; five layers under a leave in its last cycle, and with none; a line of
a global operand; a landing, a poisoned line, a parked layer, an operand that does not translate; the last columns of an
accumulator; a status word. -/
theorem witness_cube_runs :
    (∀ x ∈ [{ Flight.none with cubeQ := [mma 0] }, { Flight.none with resume := some (mma 0) }], let s := engines x
      running0 s = true ∧ (s.frame 0 0).fl = x ∧ (∀ g : FrameId, (s.frame 0 g).fl.cubeA = []) ∧ maskN 1 < 5 ∧ railsReady s 0 1 (mma 0).fid = true) ∧
    (let s := (engines { Flight.none with cubeQ := [wide] }).modFrame 0 0 fun r => { r with leave := some (5, 1) }
     running0 s = true ∧ s.now < 1 ∧ maskN 0x1F = 5 ∧ (s.frame 0 0).leave = some (5, 1) ∧ railsReady s 0 0x1F wide.fid = true) ∧
    (let s := engines { Flight.none with cubeQ := [wide] }
     5 ≤ maskN 0x1F ∧ (s.frame 0 0).leave = none ∧ (s.cube 0).camp.reqs = []) ∧
    (let s := engines { Flight.none with cubeA := [global 0x10000] }
     running0 s = true ∧ (s.frame 0 0).task.isSome = true ∧ (global 0x10000).wait = 0 ∧ okWith (translateF s 0 0 { r := true } 0x10000 .cube)
      (fun a => decide (paPkg a = s.pkg) && laneUp s 0 a && (accessCheck s (s.frame 0 0).part a false).isNone) = true) ∧
    (let s := engines { Flight.none with cubeA := [mma 0] }
     running0 s = true ∧ (mma 0).glob = [] ∧ operandPoison s 0 0 (mma 0) = none ∧ (mma 0).barred = none ∧ (mma 0).bufs = [] ∧ (3#6).toNat < 8) ∧
    (let e := { global 0x10000 with glob := [{ lineAt 0x10000 with n := 64, pa := some 0x10000, st := .accepted, bad := true }] }
     operandPoison (engines { Flight.none with cubeA := [e] }) 0 0 e = some 0x10000) ∧
    (let e := { mma 0 with barred := some 0 }
     e.barred = some 0 ∧ e.bufs = []) ∧
    (let s := engines { Flight.none with cubeA := [global 0x99990000] }
     (operandFailure s 0 0 (global 0x99990000)).isSome = true ∧ operandPoison s 0 0 (global 0x99990000) = none ∧
      errWith (translateF s 0 0 { r := true } 0x99990000 .cube) (fun _ => true) = true) ∧
    (let x : Flight := { Flight.none with cubeQ := [readAcc], var := [⟨33, info, 3, 383, none, none⟩] }
     running0 (engines x) = true ∧ ((engines x).frame 0 0).fl = x ∧ readAcc.op = .rd .z64 0 127 3 383) ∧
    (running0 (engines { Flight.none with cubeQ := [writeAcc] }) = true ∧ writeAcc.op = .wr .z16 0 127 3 7) := by
  refine ⟨?_, ?_, ?_, ?_, ?_, ?_, ?_, ?_, ?_, ?_⟩ <;> decide +kernel
/-- EngineOperationsRun: a byte copied; a flag put; a scaled element; a range in another package. -/
theorem witness_copy_runs :
    (let s := engines { Flight.none with copyQ := [copy1] }
     running0 s = true ∧ copy1.wait = 0 ∧ firstFailure s 0 0 copy1 = none) ∧
    (let s := engines { Flight.none with copyA := [copy1] }
     (copyRec rc1).srcWords = [0x4000] ∧ copy1.prog.has 0x4000 = false ∧ (s.frame 0 0).task.isSome = true ∧
      okWith (place s 0 0 { r := true } 0x10000) (fun p => match p with | .glob a => laneUp s 0 a | _ => true) = true ∧
      copy1.srcB = [] ∧ copy1.dstB = [] ∧ copy1.bar = none ∧ copy1.olds = [] ∧ copy1.prog = ⟨[], [], []⟩ ∧
      copyRec rc1 = ⟨.s8, .s8, 0, .rn, false, false, 0, 0x10000, 0x10101, 0, [1, 1, 1, 1, 1, 1], [0, 0, 0, 0, 0, 0], [0, 0, 0, 0, 0, 0]⟩ ∧
      okWith (translateF s 0 0 { r := true } 0x10000 .copy) (fun a => paPkg a = s.pkg ∧ poisoned s a = false) = true ∧
      okWith (translateF s 0 0 { w := true } 0x10100 .copy) (fun a => paPkg a = s.pkg) = true) ∧
    (let s := engines { Flight.none with copyA := [flag1] }
     (s.frame 0 0).fl = { Flight.none with copyA := [flag1] } ∧ flag1.line.map (·.st) = some .performed ∧ flag1.sig = 63) ∧
    (let s := engines { Flight.none with copyA := [scale1] }
     (s.frame 0 0).fl = { Flight.none with copyA := [scale1] } ∧ 0x101 % 2 ^ 15 = 1 + 1 * 2 ^ 8 ∧ scale1.nm = NmProg.zero ∧
      okWith (translateF s 0 0 { r := true, w := true } 0x10040 .nm) (fun a => paPkg a = s.pkg ∧ poisoned s a = false) = true) ∧
    (let e := { scale1 with nm := { NmProg.zero with away := true } }
     e.nm.away = true ∧ 0 < recW [0x101, 0x10040, 0, 1, 0x4000000000000001, 0, 0, 0] 3) := by
  refine ⟨?_, ?_, ?_, ?_, ?_⟩ <;> decide +kernel

def header : MsgAct := ⟨5, 33, info, [0x40, 0x00FF000008000040, 0x8000000000 + 9 * 2 ^ 26 + 5 * 2 ^ 20 + 2 ^ 19], 0x10002000, 3, 1, 0, [],
  none, none, 0, 0, none, false, [], 0, none⟩
/-- The same to memory; without data, to member 1; to the second package of a span. -/
def toMemory : MsgAct := { header with rc := [0x10040, 0x00FF000008000040, 0x8000000000 + 63 * 2 ^ 26], pa := some 0x10040 }
def headOnly : MsgAct := { header with rc := [0x40, 0, 7 * 2 ^ 26 + 5 * 2 ^ 20 + 2 ^ 19 + 1] }
def toSpan : MsgAct := { header with rc := [0x40, 0x00FF000008000040, 0x8000000000 + 9 * 2 ^ 26 + 5 * 2 ^ 20 + 2 ^ 19 + 2 ^ 8] }
def bufferOf (st : BufSt) (fill len : Nat) : Buf := ⟨0x08004000, len, 0, st, fill, 0, 99⟩
def sends (m : MsgAct) (x : Option Buf) (s : State := faced) : State :=
  s.modFrame 0 0 fun r => { r with fl := { Flight.none with msgs := [m] }, bufs := r.bufs.set 5 x }
/-- The placed task with member 1 in the other frame, whose buffer 5 is given. -/
def beside (m : MsgAct) (x : Option Buf) : State := (sends m none).modFrame 0 1 fun r => { r with
  task := some { tsk with rank := 1 }, bufs := r.bufs.set 5 x }
def waits (s : State) (m : MsgAct) : Bool := s.teasel.power && decide ((s.frame 0 0).task = some tsk) && !(s.frame 0 0).issue.swapped &&
  decide ((s.frame 0 0).fl.msgs = [m]) && m.acc.isNone && m.ended.isNone && m.far.isNone && (reqOf s s.pkg ⟨0, 0, 0, 0, m.msgid⟩).isNone &&
  decide (m.sent = 0 ∧ m.pre = 0) && decide (((s.cube 0).reqs.filter fun q => !q.closed).length < 256)
def barsBuf (y : Buf) (d n : Nat) : Bool :=
  y.st = .draining || y.st = .lost || (y.st = .filling && decide (255 ≤ y.fill)) || decide ((y.nl + 1) * y.len < d + n)
def request : YReq := ⟨7, 5, 0, ⟨0, 0, 0, 0, 5⟩, 1, none, none, 63, 0x20000, 256, [0, 1, 2, 3], [2, 3], [], [], [], 0, 100, 0, some 100, 2700000, false⟩
/-- HeadersAreAcceptedOrRefused: an `msend` at the head of its queue, to a buffer and to memory; a receiver with no buffer; each
state that refuses; the least buffer that holds the message, and one byte less; 254 and 255 fills; a header alone; a global
destination; a span's other package; a closed request. -/
theorem witness_headers :
    (∀ m ∈ [header, toMemory], let k : CopyEnt := { flagPut with op := .msend m.rc 1 5 }
      let s := pinned.modFrame 0 0 fun r => { r with fl := { Flight.none with copyQ := [k] } }
      s.teasel.power = true ∧ (s.frame 0 0).task = some tsk ∧ (s.frame 0 0).fl = { Flight.none with copyQ := [k] } ∧ k.wait = 0 ∧
      (s.frame 0 0).priv.lvl = false ∧ clockStands s 0 = false ∧ firstFailure s 0 0 k = none ∧ msgRefused s 0 0 m.rc = none ∧ (msgToBuffer m.rc = true ∧ m.pa = none ∨
        msgToBuffer m.rc = false ∧ okWith (translateF s 0 0 { w := true } (recW m.rc 0) .msg) (fun a => decide (m.pa = some a)) = true)) ∧
    (waits (sends header none) header = true ∧ msgToBuffer header.rc = true ∧ handleDest (sends header none) 0 0 (msgHandle header.rc) = .frame 0 0 ∧
      msgBuf header.rc = 5 ∧ recW header.rc 0 + msgLen header.rc = 0xC0 ∧ 0 < msgLen header.rc) ∧
    (∀ x ∈ [(bufferOf .draining 0 0x100, true), (bufferOf .lost 0 0x100, true), (bufferOf .filling 255 0x100, true), (bufferOf .empty 0 0xBF, true),
        (bufferOf .empty 0 0xC0, false), (bufferOf .full 0 0xC0, false), (bufferOf .filling 254 0xC0, false)], let s := sends header (some x.1)
      waits s header = true ∧ handleDest s 0 0 (msgHandle header.rc) = .frame 0 0 ∧ (s.frame 0 0).buf 5 = some x.1 ∧ barsBuf x.1 0x40 0x80 = x.2) ∧
    (let y := bufferOf .empty 0 0x40
     let s := beside headOnly (some y)
     waits s headOnly = true ∧ handleDest s 0 0 (msgHandle headOnly.rc) = .frame 0 1 ∧ (s.frame 0 1).buf 5 = some y ∧ msgLen headOnly.rc = 0 ∧
      barsBuf y 0x40 0 = false ∧ headOnly.srcB = [] ∧ y.st ≠ .filling ∧ (s.frame 0 0).away = false ∧ (msgRsig headOnly.rc).toNat < 8 ∧
      headOnly.sig.toNat < 8) ∧
    (let s := sends toMemory none
     waits s toMemory = true ∧ msgToBuffer toMemory.rc = false ∧ toMemory.pa = some 0x10040 ∧ paPkg 0x10040 = s.pkg ∧ 0 < msgLen toMemory.rc) ∧
    (let s := sends toSpan none (spans)
     waits s toSpan = true ∧ msgToBuffer toSpan.rc = true ∧ handleDest s 0 0 (msgHandle toSpan.rc) = .away ∧
      portUp s 0 (spanPkg s (s.frame 0 0) (bits (msgHandle toSpan.rc) 8 6)) 0 = true) ∧
    (let q := { request with srcPkg := 0, closed := true }
     let m := { toMemory with sent := 0x40 }
     let s := (sends m none).modCube 0 fun u => { u with reqs := [q] }
     (s.frame 0 0).fl.msgs = [m] ∧ reqOf s s.pkg ⟨0, 0, 0, 0, m.msgid⟩ = some (0, q) ∧ (s.cube 0).reqs = [q] ∧ (s.cube 0).toks = [] ∧ recvHere s 0 q = true) := by
  refine ⟨?_, ?_, ?_, ?_, ?_, ?_, ?_⟩ <;> decide +kernel
/-- HeadersAreAcceptedOrRefused: an `msend` beside an active message of its MSGID; a prefix of one line for the other package of a
span; a header with one line of prefix, both to memory that admits them; a port that is up and one that is not. -/
theorem witness_prefixes :
    (let k : CopyEnt := { flagPut with id := 49, op := .msend header.rc 1 5 }
     let s := faced.modFrame 0 0 fun r => { r with fl := { Flight.none with copyQ := [k], msgs := [header] } }
     (s.frame 0 0).fl.copyQ = [k] ∧ (s.frame 0 0).fl.ls = [] ∧ header ∈ (s.frame 0 0).fl.msgs ∧ (∀ z ∈ (s.frame 0 0).fl.msgs, z.id ≠ k.id) ∧
      (match exec (.accessSend 0 0 49 0) s with | .next t => (t.frame 0 0).fl.msgs.map (·.id) | _ => []) = [33, 49] ∧ [5].length < 2 ^ 24) ∧
    (let m := { toSpan with pre := 64 }
     let s := sends m none spans
     msgLineRefused s 0 0 m = none ∧ ceilDiv (min (msgLen m.rc) m.pre) 64 = 1 ∧ lineTurn s 0 0 m 0 = true ∧
      handleDest s 0 0 (msgHandle m.rc) = .away ∧ portUp s 0 (spanPkg s (s.frame 0 0) (bits (msgHandle m.rc) 8 6)) 0 = true) ∧
    (targetCheck pinned 0 0x20000 true = none ∧ targetCheck pinned 0 0x20040 true = none ∧ reqOf pinned 5 ⟨0, 0, 0, 0, 5⟩ = none) ∧
    portUp pinned 0 5 0 = true ∧ portUp (pinned.modCube 0 fun q => { q with fab := { q.fab with deadPorts := [0] } }) 0 5 0 = false := by
  refine ⟨?_, ?_, ?_, ?_, ?_⟩ <;> decide +kernel
/-- HeadersAreAcceptedOrRefused: the header of another package, to memory that is pinned and not; to a member's buffer, held and
refused. -/
theorem witness_far_headers :
    (∀ s ∈ [pinned, far], s.teasel.power = true ∧ reqOf s 5 ⟨0, 0, 0, 0, 5⟩ = none ∧ 0 < 0x80 ∧
      (targetCheck s 0 (s.pkg * 2 ^ 42 + (0x20000#42).toNat) true).isSome = decide (s ≠ pinned) ∧
      ((s.cube (cubeOf (paCube (s.pkg * 2 ^ 42 + 0x20000)))).reqs.filter fun q => !q.closed).length < 256) ∧
    (∀ y ∈ [bufferOf .lost 0 0xC0, bufferOf .empty 0 0xC0], let s := { (sends header (some y)).modFrame 0 0 fun r => { r with
          task := some { tsk with launch := 7 } } with hub := { faced.hub with recs := [{ rec1 with id := 7 }] } }
      remoteMember s 0 7 0 0 = some (.frame 0 0) ∧ (s.frame 0 0).away = false ∧ (s.frame 0 0).buf (5#6).toNat = some y ∧
      barsBuf y 0x40 0x80 = decide (y.st = .lost) ∧ reqOf s 5 ⟨0, 0, 0, 0, 5⟩ = none) := by
  refine ⟨?_, ?_⟩
  · simp only [List.forall_mem_cons, List.not_mem_nil, false_implies, implies_true, and_true]
    refine ⟨?_, ?_⟩ <;> decide +kernel
  · decide +kernel

def token : Tok := ⟨9, 7, [1], 1000, 54000, false⟩
def yarrow (rs : List YReq) (ts : List Tok) (now n : Nat) (s : State := faced) : State := { s.modCube 0 fun u => { u with
  reqs := rs, toks := ts, ctl := { u.ctl with grantmax := n, grantq := 64 } } with now := now }
/-- TokensMoveMessageLines: room for one token and none, for a message of this package and of another; a lower class; an aged
request beside a younger; fewer bytes; the last line of a token from another package and from a face; its last cycle and the one
after; a returned line. -/
theorem witness_tokens :
    let open_ := fun (q : YReq) => q.closed = false ∧ q.ungranted ≠ [] ∧ q.recv = none
    let free := fun (s : State) => ((s.cube 0).toks.filter fun t => !t.expired).length < (s.cube 0).ctl.grantmax
    (∀ p ∈ [0, 5], let q := { request with srcPkg := p }
     let s := yarrow [q] [] 200 1
     s.teasel.power = true ∧ (s.cube 0).reqs = [q] ∧ open_ q ∧ free s ∧ s.pkg = 0) ∧
    (let s := yarrow [request] [token] 200 1
     (s.cube 0).reqs = [request] ∧ ¬ free s) ∧
    (∀ q ∈ [{ request with num := 8, cls := 0 }, { request with num := 8, ungranted := [3] }],
     let s := yarrow [request, q] [] 200 1
     (s.cube 0).reqs = [request, q] ∧ open_ q ∧ open_ request ∧ free s ∧ (q.cls.toNat < request.cls.toNat ∨
       (q.cls = request.cls ∧ s.now < q.lastGrant + usCycles 50 ∧ s.now < request.lastGrant + usCycles 50 ∧ q.bytesUngranted < request.bytesUngranted))) ∧
    (∀ n ∈ [135100, 135101], let p := { request with num := 8, lastGrant := 101 }
     let s := yarrow [p, request] [] n 1
     (s.cube 0).reqs = [p, request] ∧ open_ request ∧ open_ p ∧ free s ∧ request.cls = p.cls ∧ request.lastGrant + usCycles 50 ≤ s.now ∧
       (p.lastGrant + usCycles 50 ≤ s.now ↔ n = 135101) ∧ request.lastGrant < p.lastGrant) ∧
    (∀ s0 ∈ [pinned, far], let q := { request with owed := [1], ungranted := [] }
     let s := yarrow [q] [token] 1000 1 s0
     (targetCheck s (fpidOf s ((cubePart s 0).getD 0)) 0x20040 true).isSome = decide (s0 ≠ pinned) ∧ (s.cube 0).reqs = [q] ∧ (s.cube 0).toks = [token] ∧ token.req = q.num ∧ token.expired = false ∧ token.lines = [1] ∧ q.owed = [1] ∧
      q.srcPkg ≠ s.pkg ∧ q.recv = none ∧ min 64 (q.len - 64 * 1) = 64 ∧
      s.now - token.granted < token.life) ∧
    (let y := bufferOf .filling 1 0xC0
     let q := { request with srcPkg := 0, owed := [1], ungranted := [], dst := 0x40, len := 0x80, recv := some (0, (5, 99)), rtask := some (0, 0, 0, 0) }
     let m := { header with acc := some (0, 7) }
     let s := yarrow [q] [token] 1000 1 (sends m (some y))
     findMsg s q.key = some (0, 0, m) ∧ m.olds = [] ∧ m.srcB = [] ∧ (s.frame 0 0).fl.msgs = [m] ∧ msgToBuffer m.rc = true ∧ q.pref = [] ∧
      q.moved = [] ∧ okWith (srcPlace s 0 0 m 1) (fun p => match p with
        | .face k => let key := (bufKey tsk y (q.dst + 64)).1
          decide (k + 64 ≤ key ∨ key + 64 ≤ k)
        | _ => false) = true ∧ (s.frame 0 0).task = some tsk ∧
      (s.frame 0 0).away = false ∧ (s.frame 0 0).buf 5 = some y ∧ y.st ≠ .lost ∧ 0 < y.len ∧ q.recv = some ((0 : FrameId).val, (5, y.gen))) ∧
    (∀ n ∈ [1000 + 53999, 1000 + 54000], let s := yarrow [request] [token] n 1
     (s.cube 0).reqs = [request] ∧ (s.cube 0).toks = [token] ∧ (token.life ≤ s.now - token.granted ↔ n = 55000)) ∧
    (let q := { request with returned := [1] }
     (yarrow [q] [] 5 1).teasel.power = true ∧ ((yarrow [q] [] 5 1).cube 0).reqs = [q] ∧ q.returned ≠ [] ∧ q.closed = false) := by
  refine ⟨?_, ?_, ?_, ?_, ?_, ?_, ?_, ?_⟩ <;> decide +kernel

/-- TokensMoveMessageLines: a request for a declared buffer of a resident task, of this package and of another. -/
theorem witness_declared_requests : ∀ p ∈ [0, 5],
    let y := bufferOf .filling 1 0x100
    let q := { request with srcPkg := p, recv := some (0, (5, y.gen)), rtask := some (0, 0, 0, 0) }
    let s := yarrow [q] [] 200 1 (sends header (some y))
    s.teasel.power = true ∧ (s.cube 0).reqs = [q] ∧ q.closed = false ∧ q.ungranted ≠ [] ∧ q.recv = some ((0 : FrameId).val, (5, y.gen)) ∧
      (s.frame 0 0).task = some tsk ∧ q.rtask = some (tsk.part, tsk.launch, tsk.gang, tsk.rank) ∧ (s.frame 0 0).away = false ∧
      (s.frame 0 0).buf 5 = some y ∧ y.st ≠ .lost := by
  decide +kernel

/-- MessagesEnd: a fill that has performed, of this package and of another; one that owes a line; one whose buffer was lost. -/
theorem witness_fill_ends :
    ∀ x ∈ [(0, [], BufSt.filling), (5, [], .filling), (0, [1], .filling), (5, [1], .lost)],
    let q := { request with srcPkg := x.1, recv := some (0, (5, 99)), rtask := some (0, 0, 0, 0), rsig := 7, owed := x.2.1, ungranted := [] }
    let y := bufferOf x.2.2 1 0x100
    let m := { header with acc := some (0, 7) }
    let s := yarrow [q] [] 200 8 (sends m (some y))
    s.teasel.power = true ∧ (s.frame 0 0).away = false ∧ (s.cube 0).reqs = [q] ∧ (s.cube 0).toks = [] ∧ q.closed = false ∧
      q.recv = some ((0 : FrameId).val, (5, y.gen)) ∧ (s.frame 0 0).task = some tsk ∧ (s.frame 0 0).buf 5 = some y ∧ y.fill ≤ 1 ∧ q.rsig.toNat < 8 ∧
      findMsg s q.key = some (0, 0, m) := by
  decide +kernel
/-- MessagesEnd: messages that ended with and without a flag; the last cycle before ORPHTO and the first past it, of a message of
this package and of another. -/
theorem witness_message_ends :
    (∀ sig ∈ [(7 : BitVec 6), 63], let m := { header with ended := some 2, sig := sig }
      let s := sends m none
      s.teasel.power = true ∧ (s.frame 0 0).away = false ∧ (s.frame 0 0).fl.msgs = [m] ∧ m.acc = none ∧ m.srcB = [] ∧ (m.sig.toNat < 8 ∨ m.sig = 63)) ∧
    (∀ p ∈ [0, 5], ∀ n ∈ [99 + 2700000, 100 + 2700000], let q := { request with srcPkg := p, owed := [1], returned := [1], dst := 0x10000 }
      let m := { toMemory with acc := some (0, 7), ended := none, rc := [0x10000, 0x00FF000008000040, 0x10000000000 + 63 * 2 ^ 26] }
      let s := yarrow [q] [] n 8 (if p = 5 then pinned else sends m none pinned)
      (s.cube 0).reqs = [q] ∧ (s.cube 0).toks = [] ∧ q.closed = false ∧ q.recv = none ∧ 0 < q.len ∧ okWith (globalDst s 0 q 1) (fun _ => true) = true ∧
      (q.orphto ≤ q.idle + (match q.since with | some t => s.now - t | none => 0) ↔ n = 2700100) ∧
      (p = 0 → findMsg s q.key = some (0, 0, m) ∧ (s.frame 0 0).fl.msgs = [m])) := by
  refine ⟨?_, ?_⟩ <;> decide +kernel

/-- Two residents; the time, a stall, a due switch; the running one at a drain point or not. -/
def two (dp : BitVec 16) (now : Nat) (st sl : Option Nat) : State :=
  { ((before (bundleOf dp 0)).modFrame 0 0 fun r => { r with issue := { r.issue with slice := sl } }).modFrame 0 1 (fun r =>
      { r with task := some { tsk with rank := 1 }, issue := { r.issue with pc := 0x10044 } })
    |>.modCube 0 fun q => { q with stallSince := st } with now := now }
/-- CoreTurnsToTheOtherResident: one cycle before and at a millisecond; a stall of 512 cycles; a switch due, none; the last
bundle of DPLIMIT; a frame whose last step is done. -/
theorem witness_switches :
    (∀ n ∈ [2699999, 2700000], let s := two 1 n none none
      s.teasel.power = true ∧ (s.frame 0 (s.cube 0).running).task.isSome = true ∧ (s.frame 0 (s.cube 0).running).issue.slice = none ∧
        (s.cube 0).runSince ≤ s.now) ∧
    (two 1 2700000 none none).now = ((two 1 2700000 none none).cube 0).runSince + usCycles 1000 ∧
    (∀ s ∈ [two 1 600 (some 88) none, two 1 600 none (some 3), two 1 600 none none],
      (s.frame 0 0).priv.lvl = false ∧ (s.frame 0 0).issue.dbg.held = false ∧ ready slotMeaning s 0 (1 - (s.cube 0).running) = true ∧ (s.frame 0 (1 - (s.cube 0).running)).issue.swapped = false ∧
      atDrainPoint s 0 (s.cube 0).running = true ∧ drainTrap s 0 (s.cube 0).running = none) ∧
    (let s := two 0 600 none (some 65536)
     ready slotMeaning s 0 1 = true ∧ (s.frame 0 0).issue.slice = some 65536 ∧ (s.cube 0).ctl.dplimit.toNat ≤ 65536 ∧ (s.frame 0 0).issue.preempt = none ∧
      (s.frame 0 0).fl = Flight.none ∧ (s.frame 0 0).taint.out = []) ∧
    ready slotMeaning (before (bundleOf 1 0)) 0 1 = false ∧
    (let s := (two 1 600 (some 88) none).modFrame 0 0 fun r => { r with issue := { r.issue with dbg := .step 0 } }
     ready slotMeaning s 0 1 = true ∧ (s.frame 0 0).issue.dbg.held = true) := by
  decide +kernel

def asGang (g : Gang) (h : Frame → Frame) : State :=
  { before (bundleOf 1 0) h with hub := { faced.hub with recs := [{ rec1 with gangs := [g] }] } }
/-- PreemptionTakesAGang: a running gang, one already asked, its one member at a drain point, two members. -/
theorem witness_preemption :
    (let s := asGang gang1 id
     s.teasel.power = true ∧ s.hub.recs = [rec1] ∧ rec1.gangs = [gang1] ∧ rec1.isSpan = false ∧ gang1.st = .running ∧ gang1.pre = false) ∧
    (let g := { gang1 with pre := true }
     let s := asGang g fun r => { r with issue := { r.issue with preempt := some (0, 0) } }
     s.hub.recs = [{ rec1 with gangs := [g] }] ∧ g.pre = true ∧ (s.frame 0 0).task = some tsk ∧ tsk.part = rec1.part ∧ tsk.launch = rec1.id ∧
      tsk.gang = g.idx ∧ (s.frame 0 0).issue.preempt = some (0, 0) ∧ (s.frame 0 0).priv.lvl = false ∧ (s.frame 0 0).issue.dbg.held = false ∧
      atDrainPoint s 0 0 = true ∧ drainTrap s 0 0 = none ∧ (s.frame 0 0).fl.msgs = [] ∧ (s.frame 0 0).fl.syncQ = [] ∧ gangFrames s 0 0 0 = [(0, 0)]) ∧
    (let s := (asGang { gang1 with pre := true } fun r => { r with issue := { r.issue with preempt := some (0, 0) } }).modFrame 2 1 fun r =>
       { r with task := some { tsk with rank := 1 }, issue := { r.issue with preempt := some (0, 0) } }
     (2, 1) ∈ gangFrames s 0 0 0 ∧ ((2, 1) : CubeId × FrameId) ≠ (0, 0) ∧ (s.frame 2 1).issue.preempt.isSome = true ∧ atDrainPoint s 0 0 = true) ∧
    (let k := { rec1 with words := (List.replicate 32 0).set 0 0x40000000001 }
     let s := { before (bundleOf 1 0) with hub := { faced.hub with recs := [k], parts := [placePart] } }
     k.isSpan = true ∧ s.hub.parts[k.part]? = some placePart ∧ (∀ p ∈ spanPkgs k, portUp s (partCube s k.part) p 0 = true) ∧ k.gangs = [gang1] ∧ gang1.st = .running ∧ gang1.pre = false) := by
  decide +kernel

/-- DrainPointsAndPhases: a failing layer at a drain point; a failed gang there and elsewhere. -/
theorem witness_phases :
    (let s := (asGang gang1 id).modCube 0 fun q => { q with fab := { q.fab with failing := 0x80 } }
     (s.frame 0 0).task = some tsk ∧ (s.frame 0 0).priv.lvl = false ∧ atDrainPoint s 0 0 = true ∧
      (s.frame 0 0).ctl.layers &&& (s.cube 0).fab.failing ≠ 0) ∧
    (let g := { gang1 with err := some (7, 1, 2) }
     let s := asGang g id
     s.hub.recs = [{ rec1 with gangs := [g] }] ∧ g.err = some (7, 1, 2) ∧ gangFrames s 0 0 0 = [(0, 0)] ∧ atDrainPoint s 0 0 = true) ∧
    (let g := { gang1 with err := some (7, 1, 2) }
     let s := { before (bundleOf 0 0) with hub := { faced.hub with recs := [{ rec1 with gangs := [g] }] } }
     gangFrames s 0 0 0 = [(0, 0)] ∧ atDrainPoint s 0 0 = false ∧ (s.frame 0 0).issue.swapped = false) ∧
    (let g := { gang1 with err := some (7, 1, 2), pre := true }
     let s := { before (bundleOf 0 0) (fun r => { r with issue := { r.issue with swapped := true } }) with
       hub := { faced.hub with recs := [{ rec1 with gangs := [g] }] } }
     gangFrames s 0 0 0 = [(0, 0)] ∧ g.pre = true ∧ (s.frame 0 0).issue.swapped = true ∧ (s.frame 0 0).issue.preempt = none) := by
  decide +kernel

def phase15 (came : List (Nat × Nat)) : Phase := ⟨0, 0, 0, .gang, 15, 0, [], came, false⟩
def barred15 (came : List (Nat × Nat)) : State := { asGang gang1 id with hub := { faced.hub with recs := [rec1], phases := [phase15 came] } }
/-- DrainPointsAndPhases: the last arrival and none. -/
theorem witness_barrier_phases :
    (∀ l ∈ [[(0, 0)], []], (barred15 l).hub.recs = [rec1] ∧ (barred15 l).hub.phases = [phase15 l] ∧ (phase15 l).ended = false) ∧
    rec1.isSpan = false ∧ (phase15 []).part = rec1.part ∧ (phase15 []).launch = rec1.id ∧ (phase15 []).gang = gang1.idx ∧
    (phase15 []).bid < 16 ∧ rec1.gsize = 1 ∧ (∀ rank, rank < 1 → rank ∈ gang1.doneR ∨ (0, rank) ∈ [(0, 0)]) ∧
    (∀ rank, rank < 1 → rank ∉ gang1.doneR) := by
  decide +kernel
/-- DrainPointsAndPhases: a span of packages 0 and 3, whose member there has arrived, has completed, or neither. -/
theorem witness_span_phases :
    ∀ x ∈ ([([(0, 0), (1, 0)], []), ([(0, 0)], [(1, 0)]), ([], [])] : List (List (Nat × Nat) × List (Nat × Nat))),
    let k := { rec1 with words := ((List.replicate 32 0).set 0 0x40000000001).set 16 0xC00, doneM := x.2 }
    let p := { phase15 x.1 with kind := .span }
    let s := { asGang gang1 id with hub := { faced.hub with recs := [k], phases := [p] } }
    let gone := fun (sr rank : Nat) => (sr, rank) ∈ p.came ∨ (sr = gang1.idx ∧ rank ∈ gang1.doneR) ∨
      (sr ≠ gang1.idx ∧ (sr ∈ k.doneAt ∨ (sr, rank) ∈ k.doneM))
    s.hub.recs = [k] ∧ s.hub.phases = [p] ∧ p.ended = false ∧ p.kind = .span ∧ k.ownRank s = some gang1.idx ∧ spanPkgs k = [0, 3] ∧ k.gsize = 1 ∧
      (∀ sr, sr < 2 → (gone sr 0 ↔ x.1 ≠ [])) := by
  simp only [List.forall_mem_cons, List.not_mem_nil, false_implies, implies_true, and_true]
  refine ⟨?_, ?_, ?_⟩ <;> decide +kernel

/-- TasksGangsAndRecordsComplete: a halted task alone in the package; a gang whose members are done, and one with an error;
a record that is over, with and without an address that translates; the last vector, masked and not. -/
theorem witness_completions :
    (let s := asGang gang1 fun r => { r with issue := { r.issue with halted := true } }
     s.teasel.power = true ∧ s.hub.recs = [rec1] ∧ rec1.isSpan = false ∧ rec1.gangs = [gang1] ∧ (s.frame 0 0).task = some tsk ∧
      gang1.pre = false ∧ (s.frame 0 0).issue.halted = true ∧ (s.frame 0 0).priv.lvl = false ∧ (s.frame 0 0).issue.stopped = false ∧
      (s.frame 0 0).fl = Flight.none ∧ (s.frame 0 0).taint.out = [] ∧
      (∀ d : CubeId, (s.frame d (1 - (s.cube d).running)).task = none)) ∧
    (let s := { State.reset with hub := { State.reset.hub with recs := [{ rec1 with gangs := [{ gang1 with doneR := [0] }] }] } }
     s.teasel.power = true ∧ (∀ (c : CubeId) (f : FrameId), (s.frame c f).task = none) ∧ s.merge = [] ∧ gang1.err = none ∧
      gang1.st = .running ∧ [0].length = rec1.gsize) ∧
    (let g := { gang1 with err := some (7, 1, 2) }
     g.err = some (7, 1, 2) ∧ g.st ≠ .waiting ∧ rec1.isSpan = false) ∧
    (let k := { rec1 with gangs := [], next := 1, doneN := 1 }
     let s := { tables with hub := { tables.hub with recs := [k] } }
     k.home = s.pkg ∧ recOver k = true ∧ k.word 12 = 0 ∧ (partOf s k.part).isSome = true) ∧
    (∀ m : Bool, let k := { rec1 with gangs := [], next := 1, doneN := 1, words := rec1.words.set 13 (0x8000 + 2047) }
     let s := { tables with hub := { tables.hub with recs := [k], vecs := if m then [] else [(2047, ⟨0x1000, 7, false⟩)] } }
     k.home = s.pkg ∧ recOver k = true ∧ Nat.testBit (k.word 13) 15 = true ∧
      (fget MsixVec.zero s.hub.vecs (2048 * k.part + k.word 13 % 2 ^ 11)).mask = m) ∧
    (let k := { rec1 with gangs := [], next := 1, doneN := 1, words := rec1.words.set 12 0x10040 }
     let s := { tables with hub := { tables.hub with recs := [k] } }
     recOver k = true ∧ k.word 12 ≠ 0 ∧ okWith (hubTranslate s k.part k.asid { w := true } (k.word 12)) (fun a => a = 0x30040) = true ∧
      k.id < 2 ^ 32) ∧
    (let k := { rec1 with gangs := [], next := 1, doneN := 1, words := rec1.words.set 12 0x99990040 }
     let s := { tables with hub := { tables.hub with recs := [k] } }
     recOver k = true ∧ errWith (hubTranslate s k.part k.asid { w := true } (k.word 12)) (fun _ => true) = true ∧
      errWith (walk s k.part k.asid (k.word 12)) (fun w => !w.bad) = true) := by
  decide +kernel

def recWords (l : List (Nat × Nat)) : List Word := (List.range 32).map fun i => w64 ((l.find? (·.1 = i)).map (·.2) |>.getD 0)
def goodRec : List Word := recWords [(0, 0x320000000), (2, 0x99), (3, 0x000100010001), (6, 0x10044), (7, 0x10040), (8, 5), (9, 0x3000), (11, 1)]
def lateRec : List Word := (goodRec.set 0 0x2020000000).set 14 0xFFFFFFFE   -- one dependency, on a record that failed
def part0 : Part := { placePart with queues := 0x7FFFFFFFFFFFFFFF, retained := [(0xFFFFFFFE, 4)], nextId := 0xFFFFFFFF }
def window (l : List Word) : State :=
  let s := gWriteVal faced 80 8 1
  { s with hub := { s.hub with parts := [part0], queues := s.hub.queues.set 0 { s.hub.queues[0] with en := true, stage := l } } }
/-- SubmissionsAreDecided: the first and last words of a window, its control word, another; a queue of no partition; a
record that is refused, one accepted under the last identifier, one whose dependency failed; `wlaunch` of each. -/
theorem witness_submissions :
    (window goodRec).teasel.power = true ∧ partOf (window goodRec) 0 = some part0 ∧ queuePart (window goodRec) 0 = some 0 ∧
    queuePart (window goodRec) 63 = none ∧ (0xF8 : Nat) < 0x100 ∧ (0x108 : Nat) ≠ 0x110 ∧
    (refusals (window goodRec) 0 part0 goodRec false).find? (·.2) = none ∧
    ((refusals (window goodRec) 0 part0 (goodRec.set 9 7) false).find? (·.2)).isSome = true ∧
    (refusals (window lateRec) 0 part0 lateRec false).find? (·.2) = none ∧
    (∀ rc ∈ [goodRec, goodRec.set 9 7], let e : CopyEnt := { copy1 with op := .wlaunch rc, sig := 7 }
      let s := (window goodRec).modFrame 0 0 fun r => { r with fl := { Flight.none with copyQ := [e] } }
      (s.frame 0 0).fl = { Flight.none with copyQ := [e] } ∧ (s.frame 0 0).away = false ∧ e.wait = 0 ∧ clockStands s 0 = false ∧
      (s.frame 0 0).task.map (·.part) = some 0 ∧ e.sig.toNat < 8 ∧
      ((refusals s 0 part0 rc true).find? (·.2)).isSome = decide (rc ≠ goodRec)) := by
  decide +kernel

def waitingRec : Rec := ⟨0, 4, goodRec, 3, 0, [], 0, 0, 0, none, false, [], [], none, 0, [], 0, [], []⟩
def queued (now : Nat) : State :=
  let s := gWriteVal { State.reset with hub := { State.reset.hub with parts := [{ part0 with nextId := 5 }], recs := [waitingRec] } } 80 8 0x200001
  let s := { s with now := now, hub := { s.hub with queues := s.hub.queues.set 0 { s.hub.queues[0] with en := true, pend := [4], headAt := 5 } } }
  [0, 1, 2, 3].foldl (fun s (c : CubeId) => s.modCube c fun q => { q with fab := { q.fab with insvc := 0xFF, phys := Vector.ofFn fun i => some i.val } }) s
/-- SchedulerRuns: no offer; one fresh record whose gang finds seats, and one that does not fit; a head 100 ms old, and one cycle younger. -/
theorem witness_offers :
    (queued 6).teasel.power = true ∧ offers (queued 6) 1 = [] ∧
    (match offers (queued 6) 0 with | [(_, _, _, .fresh k)] => decide (k = waitingRec) | _ => false) = true ∧ waitingRec.isSpan = false ∧
    findRec (queued 6) waitingRec.part waitingRec.id = some waitingRec ∧
    (match placeGang (queued 6) waitingRec waitingRec.next with | .seats l => decide (l.length = 1) | _ => false) = true ∧
    ((queued 6).hub.queues[0]).pend ≠ [] ∧ ((queued 6).hub.queues[0]).headAt + usCycles 100000 = 270000005 ∧
    ((queued 6).hub.queues[1]).pend = [] ∧
    (∀ k ∈ (queued 6).hub.recs, k.part = 0 → k.isSpan = false) ∧ outGangs (queued 6) 0 = [] ∧
    (let s := [0, 1, 2, 3].foldl (fun s (c : CubeId) => (s.modCube c fun q => { q with camp := { q.camp with lrep := 0 } }).modFrame c 0 fun r =>
       { r with task := some tsk }) (queued 6)
     (match placeGang s waitingRec waitingRec.next with | .nofit => true | _ => false) = true ∧ s.hub.resv = []) := by
  decide +kernel

def loadingOf (dict : Nat) : State :=
  let k := { waitingRec with gangs := [{ gang1 with st := .waiting }], next := 1, words := (goodRec.set 5 3).set 4 (w64 dict) }
  let s := { tables with hub := { tables.hub with recs := [k] } }
  let s := gWriteVal (gWriteVal s 80 8 0x200001) 0x30005 48 (2 ^ 383 + 77)
  (s.modFrame 0 0 fun r => { r with task := some { tsk with launch := 4 } }).modCube 0 fun q => { q with dict := q.dict.set 0 ⟨some (0, 4), 3, false, []⟩ }
/-- SchedulerRuns: a gang that waits for its dictionary of three words, at an address that translates and at one that does not. -/
theorem witness_dictionary : ∀ x ∈ [(0x10000, true), (0x99990000, false)], let loading := loadingOf x.1
    (match loading.hub.recs with
     | [k] => match k.gangs with
       | [g] => decide (g.st = .waiting ∧ gangFrames loading k.part k.id g.idx = [(0, 0)] ∧ (loading.frame 0 0).task.map (·.half) = some 0 ∧
           (dictOf loading 0 (loading.frame 0 0)).loaded = false ∧ k.word 5 % 2 ^ 15 = 3 ∧ k.isSpan = false) &&
           okWith (loadImage loading 0 k) (fun _ => true) == x.2
       | _ => false
     | _ => false) = true := by
  decide +kernel

/-- SchedulerRuns: a reservation in its last cycle and mature; a span of packages 0, 3 and 7 that asks in turn, and its
first cycle past a millisecond; a hold given in the last cycle of it. -/
theorem witness_spans :
    let v : Reserve := ⟨0, 4, 0, [0, 2], 100, false⟩
    let k := { waitingRec with words := recWords [(0, 0x80020000001), (2, 0x151144), (6, 0x10044), (11, 1), (16, 0x700003)], asked := [0], holds := [0], chosen := some 50 }
    let at_ := fun (k : Rec) (now : Nat) => { queued now with hub := { (queued now).hub with recs := [k] } }
    (∀ n ∈ [99 + 27000000, 100 + 27000000], let s := { queued n with hub := { (queued n).hub with resv := [v] } }
      s.hub.resv = [v] ∧ v.cubes.contains (0 : CubeId).val = true ∧ v.mature = false ∧ (findRec s v.part v.launch).isSome = true ∧
      v.opened + usCycles 10000 = 27000100 ∧ v.opened ≤ s.now) ∧
    (k.isSpan = true ∧ k.home = (at_ k 100).pkg ∧ spanPkgs k = [3, 0, 7] ∧ 3 ∉ k.asked ∧ 3 ≠ (at_ k 100).pkg ∧
      (∀ y ∈ spanPkgs k, y < 3 → y ∈ k.holds) ∧ (3 ∈ spanPkgs k ∧ 3 < 7 ∧ 3 ∉ k.holds)) ∧
    50 ≤ (at_ k 100).now ∧ (at_ k 2700049).now < 50 + usCycles 1000 ∧ 50 + usCycles 1000 ≤ (at_ k 2700050).now ∧ (at_ k 2700050).hub.given = [] ∧
    (∀ p ∈ spanPkgs k, portUp (at_ k 100) (partCube (at_ k 100) k.part) p 0 = true) ∧
    (let k := { k with asked := [3, 0] }
     let s := at_ k 2700049
     partOfFpid s 0 = some k.part ∧ ownId s (wireId s 4) = k.id ∧ (at_ k 2700050).hub.recs = [k] ∧ 3 ∈ k.asked ∧ 3 ∉ k.holds) ∧
    (let k := { k with asked := [], holds := [] }
     let s := at_ k 100
     0 ∈ spanPkgs k ∧ 0 ∉ k.asked ∧ s.pkg = 0 ∧ (∀ y ∈ spanPkgs k, ¬ y < 0) ∧ k.gangs = [] ∧ k.doneN = 0 ∧ k.ownRank s = some 1 ∧
      (match placeGang s k 1 with | .seats _ => true | _ => false) = true) := by
  decide +kernel

def camp (g : Campion → Campion) (now : Nat) : State := { faced.modCube 0 fun q => { q with camp := g { q.camp with s := 3, temp := 320, amps := 900 } } with now := now }
/-- CampionThrottles: a trip and its end, at the edges of the temperatures and of one second; with a gang on the cube and
without; a leave of the greatest class, one too great; a leave that ends now and one cycle later. -/
theorem witness_campion :
    (let s := camp id 5
     let k := (s.cube 0).camp
     s.teasel.power = true ∧ k.trip = none ∧ 4 * k.lim.ttrip < 441 ∧ 440 ≤ 4 * k.lim.ttrip ∧ k.lim.icmax < 1151 ∧ 12 * k.lim.icmax < 10 * 1381) ∧
    (let s := camp (fun k => { k with s := 15, trip := some 100 }) 2700000100
     let k := (s.cube 0).camp
     k.trip = some 100 ∧ 399 + 40 < 4 * k.lim.ttrip ∧ 4 * k.lim.ttrip ≤ 400 + 40 ∧ (s.cube 0).fab.coreOff = false ∧ 100 + usCycles 1000000 ≤ s.now ∧
      gangsOn s 0 = []) ∧
    (let s := { camp (fun k => { k with s := 15, trip := some 100 }) 2700000099 with hub := { faced.hub with recs := [rec1] } }
     100 ≤ s.now ∧ s.now < 100 + usCycles 1000000 ∧ s.hub.recs = [rec1] ∧ rec1.isSpan = false ∧ (∃ p ∈ gang1.places, p.1 = (0 : CubeId).val)) ∧
    (let r : LeaveReq := ⟨0, 4, 50, 7⟩
     let s := fun (n till : Nat) => (camp (fun k => { k with reqs := [r] }) 5).modFrame 0 1 fun x => { x with leave := some (n, till) }
     ((s 4 6).cube 0).camp.reqs = [r] ∧ (((s 4 6).cube 0).frame (frameOf r.frame)).task.isSome = true ∧ ((s 4 6).cube 0).ctl.ramp = 0 ∧
      (((s 4 6).cube 0).frame 1).leave = some (4, 6) ∧ (((s 4 6).cube 0).frame 0).leave = none ∧ r.cls + 4 ≤ 8 ∧ 8 < r.cls + 5 ∧ (s 5 5).now = 5) := by
  decide +kernel

def layerAt (st : LPower) (since now : Nat) : State :=
  { faced.modCube 0 fun q => { q with pow := q.pow.set 7 ⟨st, since, 0, 7, false⟩, fab := { q.fab with phases := [(127, 1)], deadPorts := [3] } } with now := now }
/-- LayersAndPortsFailAndRest: 64 cycles of idleness and a millisecond; a wake; the second phase of a group under a task;
a live port and a dead one. -/
theorem witness_layers :
    (let s := layerAt .active 0 64
     s.teasel.power = true ∧ ((s.cube 0).pow[(7 : Fin 8)]).st = .active ∧ 0 + 64 ≤ s.now ∧ layerBusy (s.cube 0) 7 = false ∧
      (s.cube 0).camp.ballast.getLsbD 7 = false ∧ ((s.cube 0).pow[(7 : Fin 8)]).st ≠ .withdrawn ∧ fget 0 (s.cube 0).fab.phases 0 = 0 ∧ fget 0 (s.cube 0).fab.phases (16 * 7 + 15) = 1 ∧
      ((s.cube 0).frame 0).ctl.layers.getLsbD 7 = true ∧ ((s.cube 0).frame 0).task.isSome = true) ∧
    (let s := layerAt .gated 0 2700000
     ((s.cube 0).pow[(7 : Fin 8)]).st = .gated ∧ 0 + usCycles 1000 ≤ s.now ∧ layerNeeded (s.cube 0) 7 s.now = false) ∧
    (let s := (layerAt .retention 5 6).modCube 0 fun q => { q with pow := q.pow.set 7 ⟨.retention, 5, 0, 6, true⟩ }
     (s.cube 0).camp.trip = none ∧ ((s.cube 0).pow[(7 : Fin 8)]).st = .retention ∧ ((s.cube 0).pow[(7 : Fin 8)]).waking = true ∧
      ((s.cube 0).pow[(7 : Fin 8)]).ready ≤ s.now) ∧
    (∀ n ∈ [26999999, 27000000], (layerAt .active 0 n).now - ((layerAt .active 0 n).cube 0).fab.trimAt < usCycles 10000 ↔ n = 26999999) ∧
    (let s := (layerAt .active 0 64).modFrame 0 0 fun r => { r with fl := { Flight.none with fly := [{ lined store .sent with
       lines := [{ lineAt 0x10048 with st := .sent, pa := some (5 * 2 ^ 42 + 0x48) }] }] } }
     let s := s.modCube 0 fun q => { q with fab := { q.fab with pmap := Vector.replicate 8 3 } }
     (3#4).toNat ∈ (s.cube 0).fab.deadPorts ∧ portWaits s 0 3 = true) ∧
    (let s := layerAt .active 0 64
     ((s.cube 0).frame 0).fl = Flight.none ∧ ((s.cube 0).frame 1).fl = Flight.none ∧ (15#4).toNat ∉ (s.cube 0).fab.deadPorts ∧ (14#4) ≠ 15 ∧
      (14#4).toNat ∉ (s.cube 0).fab.deadPorts ∧ (3#4).toNat ∈ (s.cube 0).fab.deadPorts ∧ portExists (s.cube 0) 14 = false ∧
      portExists (s.cube 0) 12 = true ∧ (12#4) ≠ 15 ∧ (12#4).toNat ∉ (s.cube 0).fab.deadPorts) ∧
    (let s := layerAt .withdrawn 0 64
     fget 0 (s.cube 0).fab.phases 127 = 1 ∧ ((s.cube 0).pow[(7 : Fin 8)]).st = .withdrawn) := by
  decide +kernel

/-- LayersAndPortsFailAndRest: the last lines of HBM and of shared memory; the second error of each kind; the last spare line; the
last spare wire, one past it, and a bus that fails already. -/
theorem witness_wear :
    populated (2 ^ 39 - 1) = true ∧ populated (2 ^ 39 + 3 * 2 ^ 30 + 0x2FFFFFFF) = true ∧ populated (2 ^ 39 + 0x30000000) = false ∧
    (∀ n ∈ [31, 32], let s := faced.modCube 0 fun q => { q with fab := { q.fab with wear := { q.fab.wear with
        wires := [(7, n)], spares := [(255, 63)], lines := [(2 ^ 33 - 1, ⟨1, List.replicate 15 0⟩)], banks := [(0, ⟨1, List.replicate 63 0⟩)]
        retries := [(7, [(0, 1000)])] } } }
      let w := (s.cube 0).fab.wear
      s.teasel.power = true ∧ fget 0 w.wires 7 = n ∧ fget 0 w.spares 255 = 63 ∧ (fget ErrCount.zero w.lines (2 ^ 33 - 1)).bad = 1 ∧
      (fget ErrCount.zero w.banks 0).times.length = 63 ∧ s.now < usCycles 1000 ∧ (s.cube 0).fab.busBad.getLsbD 7 = false) := by
  decide +kernel

def mailed (s : State) (fn : Fin 4) (code part cube action : Nat) (l : List (Nat × Nat)) : State :=
  let m : FMap Byte := ((0, code + part <<< 8 + cube <<< 10 + action <<< 16) :: l).foldl
    (fun m (o, v) => (leBytes 8 v).zipIdx.foldl (fun m (b, i) => fset 0 m (o + i) b) m) []
  s.modTeasel fun t => { t with up := true, mail := t.mail.set fn ⟨m, [(3, 4)], 1⟩ }
def parts2 : State := { faced with now := 77, hub := { faced.hub with
  parts := [{ placePart with cubes := 3, pintab := 0x100000 }, { placePart with cubes := 12, asidtab := 2 ^ 38 + 0x200000, pintab := 2 ^ 38 + 0x300000 }] } }
/-- TeaselSamplesAndBoots: one cycle before the watchdog's end and at it; one before a sample and at it; two records, the second
dependent on the first; a quiet package; recovery with no record. -/
theorem witness_teasel :
    (∀ n ∈ [674999999, 675000000], let s := { faced with now := n }
      s.teasel.power = true ∧ s.teasel.fallback = false ∧ s.teasel.kick + usCycles 250000 = 675000000 ∧ s.teasel.kick ≤ s.now) ∧
    (∀ n ∈ [2699999, 2700000], let s := { faced with now := n, teasel := { faced.teasel with up := true, telAt := 0 } }
      s.teasel.power = true ∧ s.teasel.up = true ∧ (usCycles 1000 ≤ s.now - s.teasel.telAt ↔ n = 2700000)) ∧
    (let k := waitingRec
     let j := { waitingRec with id := 5, words := (goodRec.set 0 0x2020000000).set 14 4 }
     let s := { State.reset with hub := { State.reset.hub with parts := [part0], recs := [k, j] } }
     s.teasel.power = true ∧ s.hub.recs = [k, j] ∧ partOf s 0 = some part0 ∧ k.id ≠ j.id ∧ k.id ∈ j.deps ∧
      ∀ x ∈ s.hub.recs, x.part = 0 ∧ x.home = s.pkg ∧ x.isSpan = false) ∧
    (State.reset.teasel.power = true ∧ State.reset.hub.recs = [] ∧ (∀ (c : CubeId) (f : FrameId), (State.reset.frame c f).task = none)) ∧
    (let s := State.reset.modTeasel fun t => { t with recov := true }
     s.teasel.power = true ∧ s.teasel.recov = true ∧ s.teasel.flash.record = []) ∧
    (faced.teasel.recov = false) := by
  decide +kernel
/-- TeaselSamplesAndBoots: a flash without a record holds none that verifies, whatever the verification says. -/
theorem witness_no_record (key : List Byte) : recordOk key [] = false := by
  simp [recordOk]
/-- TeaselSamplesAndBoots, MailboxCommandsAnswer: where the signature check accepts, a record of zeros stands, and an image
without a body that holds the digest of nothing. -/
def bareImage : List Byte := leBytes 8 9 ++ leBytes 8 0 ++ Config.sha512 [] ++ List.replicate 112 0
theorem witness_verified (key : List Byte) (hv : ∀ k m g, Config.ed25519Verify k m g = true) (hl : (Config.sha512 []).length = 64) :
    recordOk key (List.replicate 0x1E0 0) = true ∧ imageOk key bareImage = true := by
  have h8 : ∀ n, (leBytes 8 n).length = 8 := fun n => by simp [leBytes]
  have h1 : ∀ i, i < 16 → bareImage.getD i 0 = (leBytes 8 9 ++ leBytes 8 0).getD i 0 := fun i hi => by
    simp only [bareImage, List.append_assoc, List.getD_eq_getElem?_getD]
    rw [← List.append_assoc, List.getElem?_append_left (by simp [h8]; omega)]
  have hn : imgLen bareImage = 0 := by
    have : sliceB bareImage 8 8 = (List.range 8).map fun i => (leBytes 8 9 ++ leBytes 8 0).getD (8 + i) 0 :=
      List.map_congr_left fun i hi => h1 _ (by have := List.mem_range.1 hi; omega)
    rw [imgLen, wordAt, this]
    decide +kernel
  have hd : sliceB bareImage 0x10 64 = Config.sha512 [] := by
    have hq : ∀ i, bareImage.getD (16 + i) 0 = (Config.sha512 [] ++ List.replicate 112 0).getD i 0 := fun i => by
      simp only [bareImage, List.append_assoc, List.getD_eq_getElem?_getD]
      rw [← List.append_assoc, List.getElem?_append_right (by simp [h8])]
      simp [h8]
    refine List.ext_getElem (by simp [sliceB, hl]) fun i _ hi => ?_
    simp only [sliceB, List.getElem_map, List.getElem_range, hq, List.getD_eq_getElem?_getD]
    rw [List.getElem?_append_left hi, List.getElem?_eq_getElem hi, Option.getD_some]
  refine ⟨by simp only [recordOk, hv]; decide +kernel, ?_⟩
  rw [imageOk, hn, hd]
  simp [hv, sliceB, bareImage, h8, hl]

/-- TeaselSamplesAndBoots: where the signature check accepts, a record whose MINSEQ is 1 stands, and an empty window's image is older. -/
theorem witness_old_image (key : List Byte) (hv : ∀ k m g, Config.ed25519Verify k m g = true) :
    let l := List.replicate 8 0 ++ [1] ++ List.replicate 0x1D7 0
    recordOk key l = true ∧ wordAt (List.replicate 0xC0 0) 0 < recField l 8 := by
  refine ⟨by simp only [recordOk, hv]; decide +kernel, by decide +kernel⟩

/-- MailboxCommandsRun: function 1 with a command that only function 0 may give; the greatest ACTION with each command that has
none; a code that none defines; a reset. -/
theorem witness_mailbox_rights :
    (∀ x ∈ [((2 : Nat), (0 : Nat)), (4, 0), (6, 0), (8, 0), (8, 4), (8, 8)],
      (mailed parts2 1 x.1 1 0 x.2 []).teasel.power = true ∧ (mailed parts2 1 x.1 1 0 x.2 []).teasel.up = true ∧
      1 < (mailed parts2 1 x.1 1 0 x.2 []).hub.parts.length ∧ headOf (mailed parts2 1 x.1 1 0 x.2 []) 1 = ⟨x.1, 1, 0, x.2, true⟩) ∧
    (∀ code ∈ [1, 2, 3, 4, 6, 7], let s := mailed parts2 0 code 1 0 255 []
      s.teasel.power = true ∧ s.teasel.up = true ∧ (mailOf s 0).status ≠ 0 ∧ s.teasel.copying = false ∧ headOf s 0 = ⟨code, 1, 0, 255, true⟩) ∧
    headOf (mailed parts2 1 10 1 0 5 []) 1 = ⟨10, 1, 0, 5, true⟩ ∧ (partOf parts2 1).isSome = true ∧
    (mailed parts2 0 1 0 0 0 []).asks 0 1 0 0 0 [] := by
  decide +kernel
def badTable : State := { mailed State.reset 0 2 0 0 0 [(8, 0x1000), (16, 1)] with hub := { State.reset.hub with parts := [placePart] } }
def pinAsk (a v : Nat) : State := mailed parts2 1 3 1 0 0 [(8, a), (16, 1), (24, v)]
/-- MailboxCommandsRun: a table of one empty descriptor; a page outside, a pin of no level, the last level, and one whose last
line another package still writes; a limit above the record's. -/
theorem witness_mailbox_run :
    (badTable.asks 0 2 0 0 0 [(8, 8), (16, 8)] ∧ reqWord badTable 0 8 % 64 = 0 ∧ reqWord badTable 0 16 = 1 ∧ badTable.hub.recs = [] ∧
      descsOk ((List.range (reqWord badTable 0 16)).map fun i => descOf (busBytes badTable (reqWord badTable 0 8 + 64 * i) 64) 0) = false) ∧
    (∀ v ∈ [2, 3], (pinAsk (2 ^ 38 + 0x30000) v).asks 1 3 1 0 0 [(8, 8), (16, 8), (24, 8)] ∧ reqWord (pinAsk (2 ^ 38 + 0x30000) v) 1 24 = v ∧
      ((partOf (pinAsk (2 ^ 38 + 0x30000) v) 1).map fun d => inPart d (2 ^ 38 + 0x30000)) = some true ∧
      pinBusy (pinAsk (2 ^ 38 + 0x30000) v) (2 ^ 38 + 0x30000) 1 = false) ∧
    pinBusy { pinAsk (2 ^ 38 + 0x30000) 3 with merge := [{ line64 with pa := 2 ^ 38 + 0x3FFC0, src := (5, 0, 0, .ls) }] } (2 ^ 38 + 0x30000) 1 = true ∧
    ((pinAsk 0x30000 3).asks 1 3 1 0 0 [(8, 8), (16, 8), (24, 8)] ∧ ((partOf (pinAsk 0x30000 3) 1).map fun d => inPart d 0x30000) = some false) ∧
    (let s := mailed parts2 0 4 0 0 0 [(8, 15), (16, 1151), (24, 90), (32, 100), (40, 700)]
     s.asks 0 4 0 0 0 [(8, 8), (16, 8), (24, 8), (32, 8), (40, 8)] ∧ reqWord s 0 8 ≤ 15 ∧ (recordLimits s.teasel).icmax < reqWord s 0 16) := by
  refine ⟨?_, ?_, ?_, ?_, ?_⟩ <;> decide +kernel

def tableBytes (l : List Nat) : List (Nat × Byte) := ((l.flatMap fun v => leBytes 8 v).zipIdx.map fun x => (0x1000 + x.2, x.1)).filter (·.2 ≠ 0)
/-- MailboxCommandsRun: two descriptors that share no cube; limits that every record allows, in order and not. -/
theorem witness_mailbox_tables :
    (let s := mailed State.reset 0 2 0 0 0 [(8, 0x1000), (16, 2)]
     let s := ({ s with hub := { s.hub with parts := [placePart] } }).modTeasel fun t => { t with
       bus := tableBytes [0x50003, 0x10000, 0x1000000, 0xFF, 0, 0, 0, 0, 0x6000C, 2 ^ 38 + 0x10000, 2 ^ 38 + 0x1000000, 0xFF00, 0, 0, 0, 0] }
     s.asks 0 2 0 0 0 [(8, 8), (16, 8)] ∧
      descsOk ((List.range (reqWord s 0 16)).map fun i => descOf (busBytes s (reqWord s 0 8 + 64 * i) 64) 0) = true) ∧
    (let top := recordLimits parts2.teasel
     let s := mailed parts2 0 4 0 0 0 [(8, 15), (16, top.icmax), (24, top.tthr), (32, top.ttrip), (40, top.lcap)]
     s.asks 0 4 0 0 0 [(8, 8), (16, 8), (24, 8), (32, 8), (40, 8)] ∧ reqWord s 0 16 = top.icmax ∧ reqWord s 0 24 = top.tthr ∧
      reqWord s 0 32 = top.ttrip ∧ reqWord s 0 40 = top.lcap ∧ (top.tthr < top.ttrip ∨ top.ttrip ≤ top.tthr)) := by
  decide +kernel

def monAsk (src sel : Nat) : State := mailed parts2 1 5 1 1 0 [(8, 7), (16, src), (24, sel), (32, 2 ^ 32 - 1), (40, 31)]
/-- MailboxCommandsAnswer: the last monitor with each outcome; a read; an update; a quote. -/
theorem witness_mailbox_answer :
    (namedCube parts2 ⟨5, 1, 1, 0, true⟩).isSome = true ∧
    (∀ x ∈ [((4 : Nat), (37 : Nat)), (3, 9999), (7, 0)], (monAsk x.1 x.2).asks 1 5 1 1 0 [(8, 8), (16, 8), (24, 8), (32, 8), (40, 8)] ∧
      reqWord (monAsk x.1 x.2) 1 8 = 7 ∧ reqWord (monAsk x.1 x.2) 1 32 < 2 ^ 32 ∧ reqWord (monAsk x.1 x.2) 1 40 < 32 ∧
      reqWord (monAsk x.1 x.2) 1 16 = x.1) ∧
    selOk 4 37 = true ∧ selOk 3 9999 = false ∧
    (mailed parts2 1 5 1 1 1 [(8, 7)]).asks 1 5 1 1 1 [(8, 8)] ∧
    (let s := mailed parts2 0 6 0 0 0 [(8, 0x1000), (16, 0xC0)]
     s.asks 0 6 0 0 0 [(8, 8), (16, 8)] ∧ s.teasel.copying = false ∧ reqWord s 0 8 % 64 = 0) ∧
    (let s := (mailed parts2 0 6 0 0 0 [(8, 0x1000), (16, 0xC0)]).modTeasel fun t => { t with copying := true }
     s.teasel.power = true ∧ s.teasel.copying = true) ∧
    (mailed parts2 1 7 1 0 0 [(8, 1), (16, 2), (24, 3), (32, 4)]).asks 1 7 1 0 0 [(8, 32)] := by
  refine ⟨?_, ?_, ?_, ?_, ?_, ?_, ?_, ?_⟩ <;> decide +kernel
def asidAsk (v a : Nat) : State := mailed parts2 1 9 1 0 0 [(8, v), (16, a)]
def dropAsk (l : List Rec) (v : Nat) : State := mailed { parts2 with hub := { parts2.hub with recs := l } } 1 9 1 0 1 [(8, v)]
def user7 : Rec := { waitingRec with part := 1, words := goodRec.set 8 7 }
/-- MailboxCommandsAnswer: the last identifier with a root inside and outside, identifier 0; one dropped, one in use. -/
theorem witness_mailbox_asids :
    (∀ x ∈ [((65535 : Nat), (2 ^ 38 + 0x40000 : Nat)), (65535, 0x40000), (0, 2 ^ 38)], (asidAsk x.1 x.2).asks 1 9 1 0 0 [(8, 8), (16, 8)] ∧
      reqWord (asidAsk x.1 x.2) 1 8 ≤ 65535 ∧ reqWord (asidAsk x.1 x.2) 1 16 % 256 = 0 ∧
      ((partOf (asidAsk x.1 x.2) 1).map fun d => inPart d x.2) = some (decide (x.2 ≠ 0x40000))) ∧
    ((dropAsk [] 65535).asks 1 9 1 0 1 [(8, 8)] ∧ reqWord (dropAsk [] 65535) 1 8 = 65535 ∧ (dropAsk [] 65535).hub.recs = []) ∧
    ((dropAsk [user7] 7).asks 1 9 1 0 1 [(8, 8)] ∧ (dropAsk [user7] 7).hub.recs = [user7] ∧ user7.part = 1 ∧ user7.asid.toNat = 7) := by
  decide +kernel

def attached (on : Bool) (d : DbgRun) : State := (parts2.modCube 3 fun q => { q with dbgAttached := on }).modFrame 3 1 fun r =>
  { r with task := some tsk, issue := { r.issue with dbg := d } }
def dbgAsk (s : State) (action : Nat) (l : List (Nat × Nat)) : State := mailed s 0 8 1 1 action l
/-- DebuggerActs: every command on cube 3; cubes attached and not; the greatest step; an empty frame; a step that ends. -/
theorem witness_debugger :
    (∀ a, a < 9 → namedCube parts2 ⟨8, 1, 1, a, true⟩ = some 3) ∧ (dbgAsk parts2 0 []).asks 0 8 1 1 0 [] ∧
    (∀ a ∈ [(1 : Nat), 2, 3], (dbgAsk (attached false .run) a []).asks 0 8 1 1 a [] ∧ (dbgAsk (attached true .run) a []).asks 0 8 1 1 a []) ∧
    ((attached false .run).cube 3).dbgAttached = false ∧ ((attached true .run).cube 3).dbgAttached = true ∧
    ((attached true (.step 0)).frame 3 1).issue.dbg = .step 0 ∧ ((attached true (.step 1)).frame 3 1).issue.dbg = .step 1 := by
  decide +kernel
/-- DebuggerActs: a frame that runs and one halted, the last vector register, the greatest step; a write of
CTAINT; an empty frame. -/
theorem witness_debugged_frames :
    (let s := dbgAsk (attached true .run) 5 [(8, 1), (16, 65536)]
     s.asks 0 8 1 1 5 [(8, 8), (16, 8)] ∧ reqWord s 0 8 = 1 ∧ reqWord s 0 16 = 65536 ∧ (s.frame 3 1).task.isSome = true) ∧
    (∀ d ∈ [DbgRun.run, .halted], (dbgAsk (attached true d) 7 [(8, 1), (0x20, 3 * 512 + 383)]).asks 0 8 1 1 7 [(8, 8), (0x18, 8), (0x20, 8), (0x28, 8)] ∧
      reqWord (dbgAsk (attached true d) 7 [(8, 1), (0x20, 3 * 512 + 383)]) 0 0x20 = 3 * 512 + 383 ∧ ((attached true d).frame 3 1).issue.dbg = d) ∧
    dbgReg (3 * 512 + 383) = some (3, 383) ∧
    (dbgAsk (attached true .halted) 8 [(8, 1), (0x100, 77)]).asks 0 8 1 1 8 ([(8, 8), (0x18, 8), (0x20, 8), (0x28, 8)] ++ [(0x100, 256)]) ∧
    ((dbgAsk (attached true .halted) 8 [(8, 1), (0x18, 1), (0x20, 0x00D)]).asks 0 8 1 1 8 ([(8, 8), (0x18, 8), (0x20, 8), (0x28, 8)] ++ [(0x100, 256)]) ∧
      reqWord (dbgAsk (attached true .halted) 8 [(8, 1), (0x18, 1), (0x20, 0x00D)]) 0 0x18 = 1 ∧
      reqWord (dbgAsk (attached true .halted) 8 [(8, 1), (0x18, 1), (0x20, 0x00D)]) 0 0x20 = 0x00D) ∧
    (dbgAsk parts2 4 [(8, 1)]).asks 0 8 1 1 4 [(8, 8)] ∧ (parts2.frame 3 1).task = none := by
  refine ⟨?_, ?_, ?_, ?_, ?_, ?_, ?_⟩ <;> decide +kernel

def nexts (o : Host.Outcome State Fault Refusal) : Bool := match o with | .next _ => true | _ => false
/-- DecodeAndEncodeAgree, MemoryKept: a well-formed instruction of each slot with its word; the canonical reset memory. -/
theorem witness_encodings : encodeCtl (.lsetImm 2 99) = some 0x18E980 ∧ encodeXY (.mulh .x .s32 9 2 3) = some (.x, 0x111892140) ∧
    encodeA (.aidx 1 2 3 3) = some 0x0031882100 ∧ encodeV (.vscan .add false true .s32 .rn false 20 21 22) = some 0x2022160A8506C0 ∧
    encodeLS (.drain .nm) = some 0x000000010340 ∧ encodeCC (.cmma 2 4 5 6 0xFF 3) = some 0x0DFE62290040 ∧ State.reset.memWf ∧
    (Instr.lsetImm 2 99).unit = some .ctl ∧ (Instr.mulh .x .s32 9 2 3).unit = some .xy ∧ (Instr.aidx 1 2 3 3).unit = some .a ∧
    (Instr.vmov 1 2).unit = some .v ∧ (Instr.drain .nm).unit = some .ls ∧ Instr.rfe.unit = some .cc ∧
    (State.reset.withFetchWord 384 0).memWf ∧ nexts (step (State.reset.withFetchWord 384 0)) = true := by
  decide +kernel

end Sys2Proof.Tests
end

section
/-! SUPPORT. One step of the machine: what the landing of results leaves as it is, the turn of a core as the issue of the
bundle at its PC, and the literal bundle that `withFetchWord` places. -/

namespace Sys2Proof.Machine

/-! Global memory: a read of what an engine or the hub has written (R4, R84). -/

theorem length_leBytes : ∀ n v : Nat, (leBytes n v).length = n
  | 0, _ => rfl
  | n + 1, v => by rw [leBytes, List.length_cons, length_leBytes n]

/-- The value of the n low bytes is the number modulo 2^(8n). -/
theorem leVal_leBytes : ∀ n v : Nat, leVal (leBytes n v) = v % 2 ^ (8 * n)
  | 0, v => by simp [leBytes, leVal, Nat.mod_one]
  | n + 1, v => by
    have hsplit : v % 2 ^ (8 + 8 * n) = v % 2 ^ 8 + 2 ^ 8 * (v / 2 ^ 8 % 2 ^ (8 * n)) := by rw [Nat.pow_add, Nat.mod_mul]
    rw [leBytes, leVal, leVal_leBytes n, Nat.shiftRight_eq_div_pow, Nat.shiftLeft_eq, BitVec.toNat_ofNat,
      show 8 * (n + 1) = 8 + 8 * n by omega, hsplit, Nat.mul_comm]

/-- A byte that an accepted and performed write covers shows that write, whatever older writes stand in the merge buffers. -/
theorem mergedByte_gWrite_covered (s : State) (a i : Nat) (l : List Byte) (hi : i < l.length) :
    mergedByte (gWrite s a l) (a + i) = l[i] := by
  unfold mergedByte
  split
  next w hfind =>
    have hcov := List.find?_some hfind
    obtain ⟨w', -, rfl⟩ := List.mem_map.mp (List.mem_reverse.mp (List.mem_of_find?_eq_some hfind))
    simp only [MergeW.covers, List.length_map, List.length_range, Bool.and_eq_true, decide_eq_true_eq] at hcov
    obtain ⟨hlo, hhi⟩ := hcov
    have hpos : a + i - w'.pa < w'.bytes.length := by omega
    have hat : w'.pa + (a + i - w'.pa) = a + i := by omega
    simp [List.getD_eq_getElem?_getD, hpos, hat, hi]
  next =>
    rw [gWrite, memByte_memSetList, if_pos (by omega)]
    simp [hi]

theorem gRead_gWrite (s : State) (a : Nat) (l : List Byte) : gRead (gWrite s a l) a l.length = leVal l := by
  have hbytes : mergedBytes (gWrite s a l) a l.length = l := by
    refine List.ext_getElem (by simp [mergedBytes]) fun i _ hi => ?_
    simp [mergedBytes, mergedByte_gWrite_covered s a i l hi]
  rw [gRead, mergedVal, hbytes]

theorem gRead_gWriteVal (s : State) (a n v : Nat) : gRead (gWriteVal s a n v) a n = v % 2 ^ (8 * n) := by
  have h := gRead_gWrite s a (leBytes n v)
  rwa [length_leBytes, leVal_leBytes] at h

theorem gRead_setPoison (s : State) (a b n : Nat) (p : Bool) : gRead (setPoison s a p) b n = gRead s b n := rfl

theorem mod_one_shiftLeft {n k : Nat} (h : n < 2 ^ k) : n % 1 <<< k = n := by rw [shiftLeft_one, Nat.mod_eq_of_lt h]
theorem toNat_mod_one_shiftLeft {k : Nat} (w : BitVec k) : w.toNat % 1 <<< k = w.toNat := mod_one_shiftLeft w.isLt

/-! The packet of a placed literal bundle (R107, R108). -/

section
variable {w : Nat} (hw : w < 2 ^ 384)
include hw

theorem placePacket_eq : placePacket w = 4 + 0xFFFE <<< 32 + w <<< 48 + ((1 <<< 80) - 1) <<< 432 := by
  rw [placePacket, mod_one_shiftLeft hw]

theorem placePacket_lt : placePacket w < 2 ^ 512 := by
  rw [placePacket_eq hw]; omega

/-- The header marks one start, at halfword 2 (R107). -/
theorem startBit_placePacket (i : Nat) (hi : i < 32) : startBit (placePacket w) i = decide (i = 2) := by
  have hhdr : placePacket w % 2 ^ 32 = 4 := by rw [placePacket_eq hw]; omega
  have hbit : (placePacket w).testBit i = Nat.testBit 4 i := by
    rw [← hhdr, Nat.testBit_mod_two_pow]; simp [hi]
  have hfour : ∀ i < 32, (decide (2 ≤ i) && Nat.testBit 4 i) = decide (i = 2) := by decide
  rw [startBit, hbit, hfour i hi]

/-- Halfword 2 is the escape (R108). -/
theorem halfword_placePacket_escape : halfword (placePacket w) 2 = 0xFFFE := by
  simp only [halfword, bits, shiftLeft_one, Nat.shiftRight_eq_div_pow, placePacket_eq hw]
  omega

/-- The 24 halfwords after the escape are the bundle's bits (R108). -/
theorem bits_placePacket_bundle : bits (placePacket w) 48 384 = w := by
  simp only [bits, shiftLeft_one, Nat.shiftRight_eq_div_pow, placePacket_eq hw]
  omega

/-- The halfwords after the bundle are padding (R109). -/
theorem halfword_placePacket_padding (i : Nat) (hi : i < 5) : halfword (placePacket w) (27 + i) = 0xFFFF := by
  have htop : placePacket w / 2 ^ 432 = 2 ^ 80 - 1 := by rw [placePacket_eq hw]; omega
  have hpad : halfword (placePacket w) (27 + i) = halfword (2 ^ 80 - 1) i := by
    rw [halfword, halfword, bits, bits, ← htop, Nat.shiftRight_eq_div_pow, Nat.shiftRight_eq_div_pow, Nat.div_div_eq_div_mul,
      ← Nat.pow_add, show 16 * (27 + i) = 432 + 16 * i by omega]
  have hones : ∀ i < 5, halfword (2 ^ 80 - 1) i = 0xFFFF := by decide
  rw [hpad, hones i hi]

/-- After the placed bundle the sequence goes on in the next packet (R109). -/
theorem nextInSeq_placePacket : nextInSeq (placePacket w) (w64 (placeVa + 4)) 2 25 = w64 (placeVa + 68) := by
  have hpad : ((List.range (32 - (2 + 25))).all fun i =>
      halfword (placePacket w) (2 + 25 + i) = 0xFFFF && !startBit (placePacket w) (2 + 25 + i)) = true := by
    refine List.all_eq_true.mpr fun i hi => ?_
    have hi : i < 5 := List.mem_range.mp hi
    have hne : ¬ 27 + i = 2 := by omega
    simp [halfword_placePacket_padding hw i hi, startBit_placePacket hw (27 + i) (by omega), hne]
  have hstart : startBit (placePacket w) (2 + 25) = false := startBit_placePacket hw 27 (by decide)
  rw [nextInSeq, if_neg (by decide), hstart, if_neg (by decide), if_pos hpad]
  decide

/-- No halfword of the placed bundle starts another (R109). -/
theorem no_start_in_placePacket : ((List.range 24).any fun i => startBit (placePacket w) (2 + 1 + i)) = false := by
  refine List.any_eq_false.mpr fun i hi => ?_
  have hi : i < 24 := List.mem_range.mp hi
  have hne : ¬ 2 + 1 + i = 2 := by omega
  simp [startBit_placePacket hw (2 + 1 + i) (by omega), hne]

end

/-! The stages of `placeBundle` (log entry 6), and the fetch of a placed bundle (R107 to R110, R358). -/

/-- The translation that `withFetchWord` puts into the TLB: the page of `placeVa`, under every permission (R357). -/
def placeEnt (u : State) : TlbEnt := ⟨u.cf.part, u.cf.asid, placeVa >>> 16, 16, u.pkg <<< 42 + placeVa, true, true, true⟩

/-- The last stage of `placeBundle`: the TLB entry, the packet, its line without poison. -/
def withPacket (u : State) (w : Nat) : State :=
  let pa := u.pkg <<< 42 + placeVa
  setPoison (gWriteVal (u.modCube u.cur fun q => tlbFill q .fetch (placeEnt u)) pa 64 (placePacket w)) pa false

/-- The first stage: power, the placed partition where none stands, a core that no trip and no gate holds. -/
def withGround (s : State) : State :=
  { s with
    agenda := .core s.cur :: s.agenda
    teasel := { s.teasel with power := true }
    hub := if s.hub.parts = [] then { s.hub with parts := [placePart] } else s.hub }.modCube s.cur fun q =>
      { q with camp := { q.camp with trip := none }, fab := { q.fab with coreOff := false } }

/-- The second: a task that may issue, where the running frame's may not. -/
def withIssuer (s : State) : State :=
  if mayIssue s s.cur s.curF then s
  else s.modCf fun r => { r with task := some placeTask, issue := { Issue.zero with nb := r.issue.nb, nid := r.issue.nid } }

/-- The third: the PC at the place. -/
def withPlacePc (s : State) : State := s.modCf fun r => { r with issue := { r.issue with pc := w64 (placeVa + 4), seq := false } }

theorem withIssuer_cur (s : State) : (withIssuer s).cur = s.cur := by unfold withIssuer; split <;> rfl
theorem withIssuer_hub (s : State) : (withIssuer s).hub = s.hub := by unfold withIssuer; split <;> rfl
theorem withIssuer_pkg (s : State) : (withIssuer s).pkg = s.pkg := by unfold withIssuer; split <;> rfl

theorem placeBundle_eq_stages (s : State) (w : Nat) :
    placeBundle s w = withPacket (withPlacePc (withIssuer (withGround s))) w := by
  have hcur : (withPlacePc (withIssuer (withGround s))).cur = s.cur := withIssuer_cur (withGround s)
  rw [withPacket, hcur]
  rfl

theorem State.cf_modCf (s : State) (g : Frame → Frame) : (s.modCf g).cf = g s.cf := by
  simp [State.cf, State.modCf]

theorem withGround_cube (s : State) : (withGround s).cube s.cur =
    { s.cube s.cur with camp := { (s.cube s.cur).camp with trip := none }, fab := { (s.cube s.cur).fab with coreOff := false } } := by
  rw [withGround, State.cube_modCube, if_pos rfl]
  rfl
theorem withGround_cf (s : State) : (withGround s).cf = s.cf := by
  change ((withGround s).cube s.cur).frame ((withGround s).cube s.cur).running = _
  rw [withGround_cube]
  rfl

/-- The frame keeps its partition, or holds the placed task of partition 0. -/
theorem withIssuer_part {s : State} (h : s.cf.part = 0) : (withIssuer s).cf.part = 0 := by
  unfold withIssuer
  split
  · exact h
  · rw [State.cf_modCf]; rfl

theorem withPlacePc_part (s : State) : (withPlacePc s).cf.part = s.cf.part := by rw [withPlacePc, State.cf_modCf]; rfl

/-- A machine that a packet may be placed in: one partition of the whole package, and the running frame stands at the
place of the bundle. -/
structure AtPlace (u : State) : Prop where
  parts : u.hub.parts = [placePart]
  part : u.cf.part = 0
  pc : u.cf.issue.pc = w64 (placeVa + 4)
  pkg : u.pkg < 1024

theorem atPlace_of_unpartitioned {s : State} (hparts : s.hub.parts = []) (hpart : s.cf.part = 0) (hpkg : s.pkg < 1024) :
    AtPlace (withPlacePc (withIssuer (withGround s))) where
  parts := by simp [withPlacePc, withIssuer_hub, withGround, hparts]
  part := by
    rw [withPlacePc_part]
    exact withIssuer_part ((congrArg Frame.part (withGround_cf s)).trans hpart)
  pc := by rw [withPlacePc, State.cf_modCf]
  pkg := by simpa [withPlacePc, withIssuer_pkg, withGround] using hpkg

theorem gWriteVal_cube (s : State) (a n v : Nat) (c : CubeId) : (gWriteVal s a n v).cube c = s.cube c := rfl
theorem gWriteVal_cur (s : State) (a n v : Nat) : (gWriteVal s a n v).cur = s.cur := rfl
theorem gWriteVal_pkg (s : State) (a n v : Nat) : (gWriteVal s a n v).pkg = s.pkg := rfl
theorem gWriteVal_hub (s : State) (a n v : Nat) : (gWriteVal s a n v).hub = s.hub := rfl
theorem setPoison_cube (s : State) (a : Nat) (b : Bool) (c : CubeId) : (setPoison s a b).cube c = s.cube c := rfl
theorem setPoison_cur (s : State) (a : Nat) (b : Bool) : (setPoison s a b).cur = s.cur := rfl
theorem setPoison_pkg (s : State) (a : Nat) (b : Bool) : (setPoison s a b).pkg = s.pkg := rfl
theorem setPoison_hub (s : State) (a : Nat) (b : Bool) : (setPoison s a b).hub = s.hub := rfl

/-- A packet that translates, and whose package lets it be read, is fetched as its 64 bytes (R107, R357, R361). -/
theorem fetchPacket_of_translated {s : State} {c : CubeId} {f : FrameId} {va line a : Nat} (hwin : ¬ bits va 48 8 = 0xFF)
    (hline : va / 64 * 64 = line) (htrans : translateF s c f { x := true } line .fetch = .ok a)
    (hcheck : accessCheck s (s.frame c f).part a false = none) : fetchPacket s c f va = .ok (gRead s a 64) := by
  rw [fetchPacket, if_neg hwin, hline, htrans]
  dsimp only
  rw [hcheck]

section
variable {u : State}

@[simp] theorem withPacket_cur (w : Nat) : (withPacket u w).cur = u.cur := by
  rw [withPacket, setPoison_cur, gWriteVal_cur, State.modCube_cur]
@[simp] theorem withPacket_pkg (w : Nat) : (withPacket u w).pkg = u.pkg := by
  rw [withPacket, setPoison_pkg, gWriteVal_pkg, State.modCube_pkg]
@[simp] theorem withPacket_hub (w : Nat) : (withPacket u w).hub = u.hub := by
  rw [withPacket, setPoison_hub, gWriteVal_hub, State.modCube_hub]
theorem withPacket_cube (w : Nat) : (withPacket u w).cube u.cur = tlbFill (u.cube u.cur) .fetch (placeEnt u) := by
  rw [withPacket, setPoison_cube, gWriteVal_cube, State.cube_modCube, if_pos rfl]
@[simp] theorem withPacket_curF (w : Nat) : (withPacket u w).curF = u.curF := by
  rw [State.curF, withPacket_cur, withPacket_cube]; rfl
theorem withPacket_frame (w : Nat) : (withPacket u w).frame u.cur u.curF = u.cf := by
  rw [State.frame, withPacket_cube]; rfl

theorem gRead_withPacket {w : Nat} (hw : w < 2 ^ 384) : gRead (withPacket u w) (u.pkg <<< 42 + placeVa) 64 = placePacket w := by
  rw [withPacket, gRead_setPoison, gRead_gWriteVal, Nat.mod_eq_of_lt (placePacket_lt hw)]

/-- The first level of the fetch TLB answers with the entry just filled (R358). -/
theorem lookup_withPacket (w : Nat) :
    lookup (withPacket u w) u.cur u.cf.part u.cf.asid placeVa .fetch = .ok (placeEnt u) := by
  have hhit : (placeEnt u).hits u.cf.part u.cf.asid placeVa = true := by simp [placeEnt, TlbEnt.hits]
  simp [lookup, withPacket_cube, tlbFill, tlbPut, tlbSize, Tlb.first, Tlb.setFirst, hhit]

theorem paLocal_place : paLocal (u.pkg <<< 42 + placeVa) = placeVa := by
  simp only [paLocal, bits, Nat.shiftRight_eq_div_pow, Nat.shiftLeft_eq, placeVa]
  omega

variable (hu : AtPlace u)
include hu

theorem paPkg_place : paPkg (u.pkg <<< 42 + placeVa) = u.pkg := by
  have h := hu.pkg
  simp only [paPkg, bits, Nat.shiftRight_eq_div_pow, Nat.shiftLeft_eq, placeVa]
  omega

/-- The place translates to its bytes under X permission (R357). -/
theorem translateF_withPacket (w : Nat) :
    translateF (withPacket u w) u.cur u.curF { x := true } placeVa .fetch = .ok (u.pkg <<< 42 + placeVa) := by
  have hin : inPart placePart placeVa = true := by decide
  have haddr : (placeEnt u).addr placeVa = u.pkg <<< 42 + placeVa := by
    have hoff : placeVa % 1 <<< 16 = 0 := by decide
    simp only [TlbEnt.addr, placeEnt, hoff, Nat.add_zero]
  have hallow : (placeEnt u).allows { x := true } = true := rfl
  have hpart : partOf (withPacket u w) u.cf.part = some placePart := by simp [partOf, hu.parts, hu.part]
  rw [translateF, withPacket_frame, translate, lookup_withPacket]
  simp only [hallow, haddr, hpart, paPkg_place hu, withPacket_pkg, paLocal_place, hin, Bool.not_true, Bool.false_eq_true,
    if_false, if_true]

theorem accessCheck_place (w p : Nat) : accessCheck (withPacket u w) p (u.pkg <<< 42 + placeVa) false = none := by
  rw [accessCheck, paPkg_place hu, withPacket_pkg, if_pos rfl]

theorem fetchPacket_withPacket {w : Nat} (hw : w < 2 ^ 384) :
    fetchPacket (withPacket u w) u.cur u.curF (placeVa + 4) = .ok (placePacket w) := by
  have hwin : ¬ bits (placeVa + 4) 48 8 = 0xFF := by decide
  have hline : (placeVa + 4) / 64 * 64 = placeVa := by decide
  rw [fetchPacket_of_translated hwin hline (translateF_withPacket hu w) (accessCheck_place hu w _), gRead_withPacket hw]

/-- The fetch at the place finds the literal bundle (R107 to R109). -/
theorem fetchAt_withPacket {w : Nat} (hw : w < 2 ^ 384) :
    fetchAt (withPacket u w) u.cur u.curF = .ok ⟨true, Bundle.ofBits (BitVec.ofNat 384 w), w64 (placeVa + 68)⟩ := by
  have hpc : (w64 (placeVa + 4)).toNat = placeVa + 4 := by decide
  have hhalf : (placeVa + 4) % 64 / 2 = 2 := by decide
  have hodd : ¬ (placeVa + 4) % 2 = 1 := by decide
  have htop : bits (placeVa + 4) 56 8 = 0 := by decide
  have hesc : codeWord (BitVec.ofNat 16 0xFFFE) = .escape := by decide
  have hstart : startBit (placePacket w) 2 = true := startBit_placePacket hw 2 (by decide)
  have hfour : placePacket w % 4 = 0 := by rw [placePacket_eq hw]; omega
  have hnone := no_start_in_placePacket hw
  have hbits := bits_placePacket_bundle hw
  rw [fetchAt, withPacket_frame, hu.pc, hpc]
  simp only [hodd, hhalf, htop, fetchPacket_withPacket hu hw, hstart, halfword_placePacket_escape hw, hesc, hfour, hnone, hbits,
    nextInSeq_placePacket hw]
  rfl

end

/-- What `withFetchWord` places is what the next fetch of the current cube finds (R107, R108, R112). -/
theorem fetchAt_withFetchWord (s : State) (w : BitVec 384) (hparts : s.hub.parts = []) (hpart : s.cf.part = 0)
    (hpkg : s.pkg < 1024) :
    let p := s.withFetchWord 384 w.toNat
    fetchAt p p.cur p.curF = .ok ⟨true, Bundle.ofBits w, w64 (placeVa + 68)⟩ := by
  have hplace : s.withFetchWord 384 w.toNat = withPacket (withPlacePc (withIssuer (withGround s))) w.toNat :=
    (congrArg (placeBundle s) (toNat_mod_one_shiftLeft w)).trans (placeBundle_eq_stages s w.toNat)
  have hat := atPlace_of_unpartitioned hparts hpart hpkg
  have hlt : w.toNat < 2 ^ 384 := by omega
  have hbits : BitVec.ofNat 384 w.toNat = w := by rw [BitVec.ofNat_toNat, BitVec.setWidth_eq]
  dsimp only
  rw [hplace, withPacket_cur, withPacket_curF, fetchAt_withPacket hat hlt, hbits]

/-! Landing at a bundle boundary (R121, R122, R123). -/

section
variable {α : Type} (g : State → α) (c : CubeId) (f : FrameId)

/-- What no landing of one result changes, the landing of a list does not. -/
theorem foldl_landIn_keeps (hin : ∀ s l, g (landIn c f s l) = g s) :
    ∀ (l : List Landing) (s : State), g (l.foldl (landIn c f) s) = g s
  | [], _ => rfl
  | x :: l, s => (foldl_landIn_keeps hin l _).trans (hin s x)

/-- What no write of the frame and no count of codes `10` changes, landing does not change. -/
theorem landDue_keeps (hframe : ∀ s r, g (s.setFrame c f r) = g s)
    (hcube : ∀ s n, g (s.modCube c fun q => addFmtErr q n) = g s) (s : State) : g (landDue s c f) = g s := by
  have hin : ∀ s l, g (landIn c f s l) = g s := by
    intro s l
    unfold landIn
    split
    · exact hframe s _
    · exact (hcube _ _).trans (hframe s _)
  exact (foldl_landIn_keeps g c f hin _ _).trans (hframe s _)

end

@[simp] theorem State.setFrame_curF (s : State) (c : CubeId) (f : FrameId) (r : Frame) : (s.setFrame c f r).curF = s.curF :=
  State.modFrame_curF s c f fun _ => r
theorem State.curF_addFmtErr (s : State) (c : CubeId) (n : Nat) : (s.modCube c fun q => addFmtErr q n).curF = s.curF := by
  simp only [State.curF, State.modCube_cur, State.cube_modCube]
  split
  next h => rw [h]; rfl
  next => rfl

@[simp] theorem landDue_cur (s : State) (c : CubeId) (f : FrameId) : (landDue s c f).cur = s.cur :=
  landDue_keeps State.cur c f (fun _ _ => rfl) (fun _ _ => rfl) s
@[simp] theorem landDue_teasel (s : State) (c : CubeId) (f : FrameId) : (landDue s c f).teasel = s.teasel :=
  landDue_keeps State.teasel c f (fun _ _ => rfl) (fun _ _ => rfl) s
@[simp] theorem landDue_curF (s : State) (c : CubeId) (f : FrameId) : (landDue s c f).curF = s.curF :=
  landDue_keeps State.curF c f (fun s r => s.setFrame_curF c f r) (fun s n => s.curF_addFmtErr c n) s

/-- What is in flight towards a landing and the count of bundles, which say what is due (R121). -/
def Frame.pendingLand (r : Frame) : List Landing × Nat := (r.fl.land, r.issue.nb)

theorem landOne_pendingLand (r : Frame) (l : Landing) : (landOne r l).pendingLand = r.pendingLand := by
  unfold landOne
  dsimp only
  split <;> rfl

theorem landIn_pendingLand (c : CubeId) (f : FrameId) (s : State) (l : Landing) :
    ((landIn c f s l).frame c f).pendingLand = (s.frame c f).pendingLand := by
  unfold landIn
  split
  · rw [State.frame_modFrame_same]; rfl
  · have hcount : ∀ (t : State) (n : Nat), (t.modCube c fun q => addFmtErr q n).frame c f = t.frame c f := fun t n => by
      rw [State.frame, State.cube_modCube, if_pos rfl]; rfl
    rw [hcount, State.frame_modFrame_same, landOne_pendingLand]

/-- After landing nothing is left that is due at the bundle at the PC (R121, R123). -/
theorem landDue_pendingLand (s : State) (c : CubeId) (f : FrameId) :
    ((landDue s c f).frame c f).pendingLand =
      ((s.frame c f).fl.land.filter fun l => !decide (l.due ≤ (s.frame c f).issue.nb), (s.frame c f).issue.nb) := by
  refine (foldl_landIn_keeps (fun t => (t.frame c f).pendingLand) c f (landIn_pendingLand c f) _ _).trans ?_
  rw [State.frame_setFrame_same]
  rfl

/-- Where nothing is due, landing leaves the machine. -/
theorem landDue_of_none_due {s : State} {c : CubeId} {f : FrameId}
    (h : ∀ l ∈ (s.frame c f).fl.land, ¬ l.due ≤ (s.frame c f).issue.nb) : landDue s c f = s := by
  have hnow : ((s.frame c f).fl.land.filter fun l => decide (l.due ≤ (s.frame c f).issue.nb)) = [] :=
    List.filter_eq_nil_iff.mpr fun l hl => by simpa using h l hl
  have hrest : ((s.frame c f).fl.land.filter fun l => !decide (l.due ≤ (s.frame c f).issue.nb)) = (s.frame c f).fl.land :=
    List.filter_eq_self.mpr fun l hl => by simpa using h l hl
  rw [landDue, hnow, hrest]
  exact setFrame_self s c f

/-- Landing twice at one boundary lands once. -/
theorem landDue_landDue (s : State) (c : CubeId) (f : FrameId) : landDue (landDue s c f) c f = landDue s c f := by
  obtain ⟨hland, hnb⟩ := Prod.mk.inj (landDue_pendingLand s c f)
  refine landDue_of_none_due fun l hl => ?_
  rw [hland] at hl
  rw [hnb]
  simpa using (List.mem_filter.mp hl).2

/-! A time slice that runs out (R28). -/

theorem sliceExpiryRun_cur (s : State) (c : CubeId) : (sliceExpiryRun s c).cur = s.cur := by
  unfold sliceExpiryRun; dsimp only; split <;> rfl
theorem sliceExpiryRun_teasel (s : State) (c : CubeId) : (sliceExpiryRun s c).teasel = s.teasel := by
  unfold sliceExpiryRun; dsimp only; split <;> rfl
theorem sliceExpiryRun_curF (s : State) (c : CubeId) : (sliceExpiryRun s c).curF = s.curF := by
  unfold sliceExpiryRun
  dsimp only
  split
  · exact s.setFrame_curF c _ _
  · rfl

/-! A turn of a core (R5, R118). -/

/-- The machine at the boundary of the bundle at the PC of a core: a slice that has run out is noted, and what has arrived
has landed (R28, R121, R122). -/
def landedAt (u : State) (c : CubeId) : State :=
  landDue ((sliceExpiryRun u c).modFrame c u.curF landArrived) c u.curF

@[simp] theorem landedAt_cur (u : State) (c : CubeId) : (landedAt u c).cur = u.cur := by
  rw [landedAt, landDue_cur, State.modFrame_cur, sliceExpiryRun_cur]
@[simp] theorem landedAt_teasel (u : State) (c : CubeId) : (landedAt u c).teasel = u.teasel := by
  rw [landedAt, landDue_teasel, State.modFrame_teasel, sliceExpiryRun_teasel]
@[simp] theorem landedAt_curF (u : State) (c : CubeId) : (landedAt u c).curF = u.curF := by
  rw [landedAt, landDue_curF, State.modFrame_curF, sliceExpiryRun_curF]
theorem landDue_landedAt (u : State) (c : CubeId) : landDue (landedAt u c) c u.curF = landedAt u c := landDue_landDue _ c _

/-- A frame that may issue stands on its core, has not executed `halt`, and its core's clock runs. -/
theorem mayIssue_parts {s : State} {c : CubeId} {f : FrameId} (h : mayIssue s c f = true) :
    offCore s (s.frame c f) = false ∧ (s.frame c f).issue.halted = false ∧ (s.cube c).camp.trip.isSome = false ∧
      (s.cube c).fab.coreOff = false := by
  simp only [mayIssue, Bool.and_eq_true, Bool.not_eq_true', Option.isNone_iff_eq_none] at h
  obtain ⟨⟨⟨⟨⟨⟨⟨htask, hhalt⟩, hstop⟩, hswap⟩, hgang⟩, htrip⟩, hclock⟩, -⟩ := h
  have htask' : (s.frame c f).task.isNone = false := by rw [← Option.not_isSome, htask]; rfl
  simp [offCore, htask', hhalt, hstop, hswap, hgang, htrip, hclock]

/-- The turn of a core that may issue is the issue of what stands at its PC. -/
theorem coreTurn_of_mayIssue {u w : State} {c : CubeId} (hw : w = { u with cur := c }) (hmay : mayIssue w c w.curF = true) :
    coreTurn u c = issueTurn (landedAt w c) c w.curF := by
  have hcf : w.cf = w.frame c w.curF := by rw [hw]; rfl
  obtain ⟨hon, hhalt, htrip, hclock⟩ := mayIssue_parts hmay
  rw [coreTurn, ← hw]
  simp only [hcf, htrip, hclock, hon, hhalt, hmay, Bool.or_self, Bool.false_eq_true, if_false, if_true]
  rfl

/-- BUNDLE_ISSUE of the bundle fetched at the PC, where what is due has landed, is its attempt (R118, R138). -/
theorem exec_bundleIssue_fetched {v : State} {x : Fetched} {b : BundleIn} (hpow : v.teasel.power = true)
    (hmay : mayIssue v v.cur v.curF = true) (hland : landDue v v.cur v.curF = v) (hfetch : fetchAt v v.cur v.curF = .ok x)
    (hb : bundleIn v.cf.issue.pc x.b x.next = .ok b) :
    exec (.bundleIssue x.lit x.b) v = .next (attempt v v.cur v.curF b slotMeaning (ready slotMeaning)) := by
  have hb : bundleIn (v.frame v.cur v.curF).issue.pc x.b x.next = .ok b := hb
  have hnext : nextOf v v.cur v.curF x.lit = x.next := by rw [nextOf, hfetch]
  have htry : tryBundle v v.cur v.curF x.b x.next = attempt v v.cur v.curF b slotMeaning (ready slotMeaning) := by
    rw [tryBundle, hland, hb]
  rw [show exec (.bundleIssue x.lit x.b) v = execBundleIssue x.lit x.b v from rfl, execBundleIssue, if_pos hmay, hnext, htry,
    powered, if_pos hpow]

/-- What a core does with the bundle at its PC: nothing where it stands, else its attempt. -/
theorem issueTurn_of_fetched {v : State} {c : CubeId} {f : FrameId} {x : Fetched} {b : BundleIn}
    (hfetch : fetchAt v c f = .ok x) (hb : bundleIn (v.frame c f).issue.pc x.b x.next = .ok b) :
    issueTurn v c f = if standing v c f b then none else some (attempt v c f b slotMeaning (ready slotMeaning)) := by
  rw [issueTurn, hfetch]
  dsimp only
  rw [hb]

/-- A step for an event of the agenda is that event. -/
theorem step_event {s : State} {rest : List Choice} {i : Instr} (h : s.agenda = .event i :: rest) :
    step s = exec i (syncAll { s with agenda := rest }) := by
  rw [step, h]
  rfl

section
variable {s u : State} {rest : List Choice} {c : CubeId} (h : s.agenda = .core c :: rest)
  (hu : u = syncAll { s with agenda := rest }) (hpow : u.teasel.power = true)
include h hu hpow

/-- A step for a core of the agenda is its turn. -/
theorem step_core : step s = .next ((coreTurn u c).getD u) := by
  rw [step, h]
  dsimp only
  rw [← hu, choose, powered, if_pos hpow]

/-- A step for a core that may issue a bundle it has fetched: the issue of that bundle, or nothing where it stands. -/
theorem step_core_of_mayIssue {w v : State} {x : Fetched} {b : BundleIn} (hw : w = { u with cur := c }) (hv : v = landedAt w c)
    (hmayw : mayIssue w c w.curF = true) (hmayv : mayIssue v c v.curF = true) (hfetch : fetchAt v c v.curF = .ok x)
    (hb : bundleIn v.cf.issue.pc x.b x.next = .ok b) :
    step s = if standing v c v.curF b then .next u else exec (.bundleIssue x.lit x.b) v := by
  have hcur : v.cur = c := by rw [hv, landedAt_cur, hw]
  have hF : v.curF = w.curF := by rw [hv, landedAt_curF]
  have hpowv : v.teasel.power = true := by rw [hv, landedAt_teasel, hw]; exact hpow
  have hland : landDue v c v.curF = v := by rw [hF, hv, landDue_landedAt]
  subst hcur
  have hturn : coreTurn u v.cur =
      if standing v v.cur v.curF b then none else some (attempt v v.cur v.curF b slotMeaning (ready slotMeaning)) := by
    rw [coreTurn_of_mayIssue hw hmayw, ← hv, ← hF, issueTurn_of_fetched hfetch hb]
  rw [step_core h hu hpow, hturn, exec_bundleIssue_fetched hpowv hmayv hland hfetch hb]
  split <;> rfl

end

end Sys2Proof.Machine

open Sys2Proof Sys2Proof.Machine

/-- Settles O38: a core's turn, its bundle fetched and not standing, is BUNDLE_ISSUE at the boundary where what is due has
landed, and the packet that `withFetchWord` writes is the one that the next fetch reads. -/
theorem stepRunsTheDecodedBundle : Obligations.StepRunsTheDecodedBundle := by
  unfold Obligations.StepRunsTheDecodedBundle
  intro s rest u
  refine ⟨fun i h => step_event h, ?_, fun w _ hparts hpart hpkg => fetchAt_withFetchWord s w hparts hpart hpkg⟩
  intro c x b h hpow w v hmayw hmayv hfetch hb
  have hu : u = syncAll { s with agenda := rest } := rfl
  have hw : w = { u with cur := c } := rfl
  have hv : v = landedAt w c := rfl
  clear_value v w u
  have hstep := step_core_of_mayIssue h hu hpow hw hv hmayw hmayv hfetch hb
  rw [← hu]
  exact ⟨fun hstand => hstep.trans (if_neg (Bool.eq_false_iff.mp hstand)), fun hstand => hstep.trans (if_pos hstand)⟩
end

section
/-! SUPPORT. What reset leaves, cube by cube and queue by queue. -/

namespace Sys2Proof.Machine

/-! Reset (R10, R315, R333, R377). -/

/-- Every cube stands at reset as one before its self-test. -/
@[simp] theorem State.cube_reset (c : CubeId) : State.reset.cube c = Cube.zero := by
  simp [State.cube, State.reset]

@[simp] theorem State.queue_reset (q : Fin 64) : State.reset.hub.queues[q] = Queue.zero := by
  simp [State.reset, Hub.zero]

theorem memWf_reset : State.reset.memWf := ⟨rfl, rfl⟩

end Sys2Proof.Machine

open Sys2Proof Sys2Proof.Machine

/-- Settles O59: a cube at reset is `Cube.zero` and a launch queue `Queue.zero`, whose fields hold the values stated. -/
theorem resetLeaves : Obligations.ResetLeaves := by
  unfold Obligations.ResetLeaves
  refine ⟨memWf_reset, rfl, rfl, fun c => ?_, fun q => ?_⟩
  · rw [State.cube_reset]
    exact ⟨rfl, rfl, rfl, rfl, rfl, rfl, rfl, rfl, rfl, rfl, rfl, rfl, rfl, rfl⟩
  · rw [State.queue_reset]
    exact ⟨rfl, rfl, rfl⟩
end

section
/-! SUPPORT. Events at a drain point and at a last arrival: storage withdrawn, a failed gang's members stopped, a barrier phase
ended. -/

namespace Sys2Proof.Machine

theorem powered_of_power {s : State} (h : s.teasel.power = true) (t : State) : powered s t = .next t := if_pos h

/-! Records and gangs by name. -/

theorem findRec_of_single {s : State} {k : Rec} (h : s.hub.recs = [k]) : findRec s k.part k.id = some k := by
  simp [findRec, h]
theorem Rec.gang_of_single {k : Rec} {g : Gang} (h : k.gangs = [g]) : k.gang g.idx = some g := by
  simp [Rec.gang, h]

/-- A frame of a gang holds a member of it. -/
theorem member_of_mem_gangFrames {s : State} {part id i : Nat} {c : CubeId} {f : FrameId} (h : (c, f) ∈ gangFrames s part id i) :
    ∃ t, (s.frame c f).task = some t ∧ t.part = part ∧ t.launch = id ∧ t.gang = i := by
  have hm := (List.mem_filter.mp h).2
  dsimp only at hm
  split at hm
  next t ht =>
    simp only [Bool.and_eq_true, decide_eq_true_eq] at hm
    obtain ⟨⟨hp, hl⟩, hg⟩ := hm
    exact ⟨t, ht, hp, hl, hg⟩
  next => exact absurd hm (by simp)

/-! Storage withdrawn at a drain point (R36, R74). -/

theorem settleWithdrawn_frame (q : Cube) (f : FrameId) : (settleWithdrawn q).frame f = q.frame f := rfl

/-- What a task's buffer is once the banks and layers under it have gone (R74). -/
def loseBuf (t : Task) (gone : BitVec 8) (banks : List Nat) (b : Buf) : Buf :=
  if bufGone t gone banks b then { b with st := .lost, fill := 0, rd := 0 } else b

theorem loseBufs_buf (t : Task) (gone : BitVec 8) (banks : List Nat) (r : Frame) (i : Nat) :
    (loseBufs t gone banks r).buf i = (r.buf i).map (loseBuf t gone banks) := by
  simp only [Frame.buf, loseBufs, Vector.toList_map, List.getD_eq_getElem?_getD, List.getElem?_map]
  cases r.bufs.toList[i]? <;> rfl

/-- A withdrawal leaves the frame without the failing layers and without what stood over them. -/
theorem withdraw_frame {s : State} {c : CubeId} {f : FrameId} {t : Task} (ht : (s.frame c f).task = some t) :
    (withdraw s c f).frame c f = loseBufs t ((s.frame c f).ctl.layers &&& (s.cube c).fab.failing) (s.cube c).fab.banks
      { s.frame c f with
        ctl := { (s.frame c f).ctl with layers := (s.frame c f).ctl.layers &&& ~~~(s.cube c).fab.failing }
        banks := (s.cube c).fab.banks } := by
  unfold withdraw
  simp only [ht]
  rw [State.frame, State.cube_modCube, if_pos rfl, settleWithdrawn_frame]
  exact State.frame_setFrame_same s c f _

theorem withdraw_mem (s : State) (c : CubeId) (f : FrameId) : (withdraw s c f).mem = s.mem := by
  unfold withdraw; dsimp only; split <;> rfl

theorem exec_layerWithdrawal {s : State} (hpow : s.teasel.power = true) (c : CubeId) (f : FrameId) :
    exec (.layerWithdrawal c f) s = .next (withdrawalRun s c f) := powered_of_power hpow _

theorem withdrawalRun_of_due {s : State} {c : CubeId} {f : FrameId} (hu : (s.frame c f).priv.lvl = false)
    (hdrain : atDrainPoint s c f = true) (hdue : (s.frame c f).ctl.layers &&& (s.cube c).fab.failing ≠ 0) :
    withdrawalRun s c f = withdraw s c f := by
  have hw : withdrawalDue (s.cube c) (s.frame c f) = true := by rw [withdrawalDue, decide_eq_true hdue, Bool.true_or]
  simp [withdrawalRun, hu, hdrain, hw]

/-! A failed gang's members (R34). -/

section
variable {s : State} {c : CubeId} {f : FrameId} {k : Rec} {g : Gang} {e : Nat × Word × Word}
  (hrecs : s.hub.recs = [k]) (hgangs : k.gangs = [g]) (hframes : gangFrames s k.part k.id g.idx = [(c, f)])
include hrecs hgangs hframes

theorem gangFailed_of_err (herr : g.err = some e) : gangFailed s (s.frame c f) = true := by
  obtain ⟨t, ht, hp, hl, hg⟩ := member_of_mem_gangFrames (hframes ▸ List.mem_singleton_self (c, f))
  simp [gangFailed, ht, hp, hl, hg, findRec_of_single hrecs, Rec.gang_of_single hgangs, herr]

/-- The one member of a failed gang stops where it stands at a drain point or a pre-emption has stopped it. -/
theorem gangFailureRun_single (herr : g.err = some e) (hu : (s.frame c f).priv.lvl = false) :
    gangFailureRun s k.part k.id g.idx =
      if atDrainPoint s c f = true ∨ g.pre = true ∧ (s.frame c f).issue.swapped = true ∧ (s.frame c f).issue.preempt = none then
        s.modFrame c f fun r => { r with issue := { r.issue with stopped := true } }
      else s := by
  have hfail := gangFailed_of_err hrecs hgangs hframes herr
  simp [gangFailureRun, findRec_of_single hrecs, hframes, Rec.gang_of_single hgangs, hfail, hu, State.modFrame]

end

theorem exec_gangFailureStop {s : State} (hpow : s.teasel.power = true) (n : LaunchName) (gang : Nat) :
    exec (.gangFailureStop n gang) s = .next (gangFailureRun s n.part n.id gang) := powered_of_power hpow _

/-! Barrier phases (R106, R219, R220). -/

theorem exec_barrierPhaseEnd {s : State} (hpow : s.teasel.power = true) (n : LaunchName) (gang : Nat) (kind : BarKind) (bid : BitVec 4) :
    exec (.barrierPhaseEnd n gang kind bid) s = .next (barrierPhaseRun s n.part n.id gang kind bid) := powered_of_power hpow _

/-- The one phase, named by its barrier and open, ends if it is full. -/
theorem barrierPhaseRun_single {s : State} {p : Phase} {gang : Nat} (hp : s.hub.phases = [p]) (hopen : p.ended = false)
    (hbid : p.bid < 16) (hgang : p.gang = gang ∨ p.kind = .span) :
    barrierPhaseRun s p.part p.launch gang p.kind (BitVec.ofNat 4 p.bid) =
      if phaseFull s p then { s with hub := { s.hub with phases := [{ p with ended := true }] } } else s := by
  have hmod : p.bid % 16 = p.bid := Nat.mod_eq_of_lt hbid
  have hmine : (s.hub.phases.filter fun x => x.part = p.part && x.launch = p.launch && (x.gang = gang || p.kind == .span) &&
      x.kind = p.kind && x.bid = (BitVec.ofNat 4 p.bid).toNat && !x.ended) = [p] := by
    simp only [hp, List.filter_cons, List.filter_nil]
    simp [hopen, hmod, hgang]
  rw [barrierPhaseRun, hmine]
  simp [State.modHub, hp]


/-- A member of a gang's barrier is awaited until it has completed or arrived (R219). -/
theorem phaseFull_gang {s : State} {k : Rec} {g : Gang} {p : Phase} (hk : findRec s p.part p.launch = some k) (hspan : k.isSpan = false)
    (hg : k.gang p.gang = some g) (hkind : p.kind = .gang) :
    phaseFull s p = true ↔ ∀ rank, rank < k.gsize → rank ∈ g.doneR ∨ (0, rank) ∈ p.came := by
  simp [phaseFull, hk, hspan, hg, hkind]

/-- What a span's barrier no longer waits for: a member that has arrived, has completed, or whose gang elsewhere has (R220). -/
def spanGone (k : Rec) (g : Gang) (p : Phase) (sr rank : Nat) : Prop :=
  (sr, rank) ∈ p.came ∨ (sr = g.idx ∧ rank ∈ g.doneR) ∨ (sr ≠ g.idx ∧ (sr ∈ k.doneAt ∨ (sr, rank) ∈ k.doneM))

theorem phaseFull_span {s : State} {k : Rec} {g : Gang} {p : Phase} (hk : findRec s p.part p.launch = some k)
    (hown : k.ownRank s = some g.idx) (hg : k.gang g.idx = some g) (hkind : p.kind = .span) :
    phaseFull s p = true ↔ ∀ sr, sr < (spanPkgs k).length → ∀ rank, rank < k.gsize → spanGone k g p sr rank := by
  simp only [phaseFull, hk, hkind, hown, List.all_eq_true, List.mem_range, Option.some.injEq]
  refine forall₂_congr fun sr _ => ?_
  by_cases hsr : g.idx = sr
  · subst hsr
    simp [spanGone, hg, or_comm]
  · have hsr' : ¬ sr = g.idx := fun h => hsr h.symm
    by_cases hdone : sr ∈ k.doneAt
    · simp [spanGone, hsr, hsr', hdone]
    · simp [spanGone, hsr, hsr', hdone, or_comm]

end Sys2Proof.Machine

open Sys2Proof Sys2Proof.Machine

/-- Settles O47: a withdrawal at a drain point is `withdraw`, the failed gang's one member stops by `gangFailureRun_single`,
and a phase ends exactly when it is full, which `phaseFull_gang` and `phaseFull_span` say member by member. -/
theorem drainPointsAndPhases : Obligations.DrainPointsAndPhases := by
  unfold Obligations.DrainPointsAndPhases
  intro s c f x hpow htask hu r q
  refine ⟨fun hdrain hdue => ?_, fun k g e hrecs hgangs herr hframes => ?_, fun k g p hrecs hgangs hphases hopen hpart hlaunch hbid => ?_⟩
  · refine ⟨withdraw s c f, ?_, withdraw_mem s c f, ?_⟩
    · rw [exec_layerWithdrawal hpow, withdrawalRun_of_due hu hdrain hdue]
    · rw [withdraw_frame htask]
      exact ⟨rfl, rfl, rfl, fun i _ => loseBufs_buf x _ _ _ i⟩
  · intro i stopped
    have hrun := gangFailureRun_single hrecs hgangs hframes herr hu
    have hexec : exec i s = .next (gangFailureRun s k.part k.id g.idx) := exec_gangFailureStop hpow _ _
    rw [hexec, hrun]
    refine ⟨fun hdrain => ?_, fun hpre hswap hnone => ?_, fun hdrain hnot => ?_⟩
    · rw [if_pos (Or.inl hdrain)]
    · rw [if_pos (Or.inr ⟨hpre, hswap, hnone⟩)]
    · rw [if_neg]
      rintro (h | ⟨hpre, hswap, -⟩)
      · exact absurd h (by simp [hdrain])
      · rcases hnot with h | h
        · exact absurd h (by simp [hpre])
        · exact absurd h (by simp [r, hswap])
  · intro i ended
    have hk : findRec s p.part p.launch = some k := by rw [hpart, hlaunch]; exact findRec_of_single hrecs
    have hg := Rec.gang_of_single hgangs
    have hrun : p.gang = g.idx ∨ p.kind = .span → exec (i p.kind) s = .next (if phaseFull s p then ended else s) := fun hgang => by
      rw [← barrierPhaseRun_single hphases hopen hbid hgang, hpart, hlaunch]
      exact exec_barrierPhaseEnd hpow _ _ _ _
    refine ⟨fun hspan hkind hgang => ?_, fun hkind hown => ?_⟩
    · have hfull := phaseFull_gang hk hspan (hgang ▸ hg) hkind
      rw [hkind] at hrun
      rw [hrun (Or.inl hgang)]
      refine ⟨fun hall => ?_, fun rank hlt hdone hcame => ?_⟩
      · rw [if_pos (hfull.mpr hall)]
      · rw [if_neg fun h => (hfull.mp h rank hlt).elim hdone hcame]
    · have hfull := phaseFull_span hk hown hg hkind
      rw [hkind] at hrun
      rw [hrun (Or.inr rfl)]
      refine ⟨fun hall => ?_, fun sr rank hsr hlt hgone => ?_⟩
      · rw [if_pos (hfull.mpr fun sr hsr rank hlt => hall sr rank hsr hlt)]
      · rw [if_neg fun h => hgone (hfull.mp h sr hsr rank hlt)]
end

section
/-! SUPPORT. What Teasel samples and keeps, and its watchdog. -/

namespace Sys2Proof.Machine

/-- What no step of a fold changes, the fold does not change. -/
theorem foldl_keeps {σ α β : Type} {f : σ → β → σ} (g : σ → α) (h : ∀ s x, g (f s x) = g s) (l : List β) (s : σ) :
    g (l.foldl f s) = g s :=
  (List.foldl_hom g fun s x => (h s x).symm).symm.trans (List.foldl_fixed l)

/-! One change made of every cube. -/

/-- A cube after one change has been made of each cube of a list that names none twice. -/
theorem cube_foldl_modCube (g : Cube → Cube) (c : CubeId) : ∀ (l : List CubeId) (s : State), l.Nodup →
    (l.foldl (fun s c => s.modCube c g) s).cube c = if c ∈ l then g (s.cube c) else s.cube c
  | [], s, _ => by simp
  | d :: l, s, h => by
    obtain ⟨hd, hl⟩ := List.nodup_cons.mp h
    rw [List.foldl_cons, cube_foldl_modCube g c l _ hl, State.cube_modCube]
    by_cases hc : c = d
    · subst hc; simp [hd]
    · simp [hc]

theorem mem_allCubes (c : CubeId) : c ∈ allCubes := by revert c; decide

theorem cube_modAllCubes (g : Cube → Cube) (s : State) (c : CubeId) :
    (allCubes.foldl (fun s c => s.modCube c g) s).cube c = g (s.cube c) := by
  rw [cube_foldl_modCube g c allCubes s (by decide), if_pos (mem_allCubes c)]

@[simp] theorem State.cube_modTeasel (s : State) (g : Teasel → Teasel) (c : CubeId) : (s.modTeasel g).cube c = s.cube c := rfl

/-! The log changes Teasel alone (R399). -/

section
variable (s : State) (code cube : Nat) (l : List Word)

@[simp] theorem logEvent_mem : (logEvent s code cube l).mem = s.mem := rfl
@[simp] theorem logEvent_hub : (logEvent s code cube l).hub = s.hub := rfl
@[simp] theorem logEvent_cube (c : CubeId) : (logEvent s code cube l).cube c = s.cube c := rfl
@[simp] theorem logEvent_flash : (logEvent s code cube l).teasel.flash = s.teasel.flash := rfl

end

/-! Telemetry (R386, R400). -/

/-- Four 16-bit fields of a number, lowest first. -/
theorem fields_of_four {a b c d : Nat} (ha : a < 65536) (hb : b < 65536) (hc : c < 65536) (hd : d < 65536) :
    let n := 0 + a <<< (16 * 0) + b <<< (16 * 1) + c <<< (16 * 2) + d <<< (16 * 3)
    n < 2 ^ 64 ∧ n / 2 ^ (16 * 0) % 2 ^ 16 = a ∧ n / 2 ^ (16 * 1) % 2 ^ 16 = b ∧ n / 2 ^ (16 * 2) % 2 ^ 16 = c ∧
      n / 2 ^ (16 * 3) % 2 ^ 16 = d := by
  simp only [Nat.shiftLeft_eq]
  refine ⟨?_, ?_, ?_, ?_, ?_⟩ <;> omega

/-- A telemetry word holds its four values, each cut to 16 bits. -/
theorem packWord_field (l : List Nat) (i j : Nat) (hj : j < 4) :
    (packWord l i).toNat / 2 ^ (16 * j) % 2 ^ 16 = min 0xFFFF (l.getD (4 * i + j) 0) := by
  have hcut : ∀ k, min 0xFFFF (l.getD (4 * i + k) 0) < 65536 := fun k => by omega
  obtain ⟨hlt, h0, h1, h2, h3⟩ := fields_of_four (hcut 0) (hcut 1) (hcut 2) (hcut 3)
  rw [packWord, show List.range 4 = [0, 1, 2, 3] from rfl]
  simp only [List.foldl_cons, List.foldl_nil]
  rw [w64, BitVec.toNat_ofNat, Nat.mod_eq_of_lt hlt]
  rcases (by omega : j = 0 ∨ j = 1 ∨ j = 2 ∨ j = 3) with rfl | rfl | rfl | rfl
  · exact h0
  · exact h1
  · exact h2
  · exact h3

/-- What a sample records behind its time: s and L of the cubes, then the values read. -/
def sampledValues (s : State) (values : List Word) : List Nat :=
  (allCubes.map (fun c => (s.cube c).camp.s) ++ allCubes.map fun c => limitL (s.cube c).camp) ++
    ((values.map fun (v : Word) => v.toNat) ++ List.replicate sampleCount 0).take sampleCount
def telemetryRecord (s : State) (values : List Word) : List Word :=
  w64 (s.now / 2700) :: (List.range 127).map (packWord (sampledValues s values))

/-- The 16-bit value n of a telemetry record, behind its time. -/
theorem telemetryRecord_field (s : State) (values : List Word) (n : Nat) (hn : n < 344) :
    ((telemetryRecord s values).getD (1 + n / 4) 0).toNat / 2 ^ (16 * (n % 4)) % 2 ^ 16 = min 0xFFFF ((sampledValues s values).getD n 0) := by
  have hword : (telemetryRecord s values).getD (1 + n / 4) 0 = packWord (sampledValues s values) (n / 4) := by
    have hlt : n / 4 < 127 := by omega
    simp [telemetryRecord, Nat.add_comm 1, List.getD_eq_getElem?_getD, hlt]
  rw [hword, packWord_field _ _ _ (Nat.mod_lt _ (by decide)), Nat.div_add_mod]

theorem sampledValues_step (s : State) (values : List Word) (c : CubeId) : (sampledValues s values).getD c.val 0 = (s.cube c).camp.s := by
  fin_cases c <;> rfl
theorem sampledValues_limit (s : State) (values : List Word) (c : CubeId) :
    (sampledValues s values).getD (4 + c.val) 0 = limitL (s.cube c).camp := by
  fin_cases c <;> rfl
theorem sampledValues_value (s : State) (values : List Word) (n : Nat) (hn : n < 336) :
    (sampledValues s values).getD (8 + n) 0 = (values.getD n 0).toNat := by
  have hcount : n < sampleCount := hn
  simp only [sampledValues, List.getD_eq_getElem?_getD]
  rw [List.getElem?_append_right (by simp [allCubes])]
  simp only [allCubes, List.length_append, List.length_map, List.length_cons, List.length_nil, Nat.add_sub_cancel_left]
  rw [List.getElem?_take_of_lt hcount, List.getElem?_append]
  split
  next h =>
    rw [List.length_map] at h
    simp [h]
  next h =>
    rw [List.length_map, Nat.not_lt] at h
    have hrest : n - values.length < sampleCount := Nat.lt_of_le_of_lt (Nat.sub_le _ _) hcount
    simp [h, hrest]

theorem exec_telemetrySample {s : State} (hpow : s.teasel.power = true) (values : List Word) :
    exec (.telemetrySample values) s = .next (telemetryRun s values) := powered_of_power hpow _

/-- Before boot, and within a millisecond of the last record, none is taken. -/
theorem telemetryRun_early {s : State} (values : List Word) (h : s.teasel.up = false ∨ s.now - s.teasel.telAt < usCycles 1000) :
    telemetryRun s values = s := by
  rw [telemetryRun, if_pos (h.imp_left fun h => by simp [h])]

theorem telemetryRun_due {s : State} (values : List Word) (hup : s.teasel.up = true) (hdue : usCycles 1000 ≤ s.now - s.teasel.telAt) :
    telemetryRun s values = { s with fresh := s.fresh + values.length, teasel := { s.teasel with
      telem := (telemetryRecord s values :: s.teasel.telem).take 64, telAt := s.now, kick := s.now } } := by
  rw [telemetryRun, if_neg (by rintro (h | h); · simp [hup] at h
                               · omega)]
  rfl

/-! Monitors (R387). -/

/-- A sample's bin is the one whose range holds it. -/
theorem binOf_eq {m : Monitor} {v : Nat} {i : Nat} (hi : i < 16)
    (h : if i = 0 then v < m.base + 2 ^ m.shift
      else m.base + i * 2 ^ m.shift ≤ v ∧ (v < m.base + (i + 1) * 2 ^ m.shift ∨ i = 15)) : binOf m v = i := by
  have hpos : 0 < 2 ^ m.shift := Nat.two_pow_pos _
  unfold binOf
  split at h
  next hzero =>
    split
    · omega
    · rw [Nat.shiftRight_eq_div_pow, Nat.div_eq_of_lt (by omega)]
      omega
  next hzero =>
    obtain ⟨hlo, hhi⟩ := h
    have hmul : 2 ^ m.shift ≤ i * 2 ^ m.shift := Nat.le_mul_of_pos_left _ (by omega)
    rw [if_neg (by omega), Nat.shiftRight_eq_div_pow]
    have hge : i ≤ (v - m.base) / 2 ^ m.shift := (Nat.le_div_iff_mul_le hpos).mpr (by omega)
    rcases hhi with hhi | rfl
    · have hlt : (v - m.base) / 2 ^ m.shift < i + 1 := (Nat.div_lt_iff_lt_mul hpos).mpr (by omega)
      omega
    · omega

theorem takeSample_bins {m : Monitor} {v : Nat} {i : Fin 16} (hbin : binOf m v = i.val) (j : Fin 16) :
    (takeSample m v).bins[j] = if j = i then min (m.bins[i] + 1) (2 ^ 32 - 1) else m.bins[j] := by
  have hmod : i.val % 16 = i.val := Nat.mod_eq_of_lt i.isLt
  simp only [takeSample, hbin, hmod, Fin.getElem_fin, Vector.getElem_set, Fin.ext_iff]
  by_cases h : j.val = i.val
  · simp [h, sat32, List.getD_eq_getElem?_getD]
  · simp [h, Ne.symm h]

theorem exec_monitorSample {s : State} (hpow : s.teasel.power = true) (c : CubeId) (m : Fin 8) (v : Nat) :
    exec (.monitorSample c m v) s = .next (monitorSampleRun s c m v) := powered_of_power hpow _

/-! The watchdog (R391). -/

theorem exec_watchdogTimeout {s : State} (hpow : s.teasel.power = true) : exec .watchdogTimeout s = .next (watchdogRun s) :=
  powered_of_power hpow _

/-- What the watchdog leaves of a cube: the record's limits with LCAP 560, a throttle step of 4 at least, no floor, a ramp. -/
def fallbackCube (lim : Limits) (q : Cube) : Cube :=
  { q with camp := setStep { q.camp with lim := { lim with lcap := 560 } } (max 4 q.camp.s) 5, ctl := { q.ctl with floor := 0, ramp := 50 } }

/-- Every cube made to fall back. -/
def cubesFallBack (lim : Limits) (s : State) : State := allCubes.foldl (fun s c => s.modCube c (fallbackCube lim)) s

theorem cubesFallBack_cube (lim : Limits) (s : State) (c : CubeId) : (cubesFallBack lim s).cube c = fallbackCube lim (s.cube c) :=
  cube_modAllCubes _ s c
theorem cubesFallBack_keeps {α : Type} (g : State → α) (h : ∀ s c q, g (State.setCube s c q) = g s) (lim : Limits) (s : State) :
    g (cubesFallBack lim s) = g s := foldl_keeps g (fun u c => h u c _) allCubes s

theorem watchdogRun_idle {s : State} (h : s.teasel.fallback = true ∨ s.now - s.teasel.kick < usCycles 250000) : watchdogRun s = s :=
  if_pos h

/-- The watchdog's end is logged, every cube falls back, and Teasel knows that it has. -/
theorem watchdogRun_due {s : State} (hfall : s.teasel.fallback = false) (hdue : s.teasel.kick + usCycles 250000 ≤ s.now) :
    watchdogRun s = (cubesFallBack (recordLimits s.teasel) (logEvent s 0x44 255 [])).modTeasel fun t => { t with fallback := true } := by
  rw [watchdogRun, if_neg (by simp [hfall]; omega)]
  rfl

section
variable {s : State} (hfall : s.teasel.fallback = false) (hdue : s.teasel.kick + usCycles 250000 ≤ s.now)
include hfall hdue

theorem watchdogRun_cube (c : CubeId) : (watchdogRun s).cube c = fallbackCube (recordLimits s.teasel) (s.cube c) := by
  rw [watchdogRun_due hfall hdue, State.cube_modTeasel, cubesFallBack_cube, logEvent_cube]
theorem watchdogRun_mem : (watchdogRun s).mem = s.mem := by
  rw [watchdogRun_due hfall hdue, State.modTeasel_mem, cubesFallBack_keeps State.mem fun _ _ _ => rfl, logEvent_mem]
theorem watchdogRun_hub : (watchdogRun s).hub = s.hub := by
  rw [watchdogRun_due hfall hdue, State.modTeasel_hub, cubesFallBack_keeps State.hub fun _ _ _ => rfl, logEvent_hub]
theorem watchdogRun_fallback : (watchdogRun s).teasel.fallback = true := by
  rw [watchdogRun_due hfall hdue]; rfl
theorem watchdogRun_logSeq : (watchdogRun s).teasel.logSeq = s.teasel.logSeq + 1 := by
  have hkeep := cubesFallBack_keeps (fun u => u.teasel.logSeq) (fun _ _ _ => rfl) (recordLimits s.teasel) (logEvent s 0x44 255 [])
  rw [watchdogRun_due hfall hdue]
  exact hkeep

end

/-- A cube that has fallen back is throttled by 4 at least, by cause 5 where it was not before (R391). -/
theorem fallbackCube_camp (lim : Limits) (q : Cube) : (fallbackCube lim q).camp.lim = { lim with lcap := 560 } ∧
    (fallbackCube lim q).camp.s = max 4 q.camp.s ∧ (q.camp.s < 4 → (fallbackCube lim q).camp.cause = 5) :=
  ⟨rfl, rfl, fun h => if_pos (by show q.camp.s < max 4 q.camp.s; omega)⟩

end Sys2Proof.Machine
end

section
/-! SUPPORT. Boot: what a reset leaves, the cubes after their self-test, and the stages of `bootOn`. -/

namespace Sys2Proof.Machine

/-! The cold state (R390, R392). -/

theorem coldState_cube_lost (s : State) (c : CubeId) : ((coldState s).cube c).fab.lost = (s.cube c).fab.lost := by
  simp [coldState, State.cube]

theorem coldState_flash (s : State) : (coldState s).teasel.flash = s.teasel.flash := rfl

theorem coldState_frame (s : State) (c : CubeId) (f : FrameId) : (coldState s).frame c f = Frame.free := by
  simp [coldState, State.frame, State.cube, Cube.frame, Cube.zero]

/-! A cube after its self-test (R9, R374, R390). -/

/-- A map filled key by key reads as what was wanted at each key, and as the unlisted value elsewhere. -/
theorem fget_foldl_wanted {d : Nat} {want : Nat → Option Nat} {step : FMap Nat → Nat → FMap Nat}
    (hsome : ∀ m i p, want i = some p → step m i = fset d m i p) (hnone : ∀ m i, want i = none → step m i = m) (i n : Nat) :
    fget d ((List.range n).foldl step []) i = if i < n then (want i).getD d else d := by
  induction n with
  | zero => rfl
  | succ n ih =>
    rw [List.range_succ, List.foldl_append, List.foldl_cons, List.foldl_nil]
    by_cases h : i = n
    · subst h
      rw [if_pos (Nat.lt_succ_self i)]
      cases hw : want i with
      | none => rw [hnone _ _ hw, ih, if_neg (Nat.lt_irrefl i)]; rfl
      | some p => rw [hsome _ _ _ hw, fget_fset_same]; rfl
    · have hlt : i < n + 1 ↔ i < n := by omega
      simp only [hlt]
      rw [← ih]
      cases hw : want n with
      | none => rw [hnone _ _ hw]
      | some p => rw [hsome _ _ _ hw, fget_fset_other _ _ _ _ _ h]

/-- A logical layer stands on a physical layer that has passed. -/
theorem layerMap_passes {spare : Nat} {pass : BitVec 9} {i x : Nat} (h : (layerMap spare pass).1.getD i none = some x) :
    pass.getLsbD x = true := by
  simp only [layerMap, List.getD_eq_getElem?_getD, List.getElem?_map] at h
  rcases hi : (List.range 8)[i]? with _ | j
  · simp [hi] at h
  · simp only [hi, Option.map_some, Option.getD_some] at h
    split at h
    next hpass => rw [← Option.some.inj h]; exact hpass
    next =>
      split at h
      next htakes =>
        rw [← Option.some.inj h]
        simp only [Bool.and_eq_true] at htakes
        exact htakes.2.1
      next => exact absurd h (by simp)

/-- The layers of a list marked in a mask. -/
theorem getLsbD_foldl_or (p : Nat → Bool) (z : Nat) (hz : z < 8) : ∀ (l : List Nat) (m : BitVec 8),
    (l.foldl (fun m i => if p i then m ||| (1#8 <<< i) else m) m).getLsbD z = (m.getLsbD z || (l.contains z && p z))
  | [], m => by simp
  | i :: l, m => by
    rw [List.foldl_cons, getLsbD_foldl_or p z hz l]
    by_cases hi : i = z
    · subst hi
      cases p i <;> simp [hz]
    · have hbit : (1#8 <<< i).getLsbD z = false := by
        simp [BitVec.getLsbD_shiftLeft, BitVec.getLsbD_one]; omega
      have hne : ¬ z = i := fun h => hi h.symm
      cases p i <;> simp [hbit, hne]

section
variable (now : Nat) (lim : Limits) (spare : Nat) (pass : BitVec 9) (links : List Bool) (stations : List StationMode)
  (margin : Nat) (trim : List Nat) (hbm : BitVec 2)

theorem bootCube_trim (n : Nat) (hn : n < 512) :
    fget trimNominal (bootCube now lim spare pass links stations margin trim hbm).fab.trim n =
      (trim[n]?.map fun p => trimWithin (p + margin)).getD trimNominal := by
  simp only [bootCube]
  rw [fget_foldl_wanted (want := fun i => trim[i]?.map fun p => trimWithin (p + margin)), if_pos hn]
  · intro m i p h
    obtain ⟨v, hv, rfl⟩ := Option.map_eq_some_iff.mp h
    simp only [hv]
  · intro m i h
    simp only [Option.map_eq_none_iff.mp h]

theorem bootCube_phys (z : Fin 8) :
    (bootCube now lim spare pass links stations margin trim hbm).fab.phys[z] = (layerMap spare pass).1.getD z.val none := by
  simp [bootCube]

theorem bootCube_insvc (z : Fin 8) : (bootCube now lim spare pass links stations margin trim hbm).fab.insvc.getLsbD z.val =
    (bootCube now lim spare pass links stations margin trim hbm).fab.phys[z].isSome := by
  rw [bootCube_phys]
  refine (getLsbD_foldl_or (fun i => ((layerMap spare pass).1.getD i none).isSome) z.val z.isLt (List.range 8) 0).trans ?_
  simp

theorem bootCube_frame (f : FrameId) : ((bootCube now lim spare pass links stations margin trim hbm).frame f).task = none ∧
    ((bootCube now lim spare pass links stations margin trim hbm).frame f).regs = Regs.zero := by
  simp [bootCube, Cube.frame, Frame.free]

end

/-! The stages of a boot (R392). -/

/-- A cube after the self-test of a boot (R390). -/
def testedCube (s : State) (i : BootInput) (c : CubeId) : Cube :=
  bootCube s.now (recordLimits s.teasel) (bits (recField s.teasel.flash.record 0x38) (4 * c.val) 4)
    (i.pass.getD c.val 0x1FF &&& ~~~(s.cube c).fab.lost) ((List.range 16).map fun j => i.ports.getD (16 * c.val + j) true)
    ((List.range 4).map fun j => i.stations.getD (4 * c.val + j) .x4) (trimMargin s.teasel) (i.trim.getD c.val [])
    (BitVec.ofNat 2 (bnat (i.hbm.getD (2 * c.val) true) + 2 * bnat (i.hbm.getD (2 * c.val + 1) true)))

/-- A cube with the layers that have failed at run time, and one with its ports mapped. -/
def Cube.withLost (q : Cube) (l : BitVec 9) : Cube := { q with fab := { q.fab with lost := l } }
def Cube.withPorts (q : Cube) (m : Vector (BitVec 4) 8) : Cube := { q with fab := { q.fab with pmap := m } }

section
variable (q : Cube) (l : BitVec 9) (m : Vector (BitVec 4) 8)

@[simp] theorem Cube.placed_frame (f : FrameId) : ((q.withLost l).withPorts m).frame f = q.frame f := rfl
@[simp] theorem Cube.placed_trim : ((q.withLost l).withPorts m).fab.trim = q.fab.trim := rfl
@[simp] theorem Cube.placed_phys : ((q.withLost l).withPorts m).fab.phys = q.fab.phys := rfl
@[simp] theorem Cube.placed_insvc : ((q.withLost l).withPorts m).fab.insvc = q.fab.insvc := rfl

end

/-- Cubes that differ in their ports alone. -/
theorem Cube.eq_withPorts {p q : Cube} {m : Vector (BitVec 4) 8} (h : p.withPorts m = q.withPorts m) : p = q.withPorts p.fab.pmap :=
  have h : (p.withPorts m).withPorts p.fab.pmap = (q.withPorts m).withPorts p.fab.pmap := by rw [h]
  h

/-- Every cube after its self-test; what has failed at run time stays failed. -/
def testedState (s : State) (i : BootInput) : State :=
  { s with cubes := Vector.ofFn fun c => (testedCube s i c).withLost (s.cube c).fab.lost }

theorem testedState_cube (s : State) (i : BootInput) (c : CubeId) :
    (testedState s i).cube c = (testedCube s i c).withLost (s.cube c).fab.lost := by
  simp [testedState, State.cube]

/-- The descriptors of a package record that are in force: its own where they stand, one of the whole package otherwise. -/
def recordDescs (r : List Byte) : List Desc :=
  let all := (List.range 4).map fun k => descOf r (0x60 + 64 * k)
  let used := all.takeWhile fun d => d.cubes ≠ 0
  if (descsOk used && decide (used ≠ []) && (all.drop used.length).all fun d => d = ⟨0, 0, 0, 0, [0, 0, 0, 0]⟩)
  then used else [wholePackage]

/-- The log of a cube's self-test. -/
def logSelfTest (s : State) (c : CubeId) : State :=
  let q := s.cube c
  let s := logEvent s 0x11 c.val [w64 ((List.range 8).foldl (fun n i => n + ((q.fab.phys.toList.getD i none).getD 15) <<< (4 * i)) 0)]
  let s := if q.fab.insvc = 0 then logEvent s 0x13 c.val [0] else s
  let s := if q.fab.hbm ≠ 3 then logEvent s 0x13 c.val [2, w64 (~~~q.fab.hbm).toNat] else s
  if q.fab.deadPorts ≠ [] then logEvent s 0x13 c.val [1, w64 (q.fab.deadPorts.foldl (fun m p => m + 1 <<< p) 0)] else s

/-- Teasel after a boot with a package record: up, its watchdog written, and the sequence record that of the active image. -/
def teaselUp (now : Nat) (record : List Byte) (t : Teasel) : Teasel :=
  let stale := decide (imgSeq t.flash.active ≠ wordAt t.flash.seqrec 0)
  { t with up := true, kick := now
           flash := { t.flash with seqrec := if stale then seqRecord (deviceKey record) t.flash.active else t.flash.seqrec } }

def bootedState (s : State) (i : BootInput) : State :=
  allCubes.foldl logSelfTest (applyDescs (testedState s i) (recordDescs s.teasel.flash.record))

/-- The end of a boot: Teasel is up, and the log says so. -/
def finishBoot (s : State) (record : List Byte) : State := logEvent (s.modTeasel (teaselUp s.now record)) 0x10 255 []

theorem bootOn_eq_stages (s : State) (i : BootInput) : bootOn s i = finishBoot (bootedState s i) s.teasel.flash.record := rfl

/-- What neither a change of partitions and held requests nor one of a cube's ports touches, `applyDescs` leaves. -/
theorem applyDescs_keeps {α : Type} (g : State → α) (hparts : ∀ s l, g (s.modHub fun h => { h with parts := l }) = g s)
    (hposts : ∀ s a b, g (s.modHub fun h => { h with outbox := a, held := b }) = g s)
    (hports : ∀ s c m, g (s.modCube c fun q => { q with fab := { q.fab with pmap := m } }) = g s) (s : State) (l : List Desc) :
    g (applyDescs s l) = g s := by
  rw [applyDescs, postHeld]
  refine (hposts _ _ _).trans ((foldl_keeps g (fun s c => ?_) _ _).trans (hparts s _))
  split
  · exact hports s c _
  · rfl

theorem logSelfTest_keeps {α : Type} (g : State → α) (hlog : ∀ s code cube l, g (logEvent s code cube l) = g s) (s : State) (c : CubeId) :
    g (logSelfTest s c) = g s := by
  unfold logSelfTest
  dsimp only
  split <;> split <;> split <;> simp only [hlog]

/-- What neither partitions, ports, the log nor the end of a boot touches is as the self-tests have left it. -/
theorem bootOn_keeps {α : Type} (g : State → α) (hports : ∀ s c m, g (s.modCube c fun q => q.withPorts m) = g s)
    (hhub : ∀ s l a b, g (s.modHub fun h => { h with parts := l, outbox := a, held := b }) = g s)
    (hlog : ∀ s code cube l, g (logEvent s code cube l) = g s) (hfinish : ∀ s r, g (finishBoot s r) = g s) (s : State) (i : BootInput) :
    g (bootOn s i) = g (testedState s i) := by
  rw [bootOn_eq_stages, hfinish, bootedState, foldl_keeps g (logSelfTest_keeps g hlog)]
  exact applyDescs_keeps g (fun s l => hhub s l _ _) (fun s a b => hhub s _ a b) hports _ _

section
variable (s : State) (i : BootInput)

theorem bootOn_mem : (bootOn s i).mem = s.mem :=
  bootOn_keeps State.mem (fun _ _ _ => rfl) (fun _ _ _ _ => rfl) (fun _ _ _ _ => rfl) (fun _ _ => rfl) s i
theorem bootOn_poison : (bootOn s i).poison = s.poison :=
  bootOn_keeps State.poison (fun _ _ _ => rfl) (fun _ _ _ _ => rfl) (fun _ _ _ _ => rfl) (fun _ _ => rfl) s i
theorem bootOn_merge : (bootOn s i).merge = s.merge :=
  bootOn_keeps State.merge (fun _ _ _ => rfl) (fun _ _ _ _ => rfl) (fun _ _ _ _ => rfl) (fun _ _ => rfl) s i
theorem bootOn_recs : (bootOn s i).hub.recs = s.hub.recs :=
  bootOn_keeps (·.hub.recs) (fun _ _ _ => rfl) (fun _ _ _ _ => rfl) (fun _ _ _ _ => rfl) (fun _ _ => rfl) s i
theorem bootOn_now : (bootOn s i).now = s.now :=
  bootOn_keeps State.now (fun _ _ _ => rfl) (fun _ _ _ _ => rfl) (fun _ _ _ _ => rfl) (fun _ _ => rfl) s i
theorem bootOn_power : (bootOn s i).teasel.power = s.teasel.power :=
  bootOn_keeps (·.teasel.power) (fun _ _ _ => rfl) (fun _ _ _ _ => rfl) (fun _ _ _ _ => rfl) (fun _ _ => rfl) s i
theorem bootOn_recov : (bootOn s i).teasel.recov = s.teasel.recov :=
  bootOn_keeps (·.teasel.recov) (fun _ _ _ => rfl) (fun _ _ _ _ => rfl) (fun _ _ _ _ => rfl) (fun _ _ => rfl) s i
theorem bootOn_up : (bootOn s i).teasel.up = true := by rw [bootOn_eq_stages]; rfl

theorem finishBoot_flash (u : State) (record : List Byte) : (finishBoot u record).teasel.flash = { u.teasel.flash with
    seqrec := if imgSeq u.teasel.flash.active ≠ wordAt u.teasel.flash.seqrec 0 then seqRecord (deviceKey record) u.teasel.flash.active
      else u.teasel.flash.seqrec } := by
  rw [finishBoot, logEvent_flash, State.modTeasel_teasel, teaselUp]
  simp only [decide_eq_true_eq]

theorem bootedState_flash : (bootedState s i).teasel.flash = s.teasel.flash := by
  have hlog := foldl_keeps (fun u : State => u.teasel.flash) (logSelfTest_keeps (fun u => u.teasel.flash) fun _ _ _ _ => rfl) allCubes
    (applyDescs (testedState s i) (recordDescs s.teasel.flash.record))
  have hdescs := applyDescs_keeps (fun u : State => u.teasel.flash) (fun _ _ => rfl) (fun _ _ _ => rfl) (fun _ _ _ => rfl)
    (testedState s i) (recordDescs s.teasel.flash.record)
  rw [bootedState]
  exact hlog.trans hdescs

theorem bootOn_flash : (bootOn s i).teasel.flash = { s.teasel.flash with
    seqrec := if imgSeq s.teasel.flash.active ≠ wordAt s.teasel.flash.seqrec 0 then
      seqRecord (deviceKey s.teasel.flash.record) s.teasel.flash.active else s.teasel.flash.seqrec } := by
  rw [bootOn_eq_stages, finishBoot_flash, bootedState_flash]

/-- Descriptors put in force map the ports of a cube and change nothing else of it (R366, R371). -/
theorem bootOn_cube (c : CubeId) : ∃ m, (bootOn s i).cube c = ((testedCube s i c).withLost (s.cube c).fab.lost).withPorts m := by
  have hports : ∀ (u : State) (d : CubeId) m,
      ((u.modCube d fun q => q.withPorts m).cube c).withPorts (Vector.replicate 8 0) = (u.cube c).withPorts (Vector.replicate 8 0) := by
    intro u d m
    rw [State.cube_modCube]
    split
    next h => subst h; rfl
    next => rfl
  have hkeep := bootOn_keeps (fun u => (u.cube c).withPorts (Vector.replicate 8 0)) hports (fun _ _ _ _ => rfl) (fun _ _ _ _ => rfl)
    (fun _ _ => rfl) s i
  rw [testedState_cube] at hkeep
  exact ⟨_, Cube.eq_withPorts hkeep⟩

theorem bootOn_frame (c : CubeId) (f : FrameId) : ((bootOn s i).frame c f).task = none ∧ ((bootOn s i).frame c f).regs = Regs.zero := by
  obtain ⟨m, h⟩ := bootOn_cube s i c
  rw [State.frame, h, Cube.placed_frame, testedCube]
  exact bootCube_frame ..

end

/-! A boot or recovery (R392, R395). -/

theorem bootRun_of_bad_image {s : State} (i : BootInput) (h : imageOk s.teasel.vendorKey s.teasel.flash.active = false) :
    bootRun s i = intoRecovery (coldState s) := by
  have h : imageOk (coldState s).teasel.vendorKey (coldState s).teasel.flash.active = false := h
  simp [bootRun, h]
theorem bootRun_of_bad_record {s : State} (i : BootInput) (himg : imageOk s.teasel.vendorKey s.teasel.flash.active = true)
    (h : recordOk s.teasel.vendorKey s.teasel.flash.record = false) :
    bootRun s i = logEvent (intoRecovery (coldState s)) 0x12 255 [0] := by
  have himg : imageOk (coldState s).teasel.vendorKey (coldState s).teasel.flash.active = true := himg
  have h : recordOk (coldState s).teasel.vendorKey (coldState s).teasel.flash.record = false := h
  simp [bootRun, himg, h]
theorem bootRun_of_verified {s : State} (i : BootInput) (himg : imageOk s.teasel.vendorKey s.teasel.flash.active = true)
    (h : recordOk s.teasel.vendorKey s.teasel.flash.record = true) : bootRun s i = bootOn (coldState s) i := by
  have himg : imageOk (coldState s).teasel.vendorKey (coldState s).teasel.flash.active = true := himg
  have h : recordOk (coldState s).teasel.vendorKey (coldState s).teasel.flash.record = true := h
  simp [bootRun, himg, h]

/-- What a boot leaves whether or not its images verify. -/
structure Restarted (s t : State) : Prop where
  mem : t.mem = []
  poison : t.poison = []
  merge : t.merge = []
  recs : t.hub.recs = []
  power : t.teasel.power = true
  active : t.teasel.flash.active = s.teasel.flash.active
  staging : t.teasel.flash.staging = s.teasel.flash.staging
  record : t.teasel.flash.record = s.teasel.flash.record
  frame : ∀ c f, (t.frame c f).task = none ∧ (t.frame c f).regs = Regs.zero

theorem restarted_intoRecovery (s : State) : Restarted s (intoRecovery (coldState s)) where
  mem := rfl
  poison := rfl
  merge := rfl
  recs := rfl
  power := rfl
  active := rfl
  staging := rfl
  record := rfl
  frame c f := by
    rw [show (intoRecovery (coldState s)).frame c f = (coldState s).frame c f from rfl, coldState_frame]
    exact ⟨rfl, rfl⟩

theorem restarted_bootOn (s : State) (i : BootInput) : Restarted s (bootOn (coldState s) i) where
  mem := bootOn_mem _ i
  poison := bootOn_poison _ i
  merge := bootOn_merge _ i
  recs := bootOn_recs _ i
  power := bootOn_power _ i
  active := by rw [bootOn_flash]; rfl
  staging := by rw [bootOn_flash]; rfl
  record := by rw [bootOn_flash]; rfl
  frame := bootOn_frame _ i

/-- What a boot that completes leaves of a cube: what has failed stays failed, layers stand on what has passed, rails are
trimmed, and the limits are the record's (R374, R377, R390, R393). -/
structure BootedCube (s : State) (i : BootInput) (now : Nat) (c : CubeId) (q : Cube) : Prop where
  trimAt : q.fab.trimAt = now
  trim : ∀ n, n < 512 → fget trimNominal q.fab.trim n =
    ((i.trim.getD c.val [])[n]?.map fun p => trimWithin (p + trimMargin s.teasel)).getD trimNominal
  lost : q.fab.lost = (s.cube c).fab.lost
  phys : ∀ (z : Fin 8) x, q.fab.phys[z] = some x →
    (s.cube c).fab.lost.getLsbD x = false ∧ (i.pass.getD c.val 0x1FF).getLsbD x = true
  insvc : ∀ z : Fin 8, q.fab.insvc.getLsbD z.val = q.fab.phys[z].isSome
  lim : q.camp.lim = recordLimits s.teasel
  ctl : q.ctl = CubeCtl.zero

theorem bootedCube_bootOn (s : State) (i : BootInput) (c : CubeId) :
    BootedCube s i (bootOn (coldState s) i).now c ((bootOn (coldState s) i).cube c) := by
  obtain ⟨m, h⟩ := bootOn_cube (coldState s) i c
  rw [h, bootOn_now, coldState_cube_lost]
  exact {
    trimAt := rfl
    trim := fun n hn => by rw [Cube.placed_trim, testedCube, bootCube_trim _ _ _ _ _ _ _ _ _ n hn]; rfl
    lost := rfl
    phys := fun z x hz => by
      rw [Cube.placed_phys, testedCube, bootCube_phys] at hz
      have hpass := layerMap_passes hz
      rw [BitVec.getLsbD_and, coldState_cube_lost, Bool.and_eq_true] at hpass
      obtain ⟨hok, hnot⟩ := hpass
      rw [BitVec.getLsbD_not, Bool.and_eq_true, Bool.not_eq_true'] at hnot
      exact ⟨hnot.2, hok⟩
    insvc := fun z => by rw [Cube.placed_insvc, Cube.placed_phys, testedCube, bootCube_insvc]
    lim := rfl
    ctl := rfl }

/-- A boot completes exactly where the active image and the package record verify, and ends in recovery otherwise. -/
theorem bootRun_cases (s : State) (i : BootInput) :
    (imageOk s.teasel.vendorKey s.teasel.flash.active = true ∧ recordOk s.teasel.vendorKey s.teasel.flash.record = true ∧
        bootRun s i = bootOn (coldState s) i) ∨
      (¬ (imageOk s.teasel.vendorKey s.teasel.flash.active = true ∧ recordOk s.teasel.vendorKey s.teasel.flash.record = true) ∧
        Restarted s (bootRun s i) ∧ (bootRun s i).teasel.up = false ∧ (bootRun s i).teasel.recov = true) := by
  cases himg : imageOk s.teasel.vendorKey s.teasel.flash.active with
  | false =>
    rw [bootRun_of_bad_image i himg]
    exact .inr ⟨by simp, restarted_intoRecovery s, rfl, rfl⟩
  | true =>
    cases hrec : recordOk s.teasel.vendorKey s.teasel.flash.record with
    | false =>
      rw [bootRun_of_bad_record i himg hrec]
      have h := restarted_intoRecovery s
      exact .inr ⟨by simp, ⟨h.mem, h.poison, h.merge, h.recs, h.power, h.active, h.staging, h.record, h.frame⟩, rfl, rfl⟩
    | true => exact .inl ⟨rfl, rfl, bootRun_of_verified i himg hrec⟩

theorem restarted_bootRun (s : State) (i : BootInput) : Restarted s (bootRun s i) := by
  rcases bootRun_cases s i with ⟨-, -, h⟩ | ⟨-, h, -⟩
  · rw [h]; exact restarted_bootOn s i
  · exact h

/-- A package record that verifies is whole, and the limits are its own (R377, R393). -/
theorem recordLimits_of_recordOk {key : List Byte} {t : Teasel} (h : recordOk key t.flash.record = true) : recordLimits t =
    ⟨recField t.flash.record 0x10, recField t.flash.record 0x18, recField t.flash.record 0x20, recField t.flash.record 0x28⟩ := by
  simp only [recordOk, Bool.and_eq_true, decide_eq_true_eq] at h
  obtain ⟨⟨⟨hlen, -⟩, -⟩, -⟩ := h
  rw [recordLimits, if_neg (by omega)]

theorem exec_powerOnReset (s : State) (i : BootInput) : exec (.powerOnReset i) s = .next (bootRun s i) := rfl

/-- A boot ends up exactly where the active image and the package record verify, and in recovery otherwise. -/
theorem bootRun_up_iff (s : State) (i : BootInput) : (bootRun s i).teasel.up = true ↔
    imageOk s.teasel.vendorKey s.teasel.flash.active = true ∧ recordOk s.teasel.vendorKey s.teasel.flash.record = true := by
  rcases bootRun_cases s i with ⟨himg, hrec, h⟩ | ⟨hnot, -, hup, -⟩
  · rw [h, bootOn_up]; simp [himg, hrec]
  · rw [hup]; simp only [Bool.false_eq_true, hnot]

theorem bootRun_recov (s : State) (i : BootInput) : (bootRun s i).teasel.recov = !(bootRun s i).teasel.up := by
  rcases bootRun_cases s i with ⟨-, -, h⟩ | ⟨-, -, hup, hrecov⟩
  · rw [h, bootOn_recov, bootOn_up]; rfl
  · rw [hup, hrecov]; rfl

theorem bootRun_of_up {s : State} {i : BootInput} (h : (bootRun s i).teasel.up = true) : bootRun s i = bootOn (coldState s) i :=
  bootRun_of_verified i ((bootRun_up_iff s i).mp h).1 ((bootRun_up_iff s i).mp h).2

end Sys2Proof.Machine
end

section
/-! SUPPORT. Recovery and the loss of power. -/

namespace Sys2Proof.Machine

/-! Recovery (R395). -/

/-- The image that stands in the recovery window. -/
def windowImage (t : Teasel) : List Byte :=
  (List.range (min (0xC0 + imgLen ((List.range 0xC0).map fun i => fget 0 t.window i)) 0x3FFFFF0)).map fun i => fget 0 t.window i

/-- An image that recovery takes: it verifies, under a record that verifies, and is older than neither the record's least SEQ
nor that of a sequence record that holds. -/
def recoverable (t : Teasel) (img : List Byte) : Prop :=
  imageOk t.vendorKey img = true ∧ (recordOk t.vendorKey t.flash.record = true ∧ minSeq t ≤ imgSeq img) ∧
    (seqOkUnder t.flash.record t.flash.seqrec = true → wordAt t.flash.seqrec 0 ≤ imgSeq img)

/-- The machine with an image in both copies, from which it boots. -/
def recovering (s : State) (img : List Byte) : State :=
  { s.modTeasel fun x => { x with flash := { x.flash with active := img, staging := img } } with fresh := s.fresh + 2055 }

theorem exec_recoverySubmit {s : State} (hpow : s.teasel.power = true) : exec .recoverySubmit s = .next (recoveryRun s) :=
  powered_of_power hpow _

theorem recoveryRun_of_not_recov {s : State} (h : s.teasel.recov = false) : recoveryRun s = s := by
  rw [recoveryRun]
  simp only [h, Bool.not_false, if_true]

/-- What `recoveryRun` asks of the image, as it computes it. -/
theorem recoverable_iff (t : Teasel) (img : List Byte) : recoverable t img ↔
    imageOk t.vendorKey img = true ∧ (recordOk t.vendorKey t.flash.record && decide (minSeq t ≤ imgSeq img)) = true ∧
      (!seqOkUnder t.flash.record t.flash.seqrec || decide (wordAt t.flash.seqrec 0 ≤ imgSeq img)) = true := by
  simp only [recoverable, Bool.and_eq_true, Bool.or_eq_true, Bool.not_eq_true', decide_eq_true_eq]
  cases seqOkUnder t.flash.record t.flash.seqrec <;> simp

theorem recoverable_of_recordOk {t : Teasel} (hrec : recordOk t.vendorKey t.flash.record = true) (img : List Byte) : recoverable t img ↔
    imageOk t.vendorKey img = true ∧ minSeq t ≤ imgSeq img ∧
      (seqOkUnder t.flash.record t.flash.seqrec = true → wordAt t.flash.seqrec 0 ≤ imgSeq img) := by
  simp only [recoverable, hrec, true_and]

theorem recoveryRun_of_recoverable {s : State} (h : s.teasel.recov = true) (himg : recoverable s.teasel (windowImage s.teasel)) :
    recoveryRun s = (bootRun (recovering s (windowImage s.teasel)) (freeBoot s.fresh)).modTeasel fun x => { x with recStatus := 1 } := by
  have hwin := (recoverable_iff ..).mp himg
  rw [windowImage] at hwin
  rw [recoveryRun, if_neg (by simp [h])]
  dsimp only
  rw [if_pos hwin, recovering, windowImage]
  simp only [State.modTeasel_fresh]

theorem recoveryRun_of_not_recoverable {s : State} (h : s.teasel.recov = true) (himg : ¬ recoverable s.teasel (windowImage s.teasel)) :
    recoveryRun s = s.modTeasel fun x => { x with recStatus := 2 } := by
  rw [recoveryRun, if_neg (by simp [h])]
  exact if_neg fun hc => himg ((recoverable_iff ..).mpr hc)

/-- What the boot from a recovery image leaves. -/
structure Recovered (s : State) (img : List Byte) (t : State) : Prop where
  active : t.teasel.flash.active = img
  staging : t.teasel.flash.staging = img
  record : t.teasel.flash.record = s.teasel.flash.record
  recov : t.teasel.recov = false
  up : t.teasel.up = true
  mem : t.mem = []
  recs : t.hub.recs = []
  task : ∀ c f, (t.frame c f).task = none

theorem recovered_bootRun {s : State} {img : List Byte} (h : recoverable s.teasel img) (i : BootInput) :
    Recovered s img (bootRun (recovering s img) i) := by
  obtain ⟨himg, ⟨hrec, -⟩, -⟩ := h
  have hboot := restarted_bootRun (recovering s img) i
  have hup := (bootRun_up_iff (recovering s img) i).mpr ⟨himg, hrec⟩
  exact {
    active := hboot.active
    staging := hboot.staging
    record := hboot.record
    recov := by rw [bootRun_recov, hup]; rfl
    up := hup
    mem := hboot.mem
    recs := hboot.recs
    task := fun c f => (hboot.frame c f).1 }

/-! Loss of power (R394). -/

theorem exec_powerLoss {s : State} (hpow : s.teasel.power = true) (torn : Bool) :
    exec (.powerLoss torn) s = .next (powerLossRun s torn) := powered_of_power hpow _

theorem powerLossRun_flash (s : State) (torn : Bool) : (powerLossRun s torn).teasel.flash = { s.teasel.flash with
    active := if torn = true ∧ s.teasel.copying = true then s.teasel.flash.staging.take 64 else s.teasel.flash.active } := by
  rw [powerLossRun]
  simp only [Bool.and_eq_true]
  rfl

end Sys2Proof.Machine
end

section
/-! SUPPORT. A reset of a function: records that end by force, and what the end of one changes of the others. -/

namespace Sys2Proof.Machine

/-! What messages, frames, queues and the log leave of the hub's records. -/

/-- The records, the partitions and the package's own identifier. -/
def State.roster (s : State) : List Rec × List Part × Nat := (s.hub.recs, s.hub.parts, s.pkg)

theorem State.roster_eq_iff {s t : State} : t.roster = s.roster ↔ t.hub.recs = s.hub.recs ∧ t.hub.parts = s.hub.parts ∧ t.pkg = s.pkg := by
  simp [State.roster]

section
variable (s : State) (c : CubeId) (f : FrameId)

theorem roster_semAddBlock (base : Nat) (sem : BitVec 5) (n src : Nat) : (semAddBlock s base sem n src).roster = s.roster := by
  unfold semAddBlock
  dsimp only
  split
  · split <;> rfl
  · rfl

theorem roster_semAdd (sem : BitVec 5) (n src : Nat) : (semAdd s c f sem n src).roster = s.roster := by
  unfold semAdd
  dsimp only
  split
  · rfl
  · split
    · exact roster_semAddBlock ..
    · rfl

theorem roster_signal (sig : BitVec 6) (src : Nat) : (signal s c f sig src).roster = s.roster := by
  unfold signal
  dsimp only
  split
  · split <;> rfl
  · split
    · exact roster_semAdd ..
    · rfl

theorem roster_signalOwn (sig : BitVec 6) (src : Nat) : (signalOwn s c f sig src).roster = s.roster := by
  unfold signalOwn
  dsimp only
  split
  · rfl
  · exact roster_signal ..

theorem roster_post (q : RemoteReq) : (post s q).roster = s.roster := by
  simp only [State.roster, post, State.modHub_hub, State.modHub_pkg]
  split <;> rfl

theorem roster_sendFar (part : Nat) (pkg lane : Nat) (m : RemoteKind) (tag : Option ReqTag) :
    (sendFar s part c pkg lane m tag).roster = s.roster := roster_post ..

theorem roster_tellSpan (part : Nat) (k : Rec) (m : RemoteKind) (tag : Option ReqTag) : (tellSpan s part c k m tag).roster = s.roster :=
  foldl_keeps State.roster (fun u _ => roster_sendFar u c _ _ _ _ _) _ s

theorem roster_msgCompleteRun (i : Nat) : (msgCompleteRun s c f i).roster = s.roster := by
  unfold msgCompleteRun
  dsimp only
  split
  · rfl
  · split
    · rfl
    · refine (roster_signalOwn ..).trans ?_
      split <;> rfl

theorem roster_closeMsgs : (closeMsgs s c f).roster = s.roster := by
  unfold closeMsgs
  dsimp only
  refine (foldl_keeps State.roster (fun u m => ?_) _ _).trans (foldl_keeps State.roster (fun u i => roster_msgCompleteRun u c f i) _ _)
  split
  · split <;> rfl
  · exact roster_sendFar u c _ _ _ _ _
  · rfl

theorem roster_freeFrame (park : Bool) : (freeFrame s c f park).roster = s.roster := rfl

end

theorem roster_logEvent (s : State) (code cube : Nat) (l : List Word) : (logEvent s code cube l).roster = s.roster := rfl

theorem roster_logFail (s : State) (c part : Nat) (asid : BitVec 16) (va : Nat) (w : Except WalkFail TlbEnt) :
    (logFail s c part asid va w).roster = s.roster := by
  unfold logFail
  split
  · split <;> rfl
  · rfl

theorem roster_writeCpl (s : State) (k : Rec) (st : Nat) : (writeCpl s k st).roster = s.roster := by
  unfold writeCpl
  dsimp only
  split
  · rfl
  · split
    · rfl
    · exact (roster_logEvent ..).trans (roster_logFail ..)

theorem roster_raiseMsix (s : State) (fn v : Nat) : (s.modHub fun h => raiseMsix h fn v).roster = s.roster := by
  simp only [State.roster, State.modHub_hub, State.modHub_pkg, raiseMsix]
  split <;> rfl

theorem roster_leaveQueue (s : State) (k : Rec) : (leaveQueue s k).roster = s.roster := by
  unfold leaveQueue
  dsimp only
  split <;> rfl

/-! Turning cores (R28). -/

/-- Where no frame holds a task no core turns. -/
theorem turnCores_of_no_task {s : State} (h : ∀ c f, (s.frame c f).task = none) : turnCores s = s := by
  have hstay : ∀ c : CubeId, ¬ (((s.cube c).frame (s.cube c).running).task.isNone = true ∧
      ((s.cube c).frame (otherF (s.cube c).running)).task.isSome = true) := fun c hc => by
    have hnone : ((s.cube c).frame (otherF (s.cube c).running)).task = none := h c _
    simp [hnone] at hc
  exact List.foldl_fixed' (fun c => if_neg (hstay c)) allCubes

/-- A gang fails in its record; where no record stands none changes. -/
theorem roster_failGang {s : State} (h : s.hub.recs = []) (c : CubeId) (f : FrameId) (cause : Nat) (t2 : Word) :
    (failGang s c f cause t2).roster = s.roster := by
  have hmod : ∀ (part id : Nat) (g : Rec → Rec) (u : State), u.hub.recs = [] → (modRec u part id g).roster = u.roster := by
    intro part id g u hu
    simp [State.roster, modRec, hu]
  unfold failGang
  dsimp only
  split
  next t ht =>
    have hgang : (modGang s t.part t.launch t.gang fun g => { g with err := g.err <|> some (cause, t2, (s.frame c f).ctl.taskid) }).roster =
        s.roster := hmod _ _ _ s h
    have hrecs := (State.roster_eq_iff.mp hgang).1.trans h
    have hboth := (hmod t.part t.launch (fun k => { k with err := k.err <|> some (cause, t2, (s.frame c f).ctl.taskid) }) _ hrecs).trans hgang
    split
    · exact (roster_tellSpan ..).trans hboth
    · exact hboth
  next => rfl

theorem roster_switchCore {s : State} (h : s.hub.recs = []) (c : CubeId) : (switchCore s c).roster = s.roster := by
  unfold switchCore
  dsimp only
  split
  · split
    next s' hload =>
      have hs' : s'.roster = s.roster := by
        unfold loadFrame at hload
        dsimp only at hload
        split at hload
        · exact absurd hload (by simp)
        · rw [← Option.some.inj hload]; rfl
      refine Eq.trans ?_ hs'
      unfold askLeave
      dsimp only
      split <;> rfl
    next => exact roster_failGang (by exact h) c _ 0 0
  · rfl

theorem roster_turnCores {s : State} (h : s.hub.recs = []) : (turnCores s).roster = s.roster := by
  have hfold : ∀ (l : List CubeId) (u : State), u.roster = s.roster → (l.foldl (fun s c =>
      let q := s.cube c
      if (q.frame q.running).task.isNone ∧ (q.frame (otherF q.running)).task.isSome then switchCore s c else s) u).roster = s.roster := by
    intro l
    induction l with
    | nil => exact fun u hu => hu
    | cons c l ih =>
      intro u hu
      rw [List.foldl_cons]
      refine ih _ ?_
      dsimp only
      split
      · exact (roster_switchCore ((State.roster_eq_iff.mp hu).1.trans h) c).trans hu
      · exact hu
  exact hfold allCubes s rfl

/-! Records changed by name. -/

/-- A change of the record of a name. -/
def onRec (part id : Nat) (g : Rec → Rec) (r : Rec) : Rec := if r.part = part && r.id = id then g r else r

theorem onRec_named (k : Rec) (g : Rec → Rec) : onRec k.part k.id g k = g k := by simp [onRec]
theorem onRec_other {k j : Rec} (h : k.id ≠ j.id) (part : Nat) (g : Rec → Rec) : onRec part k.id g j = j := by
  simp [onRec, h.symm]

theorem modRec_recs (s : State) (part id : Nat) (g : Rec → Rec) : (modRec s part id g).hub.recs = s.hub.recs.map (onRec part id g) := rfl

/-- Two changes of one record, of which the first keeps its name, are one. -/
theorem onRec_onRec {part id : Nat} {g h : Rec → Rec} (hname : ∀ r, (g r).part = r.part ∧ (g r).id = r.id) (r : Rec) :
    onRec part id h (onRec part id g r) = onRec part id (fun r => h (g r)) r := by
  obtain ⟨hp, hi⟩ := hname r
  by_cases hr : (r.part = part && r.id = id) = true
  · simp only [onRec, hr, hp, hi, if_true]
  · rw [onRec, onRec, if_neg hr, if_neg hr, onRec, if_neg hr]

theorem map_onRec_onRec {part id : Nat} {g h : Rec → Rec} (hname : ∀ r, (g r).part = r.part ∧ (g r).id = r.id) (l : List Rec) :
    (l.map (onRec part id g)).map (onRec part id h) = l.map (onRec part id fun r => h (g r)) := by
  rw [List.map_map]
  exact List.map_congr_left fun r _ => onRec_onRec hname r

/-! A record that ends by force (R383, R392). -/

/-- A record without a gang, and without the gangs of a list. -/
def Rec.dropGang (r : Rec) (gi : Nat) : Rec := { r with gangs := r.gangs.filter (·.idx ≠ gi), doneN := r.doneN + 1 }
def Rec.dropGangs (l : List Gang) (r : Rec) : Rec := l.foldl (fun r g => r.dropGang g.idx) r

/-- A record ended at once: none of its gangs is still to be admitted, and it reports CAUSE 0. -/
def Rec.forced (r : Rec) : Rec :=
  { r with err := some (0, 0, 0), depFail := false, cancelled := r.cancelled + (r.total - r.next), next := r.total
           doneAt := List.range r.total }
/-- A record that asks for no hold of a span. -/
def Rec.unasked (r : Rec) : Rec := { r with asked := [], holds := [], chosen := none }

/-- A record as `abortRec` leaves it. -/
def Rec.aborted (l : List Gang) (r : Rec) : Rec := ((r.dropGangs l).forced).unasked

/-- What names a record and says what it is, which its course does not change. -/
def Rec.label (r : Rec) : Nat × Nat × List Word × Nat := (r.part, r.id, r.words, r.home)

theorem Rec.dropGangs_label (l : List Gang) (r : Rec) : (r.dropGangs l).label = r.label :=
  foldl_keeps (f := fun (r : Rec) (g : Gang) => r.dropGang g.idx) Rec.label (fun _ _ => rfl) l r
theorem Rec.aborted_label (l : List Gang) (r : Rec) : (r.aborted l).label = r.label := r.dropGangs_label l

theorem Rec.mem_dropGangs {x : Gang} : ∀ {l : List Gang} {r : Rec}, x ∈ (r.dropGangs l).gangs → x ∈ r.gangs ∧ ∀ g ∈ l, x.idx ≠ g.idx
  | [], _, h => ⟨h, fun _ hg => absurd hg (List.not_mem_nil)⟩
  | g :: l, r, h => by
    obtain ⟨hx, hl⟩ := Rec.mem_dropGangs (l := l) (r := r.dropGang g.idx) h
    obtain ⟨hr, hg⟩ := List.mem_filter.mp hx
    exact ⟨hr, List.forall_mem_cons.mpr ⟨by simpa using hg, hl⟩⟩

/-- All of a record's own gangs dropped, none is left. -/
theorem Rec.aborted_gangs (r : Rec) : (r.aborted r.gangs).gangs = [] :=
  List.eq_nil_iff_forall_not_mem.mpr fun x hx => by
    obtain ⟨hr, hne⟩ := Rec.mem_dropGangs (l := r.gangs) (r := r) hx
    exact hne x hr rfl

/-- A record that has ended by force: it is over, with an error. -/
structure Rec.Ended (r : Rec) : Prop where
  gangs : r.gangs = []
  doneAt : r.total ≤ r.doneAt.length
  next : r.total ≤ r.next
  err : r.err.isSome = true

theorem Rec.ended_aborted (r : Rec) : (r.aborted r.gangs).Ended where
  gangs := r.aborted_gangs
  doneAt := by rw [show (r.aborted r.gangs).doneAt = List.range (r.aborted r.gangs).total from rfl, List.length_range]
  next := le_of_eq rfl
  err := rfl

theorem Rec.Ended.recOver {r : Rec} (h : r.Ended) : recOver r = true := by
  have hdone := h.doneAt
  simp only [Machine.recOver, h.gangs, h.next, List.isEmpty_nil, Bool.true_and, Bool.and_true, decide_true, decide_eq_true_eq]
  omega

/-! What the end of a record does to the records. -/

/-- The partitions and the package's own identifier. -/
def State.site (s : State) : List Part × Nat := (s.hub.parts, s.pkg)

theorem State.recs_of_roster {s t : State} (h : t.roster = s.roster) : t.hub.recs = s.hub.recs := (State.roster_eq_iff.mp h).1
theorem State.site_of_roster {s t : State} (h : t.roster = s.roster) : t.site = s.site := congrArg Prod.snd h

/-- The frames of a gang freed, and its parked members forgotten (R33, R35). -/
def freeMembers (s : State) (k : Rec) (gi : Nat) : State :=
  (gangFrames s k.part k.id gi).foldl (fun s (c, f) => freeFrame (closeMsgs s c f) c f false) s
def forgetParked (s : State) (k : Rec) (gi : Nat) : State :=
  allCubes.foldl (fun s c => s.modCube c fun q =>
    { q with parked := q.parked.filter fun p => !(p.task.part = k.part && p.task.launch = k.id && p.task.gang = gi) }) s

/-- The record of a name leaves its queue (R348). -/
def leaveByName (s : State) (part id : Nat) : State := match findRec s part id with | some k => leaveQueue s k | none => s

section
variable (s : State) (k : Rec)

theorem roster_freeMembers (gi : Nat) : (freeMembers s k gi).roster = s.roster := by
  refine foldl_keeps State.roster (fun u x => ?_) _ s
  exact (roster_freeFrame (closeMsgs u x.1 x.2) x.1 x.2 false).trans (roster_closeMsgs u x.1 x.2)

theorem roster_forgetParked (gi : Nat) : (forgetParked s k gi).roster = s.roster :=
  foldl_keeps State.roster (fun _ _ => rfl) allCubes s

theorem roster_leaveByName (part id : Nat) : (leaveByName s part id).roster = s.roster := by
  unfold leaveByName
  split
  · exact roster_leaveQueue ..
  · rfl

theorem releaseGang_eq (gi : Nat) : releaseGang s k gi = dropResv (dropHold (modRec (forgetParked (freeMembers s k gi) k gi) k.part k.id
    fun k => k.dropGang gi) k.part k.id) k.part k.id gi := rfl

theorem roster_membersFreed (gi : Nat) : (forgetParked (freeMembers s k gi) k gi).roster = s.roster :=
  (roster_forgetParked ..).trans (roster_freeMembers ..)

theorem releaseGang_recs (gi : Nat) :
    (releaseGang s k gi).hub.recs = s.hub.recs.map (onRec k.part k.id fun r => r.dropGang gi) := by
  rw [← State.recs_of_roster (roster_membersFreed s k gi), releaseGang_eq]
  rfl

theorem releaseGang_site (gi : Nat) : (releaseGang s k gi).site = s.site := by
  rw [← State.site_of_roster (roster_membersFreed s k gi), releaseGang_eq]
  rfl

theorem releaseGangs_recs : ∀ (l : List Gang) (s : State),
    (l.foldl (fun s g => releaseGang s k g.idx) s).hub.recs = s.hub.recs.map (onRec k.part k.id (Rec.dropGangs l))
  | [], s => by
    have hid : onRec k.part k.id (Rec.dropGangs []) = id := funext fun r => by simp [onRec, Rec.dropGangs]
    rw [hid, List.map_id]; rfl
  | g :: l, s => by
    rw [List.foldl_cons, releaseGangs_recs l, releaseGang_recs]
    exact map_onRec_onRec (g := fun r => r.dropGang g.idx) (h := Rec.dropGangs l) (fun _ => ⟨rfl, rfl⟩) s.hub.recs

theorem releaseGangs_site (l : List Gang) : (l.foldl (fun s g => releaseGang s k g.idx) s).site = s.site :=
  foldl_keeps State.site (f := fun s (g : Gang) => releaseGang s k g.idx) (fun u g => releaseGang_site u k g.idx) l s

/-- The gangs of a record released, and it ended by force. -/
def endByForce (s : State) (k : Rec) : State :=
  modRec (k.gangs.foldl (fun s g => releaseGang s k g.idx) s) k.part k.id Rec.forced

theorem abortRec_eq (hspan : k.isSpan = false) :
    abortRec s k = releaseHolds (leaveByName (endByForce s k) k.part k.id) k := by
  unfold abortRec
  simp only [hspan]
  rfl

theorem abortRec_recs (hspan : k.isSpan = false) : (abortRec s k).hub.recs = s.hub.recs.map (onRec k.part k.id (Rec.aborted k.gangs)) := by
  have hname : ∀ r, (Rec.dropGangs k.gangs r).part = r.part ∧ (Rec.dropGangs k.gangs r).id = r.id := fun r =>
    ⟨congrArg Prod.fst (r.dropGangs_label k.gangs), congrArg (·.2.1) (r.dropGangs_label k.gangs)⟩
  have hleft : (dropHold (leaveByName (endByForce s k) k.part k.id) k.part k.id).hub.recs = (endByForce s k).hub.recs :=
    State.recs_of_roster (roster_leaveByName (endByForce s k) k.part k.id)
  rw [abortRec_eq s k hspan, releaseHolds, modRec_recs, hleft, endByForce, modRec_recs, releaseGangs_recs,
    map_onRec_onRec (g := Rec.dropGangs k.gangs) (h := Rec.forced) hname]
  exact map_onRec_onRec (g := fun r => (r.dropGangs k.gangs).forced) (h := Rec.unasked) hname s.hub.recs

theorem abortRec_site (hspan : k.isSpan = false) : (abortRec s k).site = s.site := by
  rw [abortRec_eq s k hspan]
  exact (State.site_of_roster (roster_leaveByName (endByForce s k) k.part k.id)).trans (releaseGangs_site s k k.gangs)

end

/-! A record completes (R341 to R343). -/

/-- The completion of a record made known: its completion record and its vector. -/
def reported (s : State) (k : Rec) (st : Nat) : State :=
  let s := writeCpl s k st
  if Nat.testBit (k.word 13) 15 then s.modHub fun h => raiseMsix h k.part (bits (k.word 13) 0 11) else s

/-- The record retained by its partition and gone from the hub and the dictionary store. -/
def retired (s : State) (k : Rec) (st : Nat) : State :=
  let s := modPart s k.part fun d => { d with retained := ((k.id, st) :: d.retained).take 4096 }
  let s := s.modHub fun h => { h with
    recs := h.recs.filter fun x => !(x.part = k.part && x.id = k.id)
    phases := h.phases.filter fun p => !(p.part = k.part && p.launch = k.id)
    resv := h.resv.filter fun r => !(r.part = k.part && r.launch = k.id) }
  allCubes.foldl (fun s c => s.modCube c fun q =>
    { q with dict := q.dict.map fun d => if d.owner = some (k.part, k.id) then { d with owner := none } else d }) s

/-- A record whose dependence has not completed well is cancelled (R343). -/
def failDependent (s : State) (o : Rec) : State := cancelRest (modRec s o.part o.id fun o => { o with depFail := true }) o

section
variable (s : State) (k : Rec)

theorem roster_reported (st : Nat) : (reported s k st).roster = s.roster := by
  unfold reported
  dsimp only
  split
  · exact (roster_raiseMsix ..).trans (roster_writeCpl ..)
  · exact roster_writeCpl ..

theorem retired_recs (st : Nat) : (retired s k st).hub.recs = s.hub.recs.filter fun x => !(x.part = k.part && x.id = k.id) :=
  foldl_keeps (fun u : State => u.hub.recs) (fun _ _ => rfl) allCubes _

theorem retired_site (st : Nat) : (retired s k st).site =
    (modPart s k.part fun d => { d with retained := ((k.id, st) :: d.retained).take 4096 }).site :=
  foldl_keeps State.site (fun _ _ => rfl) allCubes _

theorem retired_pkg (st : Nat) : (retired s k st).pkg = s.pkg := foldl_keeps State.pkg (fun _ _ => rfl) allCubes _

/-- A record that is over and ended with an error completes with STATE 4, and those that depend on it fail. -/
theorem recordCompleteRun_of_err {s : State} {k : Rec} (hk : findRec s k.part k.id = some k) (hhome : k.home = s.pkg) (hover : recOver k = true)
    (hdep : k.depFail = false) (herr : k.err.isSome = true) : recordCompleteRun s k.part k.id =
      ((retired (reported s k 4) k 4).hub.recs.filter fun o => o.part = k.part && o.deps.contains k.id).foldl failDependent
        (retired (reported s k 4) k 4) := by
  unfold recordCompleteRun
  simp only [hk, hhome, hover, hdep, herr, ne_eq, not_true_eq_false, Bool.not_true, Bool.false_eq_true, or_self, if_false, if_true]
  rfl

/-- A record that a dependence of its own has failed. -/
def Rec.dependenceFailed (r : Rec) : Rec := { r with depFail := true, cancelled := r.cancelled + (r.total - r.next), next := r.total }

theorem failDependent_recs (hspan : k.isSpan = false) :
    (failDependent s k).hub.recs = s.hub.recs.map (onRec k.part k.id Rec.dependenceFailed) := by
  unfold failDependent cancelRest
  simp only [hspan, Bool.false_eq_true, if_false]
  rw [State.recs_of_roster (roster_leaveQueue ..)]
  exact map_onRec_onRec (g := fun o => { o with depFail := true })
    (h := fun k => { k with cancelled := k.cancelled + (k.total - k.next), next := k.total }) (fun _ => ⟨rfl, rfl⟩) s.hub.recs

theorem failDependent_site (hspan : k.isSpan = false) : (failDependent s k).site = s.site := by
  unfold failDependent cancelRest
  simp only [hspan, Bool.false_eq_true, if_false]
  rw [State.site_of_roster (roster_leaveQueue ..)]
  rfl

end

theorem partOf_modPart (s : State) (p : Nat) (g : Part → Part) : partOf (modPart s p g) p = (partOf s p).map g := by
  simp only [partOf, modPart, State.modHub_hub, List.getElem?_map, List.getElem?_zipIdx]
  cases s.hub.parts[p]? <;> simp

theorem partOf_of_site {s t : State} (h : t.site = s.site) (p : Nat) : partOf t p = partOf s p := by
  rw [partOf, partOf, show t.hub.parts = s.hub.parts from congrArg Prod.fst h]

section
variable {part id : Nat} {g : Rec → Rec} (hname : ∀ r, (g r).part = r.part ∧ (g r).id = r.id)
include hname

theorem onRec_keeps_name (r : Rec) : (onRec part id g r).part = r.part ∧ (onRec part id g r).id = r.id := by
  unfold onRec
  split
  · exact hname r
  · exact ⟨rfl, rfl⟩

theorem findRec_modRec (s : State) : findRec (modRec s part id g) part id = (findRec s part id).map g := by
  have hcomp : ((fun r : Rec => r.part = part && r.id = id) ∘ onRec part id g) = fun r => decide (r.part = part) && decide (r.id = id) :=
    funext fun r => by simp [onRec_keeps_name hname r]
  simp only [findRec, modRec_recs, List.find?_map, hcomp]
  cases hfind : s.hub.recs.find? fun r => r.part = part && r.id = id with
  | none => rfl
  | some r =>
    have hr := List.find?_some hfind
    exact congrArg some (if_pos hr)

/-- A change of one record leaves the others. -/
theorem filter_map_onRec (l : List Rec) : ((l.map (onRec part id g)).filter fun x => !(x.part = part && x.id = id)) =
    l.filter fun x => !(x.part = part && x.id = id) := by
  induction l with
  | nil => rfl
  | cons r l ih =>
    obtain ⟨hp, hi⟩ := onRec_keeps_name (part := part) (id := id) hname r
    rw [List.map_cons, List.filter_cons, List.filter_cons, ih, hp, hi]
    split
    next h =>
      have hother : onRec part id g r = r := if_neg fun hn => by rw [hn] at h; exact absurd h (by decide)
      rw [hother]
    next => rfl

end

/-! A reset of a function (R392). -/

/-- A record whose dependences no longer count. -/
def Rec.undepend (r : Rec) : Rec := { r with depFail := false }

/-- A record that a reset of its function has ended completes, whatever its dependences. -/
def completeAborted (s : State) (p id : Nat) : State := recordCompleteRun (modRec s p id Rec.undepend) p id

/-- A queue without its pending records; a partition's queues emptied. -/
def Queue.emptied (x : Queue) : Queue := { x with pend := [], aged := false }
def emptyQueue (s : State) (p q : Nat) : State := if queuePart s q = some p then modQueue s q Queue.emptied else s
def emptyQueues (s : State) (p : Nat) : State := (List.range 64).foldl (fun s q => emptyQueue s p q) s

theorem flrRun_eq (s : State) (p : Nat) : flrRun s p =
    let l := s.hub.recs.filter fun k => k.part = p
    turnCores (emptyQueues ((l.foldl (fun s k => completeAborted s p k.id) (l.foldl abortRec s)).modHub fun h =>
      { h with recs := h.recs.filter fun k => k.part ≠ p }) p) := rfl

theorem exec_functionLevelReset {s : State} (hpow : s.teasel.power = true) (p : Fin 4) :
    exec (.functionLevelReset p) s = .next (flrRun s p.val) := powered_of_power hpow _

/-- A partition that retains one more record (R341). -/
def Part.retain (id st : Nat) (d : Part) : Part := { d with retained := ((id, st) :: d.retained).take 4096 }

theorem Part.retain_retain (a b st : Nat) (d : Part) :
    (d.retain a st).retain b st = { d with retained := ((b, st) :: (a, st) :: d.retained).take 4096 } := by
  simp [Part.retain, List.take_take]

/-- A record that has ended by force completes with STATE 4: it leaves the hub, its partition retains it, and the records that depend on
it fail. -/
theorem completeAborted_of_ended {s : State} {k : Rec} (hk : findRec s k.part k.id = some k) (hhome : k.home = s.pkg) (hend : k.Ended) :
    ∃ u, (u.hub.recs = s.hub.recs.filter fun x => !(x.part = k.part && x.id = k.id)) ∧
      partOf u k.part = (partOf s k.part).map (Part.retain k.id 4) ∧ u.pkg = s.pkg ∧
      completeAborted s k.part k.id = (u.hub.recs.filter fun o => o.part = k.part && o.deps.contains k.id).foldl failDependent u := by
  let v := modRec s k.part k.id Rec.undepend
  let u := reported v k.undepend 4
  have hname : ∀ r : Rec, r.undepend.part = r.part ∧ r.undepend.id = r.id := fun _ => ⟨rfl, rfl⟩
  have hroster : u.roster = v.roster := roster_reported v k.undepend 4
  have hk' : findRec v k.part k.id = some k.undepend := by rw [findRec_modRec hname, hk]; rfl
  have hover : recOver k.undepend = true := Rec.Ended.recOver ⟨hend.gangs, hend.doneAt, hend.next, hend.err⟩
  refine ⟨retired u k.undepend 4, ?_, ?_, ?_, recordCompleteRun_of_err (k := k.undepend) hk' hhome hover rfl hend.err⟩
  · rw [retired_recs, State.recs_of_roster hroster]
    exact filter_map_onRec hname s.hub.recs
  · rw [partOf_of_site (retired_site u k.undepend 4)]
    refine (partOf_modPart ..).trans ?_
    rw [partOf_of_site (State.site_of_roster hroster)]
    rfl
  · rw [retired_pkg]
    exact congrArg Prod.snd (State.site_of_roster hroster)

/-! Queues emptied (R392). -/

theorem modQueue_queue (s : State) {n : Nat} (hn : n < 64) (g : Queue → Queue) (q : Fin 64) :
    (modQueue s n g).hub.queues[q] = if q.val = n then g s.hub.queues[q] else s.hub.queues[q] := by
  have hmod : n % 64 = n := Nat.mod_eq_of_lt hn
  simp only [modQueue, State.modHub_hub, Fin.getElem_fin, Vector.getElem_set, hmod]
  by_cases h : q.val = n
  · subst h
    simp [List.getD_eq_getElem?_getD]
  · simp [h, Ne.symm h]

theorem queuePart_of_site {s t : State} (h : t.site = s.site) (q : Nat) : queuePart t q = queuePart s q := by
  rw [queuePart, queuePart, show t.hub.parts = s.hub.parts from congrArg Prod.fst h]

theorem emptyQueue_keeps {α : Type} (g : State → α) (h : ∀ s q f, g (modQueue s q f) = g s) (p : Nat) (s : State) (q : Nat) :
    g (emptyQueue s p q) = g s := by
  unfold emptyQueue
  split
  · exact h s q _
  · rfl

theorem emptyQueues_keeps {α : Type} (g : State → α) (h : ∀ s q f, g (modQueue s q f) = g s) (s : State) (p : Nat) :
    g (emptyQueues s p) = g s := foldl_keeps g (emptyQueue_keeps g h p) (List.range 64) s

theorem emptyQueues_queue (s : State) (p : Nat) (q : Fin 64) : (emptyQueues s p).hub.queues[q] =
    if queuePart s q.val = some p then s.hub.queues[q].emptied else s.hub.queues[q] := by
  have hfold : ∀ n, n ≤ 64 → ((List.range n).foldl (fun s q => emptyQueue s p q) s).hub.queues[q] =
      if q.val < n ∧ queuePart s q.val = some p then s.hub.queues[q].emptied else s.hub.queues[q] := by
    intro n
    induction n with
    | zero => exact fun _ => (if_neg fun h => Nat.not_lt_zero _ h.1).symm
    | succ n ih =>
      intro hn
      have hsite : ((List.range n).foldl (fun s q => emptyQueue s p q) s).site = s.site :=
        foldl_keeps State.site (emptyQueue_keeps State.site (fun _ _ _ => rfl) p) (List.range n) s
      rw [List.range_succ, List.foldl_append, List.foldl_cons, List.foldl_nil, emptyQueue, queuePart_of_site hsite]
      by_cases hq : q.val = n
      · subst hq
        by_cases hp : queuePart s q.val = some p
        · rw [if_pos hp, modQueue_queue _ hn, if_pos rfl, ih (by omega), if_neg (by omega), if_pos ⟨by omega, hp⟩]
        · rw [if_neg hp, ih (by omega), if_neg (fun h => hp h.2), if_neg (fun h => hp h.2)]
      · have hlt : q.val < n + 1 ↔ q.val < n := by omega
        simp only [hlt]
        rw [← ih (by omega)]
        split
        · rw [modQueue_queue _ hn, if_neg hq]
        · rfl
  rw [emptyQueues, hfold 64 le_rfl]
  simp only [q.isLt, true_and]

/-! A reset of a function without records, and with two. -/

/-- Without a record or a task a reset of a function empties its queues and does nothing else. -/
theorem flrRun_of_none {s : State} (p : Nat) (hrecs : s.hub.recs = []) (htask : ∀ c f, (s.frame c f).task = none) :
    flrRun s p = emptyQueues s p := by
  have hhub : (s.modHub fun h => { h with recs := h.recs.filter fun k => k.part ≠ p }) = s := by
    have hnone : (s.hub.recs.filter fun k => k.part ≠ p) = s.hub.recs := by rw [hrecs]; rfl
    simp only [State.modHub, hnone]
  have hcubes : (emptyQueues s p).cubes = s.cubes := emptyQueues_keeps State.cubes (fun _ _ _ => rfl) s p
  rw [flrRun_eq, hrecs]
  simp only [List.filter_nil, List.foldl_nil, hhub]
  refine turnCores_of_no_task fun c f => ?_
  rw [State.frame, State.cube, hcubes]
  exact htask c f

/-- An aborted record keeps its name, its words and its home. -/
theorem Rec.aborted_name (r : Rec) (l : List Gang) :
    (r.aborted l).part = r.part ∧ (r.aborted l).id = r.id ∧ (r.aborted l).words = r.words ∧ (r.aborted l).home = r.home := by
  simpa [Rec.label] using r.aborted_label l

theorem Rec.isSpan_of_words {r t : Rec} (h : r.words = t.words) : r.isSpan = t.isSpan := by
  have hw : r.word 0 = t.word 0 := by rw [Rec.word, Rec.word, h]
  rw [Rec.isSpan, Rec.isSpan, Rec.ctrl, Rec.ctrl, hw]
theorem Rec.deps_of_words {r t : Rec} (h : r.words = t.words) : r.deps = t.deps := by simp only [Rec.deps, Rec.ctrl, Rec.word, h]

/-- Both records ended by force: each as `abortRec` leaves it. -/
theorem abort_two {s : State} {k j : Rec} (hrecs : s.hub.recs = [k, j]) (hne : k.id ≠ j.id) (hk : k.isSpan = false) (hj : j.isSpan = false) :
    (abortRec (abortRec s k) j).hub.recs = [k.aborted k.gangs, j.aborted j.gangs] ∧ (abortRec (abortRec s k) j).site = s.site := by
  have hid : j.id ≠ (k.aborted k.gangs).id := by rw [(k.aborted_name k.gangs).2.1]; exact hne.symm
  refine ⟨?_, (abortRec_site _ j hj).trans (abortRec_site s k hk)⟩
  rw [abortRec_recs _ j hj, abortRec_recs s k hk, hrecs]
  simp only [List.map_cons, List.map_nil, onRec_named, onRec_other hne, onRec_other hid]

theorem Rec.ended_dependenceFailed {r : Rec} (h : r.Ended) : r.dependenceFailed.Ended := ⟨h.gangs, h.doneAt, le_of_eq rfl, h.err⟩

/-- The first of two ended records completes, and the second, which depends on it, fails. -/
theorem completeAborted_first {s : State} {a b : Rec} {p : Nat} (hrecs : s.hub.recs = [a, b]) (ha : a.part = p) (hb : b.part = p)
    (hne : a.id ≠ b.id) (hdep : a.id ∈ b.deps) (hspan : b.isSpan = false) (hhome : a.home = s.pkg) (hend : a.Ended) :
    (completeAborted s p a.id).hub.recs = [b.dependenceFailed] ∧ (completeAborted s p a.id).pkg = s.pkg ∧
      partOf (completeAborted s p a.id) p = (partOf s p).map (Part.retain a.id 4) := by
  subst ha
  have hfind : findRec s a.part a.id = some a := by simp [findRec, hrecs]
  obtain ⟨u, hu, hpart, hpkg, hrun⟩ := completeAborted_of_ended hfind hhome hend
  have hleft : u.hub.recs = [b] := by rw [hu, hrecs]; simp [hne.symm]
  have hfails : (u.hub.recs.filter fun o => o.part = a.part && o.deps.contains a.id) = [b] := by rw [hleft]; simp [hb, hdep]
  have hsite := failDependent_site u b hspan
  rw [hrun, hfails]
  refine ⟨?_, (congrArg Prod.snd hsite).trans hpkg, (partOf_of_site hsite _).trans hpart⟩
  rw [List.foldl_cons, List.foldl_nil, failDependent_recs u b hspan, hleft, List.map_cons, List.map_nil, onRec_named]

/-- The last ended record completes. -/
theorem completeAborted_last {s : State} {b : Rec} {p : Nat} (hrecs : s.hub.recs = [b]) (hb : b.part = p) (hhome : b.home = s.pkg)
    (hend : b.Ended) :
    (completeAborted s p b.id).hub.recs = [] ∧ partOf (completeAborted s p b.id) p = (partOf s p).map (Part.retain b.id 4) := by
  subst hb
  obtain ⟨u, hu, hpart, -, hrun⟩ := completeAborted_of_ended (findRec_of_single hrecs) hhome hend
  have hleft : u.hub.recs = [] := by rw [hu, hrecs]; simp
  rw [hrun, hleft]
  exact ⟨hleft, hpart⟩

/-- Two records of a partition, the second dependent on the first: both end in STATE 4. -/
theorem completeAborted_two {s : State} {p : Nat} {k j : Rec} (hrecs : s.hub.recs = [k, j]) (hne : k.id ≠ j.id) (hdep : k.id ∈ j.deps)
    (hk : k.part = p ∧ k.home = s.pkg ∧ k.isSpan = false) (hj : j.part = p ∧ j.home = s.pkg ∧ j.isSpan = false) :
    let u := completeAborted (completeAborted (abortRec (abortRec s k) j) p k.id) p j.id
    u.hub.recs = [] ∧ partOf u p = (partOf s p).map fun d => (d.retain k.id 4).retain j.id 4 := by
  obtain ⟨hkp, hkh, hks⟩ := hk
  obtain ⟨hjp, hjh, hjs⟩ := hj
  obtain ⟨hap, hai, -, hah⟩ := k.aborted_name k.gangs
  obtain ⟨hbp, hbi, hbw, hbh⟩ := j.aborted_name j.gangs
  obtain ⟨hboth, hsite⟩ := abort_two hrecs hne hks hjs
  have hpkg : (abortRec (abortRec s k) j).pkg = s.pkg := congrArg Prod.snd hsite
  have hdep' : (k.aborted k.gangs).id ∈ (j.aborted j.gangs).deps := by rw [hai, Rec.deps_of_words hbw]; exact hdep
  obtain ⟨hone, hpkg₁, hpart₁⟩ := completeAborted_first hboth (hap.trans hkp) (hbp.trans hjp) (by rw [hai, hbi]; exact hne) hdep'
    ((Rec.isSpan_of_words hbw).trans hjs) (by rw [hah, hkh, hpkg]) k.ended_aborted
  obtain ⟨hnone, hpart₂⟩ := completeAborted_last hone (hbp.trans hjp) (by rw [hpkg₁, hpkg, ← hjh]; exact hbh)
    (Rec.ended_dependenceFailed j.ended_aborted)
  rw [hai] at hpart₁ hpart₂ hnone
  rw [show (Rec.aborted j.gangs j).dependenceFailed.id = j.id from hbi] at hpart₂ hnone
  refine ⟨hnone, ?_⟩
  rw [hpart₂, hpart₁, partOf_of_site hsite, Option.map_map]
  rfl

theorem flrRun_of_two {s : State} {p : Nat} {k j : Rec} (hrecs : s.hub.recs = [k, j]) (hne : k.id ≠ j.id) (hdep : k.id ∈ j.deps)
    (hk : k.part = p ∧ k.home = s.pkg ∧ k.isSpan = false) (hj : j.part = p ∧ j.home = s.pkg ∧ j.isSpan = false) :
    (flrRun s p).hub.recs = [] ∧ partOf (flrRun s p) p = (partOf s p).map fun d => (d.retain k.id 4).retain j.id 4 := by
  obtain ⟨hnone, hpart⟩ := completeAborted_two hrecs hne hdep hk hj
  have hmine : (s.hub.recs.filter fun k => k.part = p) = [k, j] := by rw [hrecs]; simp [hk.1, hj.1]
  rw [flrRun_eq, hmine]
  simp only [List.foldl_cons, List.foldl_nil]
  generalize completeAborted (completeAborted (abortRec (abortRec s k) j) p k.id) p j.id = u at hnone hpart ⊢
  have hempty : (emptyQueues (u.modHub fun h => { h with recs := h.recs.filter fun k => k.part ≠ p }) p).roster = ([], u.hub.parts, u.pkg) := by
    rw [emptyQueues_keeps State.roster fun _ _ _ => rfl, State.roster]
    simp [hnone]
  generalize emptyQueues (u.modHub fun h => { h with recs := h.recs.filter fun k => k.part ≠ p }) p = v at hempty ⊢
  have hroster := roster_turnCores (congrArg Prod.fst hempty)
  refine ⟨(State.recs_of_roster hroster).trans (congrArg Prod.fst hempty), ?_⟩
  rw [partOf_of_site (State.site_of_roster hroster), ← hpart]
  exact partOf_of_site (congrArg Prod.snd hempty) p

end Sys2Proof.Machine
end

section
open Sys2Proof Sys2Proof.Machine

/-- Settles O53: each clause is the lemma about its event's run above; a boot's are those of its stages, and the two records of a
reset of a function end one after the other by `completeAborted_two`. -/
theorem teaselSamplesAndBoots : Obligations.TeaselSamplesAndBoots := by
  unfold Obligations.TeaselSamplesAndBoots
  intro s
  refine ⟨fun values hpow hearly => ?_, fun values hpow hup hdue => ?_, fun c m v hpow => ?_, fun hpow hfall hdue => ?_, fun hpow hidle => ?_,
    fun i => ?_, fun p hpow hrecs htask => ?_, fun p k j d hpow hrecs hpart hne hdep hall => ?_, fun torn hpow => ?_, fun hpow hnot => ?_,
    fun hpow hrecov hbad => ?_, fun hpow hrecov hrec => ?_⟩
  · rw [exec_telemetrySample hpow, telemetryRun_early values hearly]
  · refine ⟨telemetryRecord s values, by rw [exec_telemetrySample hpow, telemetryRun_due values hup hdue], rfl, by simp [telemetryRecord],
      fun c => ⟨?_, ?_⟩, fun n hn => ?_⟩
    · exact (telemetryRecord_field s values c.val (by omega)).trans (by rw [sampledValues_step])
    · exact (telemetryRecord_field s values (4 + c.val) (by omega)).trans (by rw [sampledValues_limit])
    · exact (telemetryRecord_field s values (8 + n) (by omega)).trans (by rw [sampledValues_value s values n hn])
  · refine ⟨takeSample (s.cube c).mons[m] v, exec_monitorSample hpow c m v, rfl, rfl, rfl, fun i hbin => ?_⟩
    have hbins := takeSample_bins (binOf_eq i.isLt hbin)
    exact ⟨(hbins i).trans (if_pos rfl), fun j hj => (hbins j).trans (if_neg hj)⟩
  · refine ⟨watchdogRun s, exec_watchdogTimeout hpow, watchdogRun_mem hfall hdue, watchdogRun_hub hfall hdue,
      watchdogRun_fallback hfall hdue, watchdogRun_logSeq hfall hdue, fun c => ?_⟩
    rw [watchdogRun_cube hfall hdue c]
    obtain ⟨hlim, hstep, hcause⟩ := fallbackCube_camp (recordLimits s.teasel) (s.cube c)
    exact ⟨hlim, hstep, hcause, rfl, rfl⟩
  · rw [exec_watchdogTimeout hpow, watchdogRun_idle (hidle.imp_right fun h => by omega)]
  · intro key fl
    have h := restarted_bootRun s i
    refine ⟨bootRun s i, exec_powerOnReset s i, h.mem, h.poison, h.merge, h.recs, h.power, h.active, h.record, h.frame,
      fun hup c n hn => ?_, fun hup c z x => ?_, fun hup => ?_, bootRun_up_iff s i, bootRun_recov s i, fun hup c => ?_⟩
    · rw [bootRun_of_up hup]
      have hc := bootedCube_bootOn s i c
      refine ⟨hc.trimAt, (hc.trim n hn).trans ?_⟩
      cases (i.trim.getD c.val [])[n]? <;> rfl
    · rw [bootRun_of_up hup]
      have hc := bootedCube_bootOn s i c
      exact ⟨hc.lost, hc.phys z x⟩
    · rw [bootRun_of_up hup, bootOn_flash, coldState_flash]
    · have hrec := ((bootRun_up_iff s i).mp hup).2
      rw [bootRun_of_up hup]
      have hc := bootedCube_bootOn s i c
      exact ⟨hc.lim.trans (recordLimits_of_recordOk hrec), hc.ctl, hc.insvc⟩
  · refine ⟨emptyQueues s p.val, by rw [exec_functionLevelReset hpow, flrRun_of_none p.val hrecs htask],
      emptyQueues_keeps State.mem (fun _ _ _ => rfl) s p.val, emptyQueues_keeps State.cubes (fun _ _ _ => rfl) s p.val,
      (emptyQueues_keeps (fun u => u.hub.recs) (fun _ _ _ => rfl) s p.val).trans hrecs, emptyQueues_queue s p.val⟩
  · obtain ⟨hk, hj⟩ : (k.part = p.val ∧ k.home = s.pkg ∧ k.isSpan = false) ∧ (j.part = p.val ∧ j.home = s.pkg ∧ j.isSpan = false) :=
      ⟨hall k (by simp [hrecs]), hall j (by simp [hrecs])⟩
    obtain ⟨hnone, hretained⟩ := flrRun_of_two hrecs hne hdep hk hj
    refine ⟨flrRun s p.val, exec_functionLevelReset hpow p, hnone, ?_⟩
    rw [hretained, hpart, Option.map_some, Part.retain_retain]
  · exact ⟨powerLossRun s torn, exec_powerLoss hpow torn, rfl, rfl, powerLossRun_flash s torn⟩
  · rw [exec_recoverySubmit hpow, recoveryRun_of_not_recov hnot]
  · rw [exec_recoverySubmit hpow, recoveryRun_of_not_recoverable hrecov fun h => by simp [h.2.1.1] at hbad]
    rfl
  · intro fl byte img last
    have hiff : recoverable s.teasel (windowImage s.teasel) ↔ imageOk s.teasel.vendorKey img = true ∧ minSeq s.teasel ≤ imgSeq img ∧ last :=
      recoverable_of_recordOk hrec img
    rw [exec_recoverySubmit hpow]
    refine ⟨fun hbad => ?_, fun himg hseq hlast => ?_⟩
    · have hnot : ¬ recoverable s.teasel (windowImage s.teasel) := fun h => by
        obtain ⟨himg, hseq, hlast⟩ := hiff.mp h
        rcases hbad with h | h | h
        · exact absurd himg (by simp [h])
        · omega
        · exact h hlast
      rw [recoveryRun_of_not_recoverable hrecov hnot]
      rfl
    · have hgood := hiff.mpr ⟨himg, hseq, hlast⟩
      have h := recovered_bootRun hgood (freeBoot s.fresh)
      rw [recoveryRun_of_recoverable hrecov hgood]
      generalize bootRun (recovering s (windowImage s.teasel)) (freeBoot s.fresh) = u at h ⊢
      exact ⟨_, rfl, h.active, h.staging, h.record, rfl, h.recov, h.up, h.mem, h.recs, h.task⟩
end

section
/-! SUPPORT. The context block: bytes read after a write, the order in which its fields stand, and what a read of one field gives
back (R35, R84, R330). -/

namespace Sys2Proof.Machine

/-! A byte of memory after a write (R84). -/

/-- A write with some of its bytes replaced, address by address. -/
def MergeW.repaint (new : Nat → Option Byte) (w : MergeW) : MergeW :=
  { w with bytes := (List.range w.bytes.length).map fun i => (new (w.pa + i)).getD (w.bytes.getD i 0) }

theorem MergeW.covers_repaint (new : Nat → Option Byte) (w : MergeW) (a : Nat) : (w.repaint new).covers a = w.covers a := by
  simp [MergeW.covers, MergeW.repaint]

theorem MergeW.getD_repaint {new : Nat → Option Byte} {w : MergeW} {p : Nat} (h : w.covers p = true) :
    (w.repaint new).bytes.getD (p - w.pa) 0 = (new p).getD (w.bytes.getD (p - w.pa) 0) := by
  simp only [MergeW.covers, Bool.and_eq_true, decide_eq_true_eq] at h
  obtain ⟨hlo, hhi⟩ := h
  have hi : p - w.pa < w.bytes.length := by omega
  simp [MergeW.repaint, List.getD_eq_getElem?_getD, hi, Nat.add_sub_cancel' hlo]

/-- Memory and merge buffers overwritten alike: a byte reads as written there and as before elsewhere. -/
theorem mergedByte_overwrite {s t : State} {p : Nat} (new : Nat → Option Byte) (hmerge : t.merge = s.merge.map (MergeW.repaint new))
    (hmem : memByte t.mem p = (new p).getD (memByte s.mem p)) : mergedByte t p = (new p).getD (mergedByte s p) := by
  have hfind : t.merge.reverse.find? (·.covers p) = (s.merge.reverse.find? (·.covers p)).map (MergeW.repaint new) := by
    rw [hmerge, ← List.map_reverse, List.find?_map]
    congr 2
    funext w
    exact w.covers_repaint new p
  unfold mergedByte
  rw [hfind]
  cases h : s.merge.reverse.find? (·.covers p) with
  | none => exact hmem
  | some w =>
    have hcov : w.covers p = true := List.find?_some (p := fun x : MergeW => x.covers p) h
    exact MergeW.getD_repaint hcov

theorem mergedByte_gWrite (s : State) (a p : Nat) (l : List Byte) :
    mergedByte (gWrite s a l) p = if a ≤ p ∧ p < a + l.length then l.getD (p - a) 0 else mergedByte s p := by
  have key := mergedByte_overwrite (s := s) (t := gWrite s a l) (p := p)
    (fun p => if a ≤ p ∧ p < a + l.length then some (l.getD (p - a) 0) else none) (by
      rw [gWrite]
      refine List.map_congr_left fun w _ => ?_
      simp only [MergeW.repaint, Bool.and_eq_true, decide_eq_true_eq]
      congr 1
      refine List.map_congr_left fun i _ => ?_
      split <;> rfl) (by
      rw [gWrite, memByte_memSetList]
      split <;> rfl)
  rw [key]
  split <;> rfl

theorem fget_filter {α : Type} (d : α) (q : Nat → Bool) (k : Nat) : ∀ m : FMap α,
    fget d (m.filter fun e => q e.1) k = if q k then fget d m k else d
  | [] => by simp
  | (a, v) :: l => by
    have ih := fget_filter d q k l
    by_cases ha : a = k
    · subst ha
      by_cases hq : q a = true <;> simp [fget, hq, ih]
    · by_cases hq : q a = true <;> simp [fget, hq, ha, ih]

theorem mergedByte_clearRange (s : State) (a n p : Nat) :
    mergedByte (clearRange s a n) p = if a ≤ p ∧ p < a + n then 0 else mergedByte s p := by
  have key := mergedByte_overwrite (s := s) (t := clearRange s a n) (p := p)
    (fun p => if a ≤ p ∧ p < a + n then some 0 else none) (by
      rw [clearRange]
      refine List.map_congr_left fun w _ => ?_
      simp only [MergeW.repaint, Bool.and_eq_true, decide_eq_true_eq]
      congr 1
      refine List.map_congr_left fun i _ => ?_
      split <;> rfl) (by
      rw [clearRange, memByte, fget_filter memDefault (fun k => !(decide (a ≤ k) && decide (k < a + n)))]
      by_cases h : a ≤ p ∧ p < a + n <;> simp [h, memByte, memDefault])
  rw [key]
  split <;> rfl

/-- A read depends on the bytes that show alone. -/
theorem gRead_congr {s t : State} {a n : Nat} (h : ∀ i, i < n → mergedByte s (a + i) = mergedByte t (a + i)) :
    gRead s a n = gRead t a n := by
  rw [gRead, gRead, mergedVal, mergedVal, mergedBytes, mergedBytes, List.map_congr_left fun i hi => h i (List.mem_range.mp hi)]

theorem leVal_replicate_zero : ∀ n : Nat, leVal (List.replicate n 0) = 0
  | 0 => rfl
  | n + 1 => by rw [List.replicate_succ, leVal, leVal_replicate_zero n]; rfl

theorem gRead_of_zero {s : State} {a n : Nat} (h : ∀ i, i < n → mergedByte s (a + i) = 0) : gRead s a n = 0 := by
  have hbytes : mergedBytes s a n = List.replicate n 0 := by
    refine List.eq_replicate_iff.mpr ⟨by simp [mergedBytes], fun b hb => ?_⟩
    obtain ⟨i, hi, rfl⟩ := List.mem_map.mp hb
    exact h i (List.mem_range.mp hi)
  rw [gRead, mergedVal, hbytes, leVal_replicate_zero]

theorem gRead_of_parts {s t : State} (hm : s.mem = t.mem) (hw : s.merge = t.merge) (a n : Nat) : gRead s a n = gRead t a n := by
  simp only [gRead, mergedVal, mergedBytes, mergedByte, hm, hw]

/-! The fields of a block, written one after another (R330). -/

/-- One field written at a base; a zero is left to the block's clearing. -/
def putFld (base : Nat) (s : State) (e : Fld) : State := if e.2.2 = 0 then s else gWriteVal s (base + e.1) e.2.1 e.2.2
def putFlds (s : State) (base : Nat) (l : List Fld) : State := l.foldl (putFld base) s

theorem writeBlock_eq (s : State) (base : Nat) (l : List Fld) : writeBlock s base l = putFlds (clearRange s base blockBytes) base l := rfl

/-- Two fields share no byte. -/
def Fld.apart (e : Fld) (o n : Nat) : Prop := e.1 + e.2.1 ≤ o ∨ o + n ≤ e.1

theorem mergedByte_putFld {base p : Nat} {e : Fld} (s : State) (h : p < base + e.1 ∨ base + e.1 + e.2.1 ≤ p) :
    mergedByte (putFld base s e) p = mergedByte s p := by
  rw [putFld]
  split
  · rfl
  · rw [gWriteVal, mergedByte_gWrite, length_leBytes, if_neg (by omega)]

theorem mergedByte_putFlds {base p : Nat} : ∀ (l : List Fld) (s : State), (∀ e ∈ l, p < base + e.1 ∨ base + e.1 + e.2.1 ≤ p) →
    mergedByte (putFlds s base l) p = mergedByte s p
  | [], _, _ => rfl
  | e :: l, s, h => (mergedByte_putFlds l _ fun x hx => h x (List.mem_cons_of_mem e hx)).trans
      (mergedByte_putFld s (h e List.mem_cons_self))

/-- Bytes below a block's base do not change. -/
theorem mergedByte_writeBlock_below (s : State) (base : Nat) (l : List Fld) {p : Nat} (h : p < base) :
    mergedByte (writeBlock s base l) p = mergedByte s p := by
  rw [writeBlock_eq, mergedByte_putFlds l _ fun e _ => Or.inl (by omega), mergedByte_clearRange, if_neg (by omega)]

/-- A field that stands apart from every other field of the list reads as its value, zero or not, where it was zero before. -/
theorem gRead_putFlds {base o n v : Nat} : ∀ (l : List Fld) (s : State), (∀ i, i < n → mergedByte s (base + o + i) = 0 ∨ gRead s (base + o) n = v % 2 ^ (8 * n)) →
    (∀ e ∈ l, e = (o, n, v) ∨ e.apart o n) → (o, n, v) ∈ l ∨ gRead s (base + o) n = v % 2 ^ (8 * n) →
    gRead (putFlds s base l) (base + o) n = v % 2 ^ (8 * n)
  | [], s, _, _, h => h.elim (fun h => absurd h List.not_mem_nil) id
  | e :: l, s, hz, hl, h => by
    rw [putFlds, List.foldl_cons]
    have hrest : ∀ x ∈ l, x = (o, n, v) ∨ x.apart o n := fun x hx => hl x (List.mem_cons_of_mem e hx)
    by_cases he : e = (o, n, v)
    · have hread : gRead (putFld base s e) (base + o) n = v % 2 ^ (8 * n) := by
        subst he
        rw [putFld]
        split
        next hv =>
          dsimp only at hv
          subst hv
          by_cases hall : ∀ i, i < n → mergedByte s (base + o + i) = 0
          · rw [gRead_of_zero hall, Nat.zero_mod]
          · push Not at hall
            obtain ⟨i, hi, hne⟩ := hall
            exact (hz i hi).resolve_left hne
        next => exact gRead_gWriteVal s (base + o) n v
      exact gRead_putFlds l _ (fun i _ => Or.inr hread) hrest (Or.inr hread)
    · have hapart := (hl e List.mem_cons_self).resolve_left he
      have hbyte : ∀ i, i < n → mergedByte (putFld base s e) (base + o + i) = mergedByte s (base + o + i) := fun i hi =>
        mergedByte_putFld s (by rcases hapart with h | h <;> omega)
      have hread : gRead (putFld base s e) (base + o) n = gRead s (base + o) n := gRead_congr hbyte
      refine gRead_putFlds l _ (fun i hi => ?_) hrest ?_
      · rw [hbyte i hi, hread]; exact hz i hi
      · rw [hread]; exact h.imp_left fun h => (List.mem_cons.mp h).resolve_left (Ne.symm he)

/-- A field of a block that stands apart from the others reads as its value. -/
theorem gRead_writeBlock {base o n v : Nat} {l : List Fld} (s : State) (hmem : (o, n, v) ∈ l)
    (hl : ∀ e ∈ l, e = (o, n, v) ∨ e.apart o n) (hn : o + n ≤ blockBytes) :
    gRead (writeBlock s base l) (base + o) n = v % 2 ^ (8 * n) := by
  rw [writeBlock_eq]
  refine gRead_putFlds l _ (fun i hi => Or.inl ?_) hl (Or.inl hmem)
  rw [mergedByte_clearRange, if_pos (by omega)]

/-! Fields in rising order. -/

/-- Fields that follow one another in [lo, hi). -/
def Laid : Nat → List Fld → Nat → Prop
  | lo, [], hi => lo ≤ hi
  | lo, e :: l, hi => lo ≤ e.1 ∧ Laid (e.1 + e.2.1) l hi

theorem Laid.le : ∀ {lo hi : Nat} {l : List Fld}, Laid lo l hi → lo ≤ hi
  | _, _, [], h => h
  | _, _, _ :: _, ⟨h, hl⟩ => by have := hl.le; omega

theorem Laid.lower : ∀ {lo lo' hi : Nat} {l : List Fld}, lo' ≤ lo → Laid lo l hi → Laid lo' l hi
  | _, _, _, [], h, hl => Nat.le_trans h hl
  | _, _, _, _ :: _, h, ⟨h', hl⟩ => ⟨Nat.le_trans h h', hl⟩

theorem Laid.append : ∀ {lo mid hi : Nat} {l m : List Fld}, Laid lo l mid → Laid mid m hi → Laid lo (l ++ m) hi
  | _, _, _, [], _, hl, hm => hm.lower hl
  | _, _, _, _ :: _, _, ⟨h, hl⟩, hm => ⟨h, hl.append hm⟩

theorem Laid.within : ∀ {lo hi : Nat} {l : List Fld}, Laid lo l hi → ∀ e ∈ l, lo ≤ e.1 ∧ e.1 + e.2.1 ≤ hi
  | _, _, x :: l, ⟨h, hl⟩, e, he => by
    rcases List.mem_cons.mp he with rfl | he
    · exact ⟨h, hl.le⟩
    · obtain ⟨h1, h2⟩ := hl.within e he
      exact ⟨by omega, h2⟩

/-- Of fields in rising order each stands apart from every other. -/
theorem Laid.apart : ∀ {lo hi : Nat} {l : List Fld}, Laid lo l hi → ∀ e ∈ l, ∀ x ∈ l, x = e ∨ x.apart e.1 e.2.1
  | _, _, y :: l, ⟨_, hl⟩, e, he, x, hx => by
    rcases List.mem_cons.mp he with rfl | he' <;> rcases List.mem_cons.mp hx with rfl | hx'
    · exact Or.inl rfl
    · exact Or.inr (Or.inr (hl.within x hx').1)
    · exact Or.inr (Or.inl (hl.within e he').1)
    · exact hl.apart e he' x hx'

theorem gRead_writeBlock_of_laid {base o n v : Nat} {l : List Fld} (s : State) (hl : Laid 0 l blockBytes) (hmem : (o, n, v) ∈ l) :
    gRead (writeBlock s base l) (base + o) n = v % 2 ^ (8 * n) :=
  gRead_writeBlock s hmem (hl.apart _ hmem) (hl.within _ hmem).2

theorem laid_zipIdx {α : Type} {o step : Nat} {g : Nat → α → List Fld} : ∀ (l : List α) (k : Nat),
    (∀ i x, (x, i) ∈ l.zipIdx k → Laid (o + step * i) (g (o + step * i) x) (o + step * (i + 1))) →
    Laid (o + step * k) ((l.zipIdx k).flatMap fun (x, i) => g (o + step * i) x) (o + step * (k + l.length))
  | [], _, _ => Nat.le_refl _
  | x :: l, k, h => by
    rw [List.zipIdx_cons, List.flatMap_cons]
    have hrest := laid_zipIdx l (k + 1) fun i y hy => h i y (by rw [List.zipIdx_cons]; exact List.mem_cons_of_mem _ hy)
    rw [show k + 1 + l.length = k + (l.length + 1) by omega] at hrest
    exact (h k x (by rw [List.zipIdx_cons]; exact List.mem_cons_self)).append hrest

/-- An area whose entries each keep to their width. -/
theorem laid_area {α : Type} {o step : Nat} {g : Nat → α → List Fld} {l : List α}
    (h : ∀ i x, x ∈ l → Laid (o + step * i) (g (o + step * i) x) (o + step * (i + 1))) : Laid o (area o step g l) (o + step * l.length) := by
  have key := laid_zipIdx (o := o) (step := step) (g := g) l 0 fun i x hx => h i x (List.fst_mem_of_mem_zipIdx hx)
  simpa [area] using key

theorem mem_area {α : Type} {o step : Nat} {g : Nat → α → List Fld} {l : List α} {i : Nat} {x : α} {e : Fld} (hx : l[i]? = some x)
    (he : e ∈ g (o + step * i) x) : e ∈ area o step g l :=
  List.mem_flatMap.mpr ⟨(x, i), List.mem_zipIdx_iff_getElem?.mpr (by simpa using hx), he⟩

end Sys2Proof.Machine
end

section
/-! SUPPORT. The block of a frame with nothing in flight: where its fields stand, and what a frame read back from it holds
(R319, R330). -/

namespace Sys2Proof.Machine

theorem Laid.raise : ∀ {lo hi hi' : Nat} {l : List Fld}, Laid lo l hi → hi ≤ hi' → Laid lo l hi'
  | _, _, _, [], h, h' => Nat.le_trans h h'
  | _, _, _, _ :: _, ⟨h, hl⟩, h' => ⟨h, hl.raise h'⟩

theorem laid_one {o n v hi : Nat} (h : o + n ≤ hi) : Laid o [(o, n, v)] hi := ⟨Nat.le_refl o, h⟩

theorem area_nil {α : Type} (o step : Nat) (g : Nat → α → List Fld) : area o step g [] = [] := rfl

/-- An area of single fields. -/
theorem laid_words {α : Type} {o step n hi : Nat} {v : α → Nat} {l : List α} (hn : n ≤ step) (hhi : o + step * l.length ≤ hi) :
    Laid o (area o step (fun o x => [(o, n, v x)]) l) hi :=
  (laid_area fun i _ _ => laid_one (by rw [Nat.mul_add]; omega)).raise hhi

theorem laid_seqFlds {o : Nat} {l : SeqLevel} (h : l.pairs.length ≤ 4) : Laid o (seqFlds o l) (o + 96) := by
  refine Laid.append (mid := o + 32) (by simp [Laid]) ?_
  have hpairs := laid_area (o := o + 32) (step := 16) (l := l.pairs)
    (g := fun o (x : Reg × Word) => [(o, 8, x.1.toNat), (o + 8, 8, x.2.toNat)]) fun i _ _ => by simp [Laid]; omega
  refine Laid.raise ?_ (show o + 32 + 16 * l.pairs.length ≤ o + 96 by omega)
  have hoff : ∀ n, o + 32 + n + 8 = o + 40 + n := fun n => by omega
  simpa only [area, hoff] using hpairs

theorem laid_bufFlds (o : Nat) (b : Option Buf) : Laid o (bufFlds o b) (o + 16) := by
  cases b <;> simp [bufFlds, Laid]

/-- Nothing of a frame is in flight that its block would list. -/
structure Flight.Bare (x : Flight) : Prop where
  land : x.land = []
  ls : x.ls = []
  wdLs : x.wdLs = []
  cubeQ : x.cubeQ = []
  copyQ : x.copyQ = []
  syncQ : x.syncQ = []
  msgs : x.msgs = []
  resume : x.resume = Option.none

theorem bare_of_quiet {r : Frame} (h : r.quiet = true) : r.fl.Bare where
  land := quiet_land h
  ls := quiet_ls h
  wdLs := by rw [quiet_fl h]; rfl
  cubeQ := quiet_cubeQ h
  copyQ := quiet_copyQ h
  syncQ := quiet_syncQ h
  msgs := quiet_msgs h
  resume := by rw [quiet_fl h]; rfl

theorem forBlock_of_bare {r : Frame} (h : r.fl.Bare) : r.forBlock = r := by
  rw [Frame.forBlock, h.land, List.filter_nil, ← h.land]

/-- The fields of the block of a frame with nothing in flight follow one another. -/
theorem laid_blockFlds {r : Frame} (hb : r.fl.Bare) (hseq : ∀ l ∈ r.seq.toList, l.pairs.length ≤ 4) (now reason : Nat) :
    Laid 0 (blockFlds now r reason) blockBytes := by
  simp only [blockFlds, hb.msgs, hb.resume, hb.cubeQ, hb.copyQ, hb.ls, hb.wdLs, hb.land, hb.syncQ, area_nil,
    List.append_nil]
  refine .append (mid := offV) (.append (mid := offBufs) (.append (mid := offRegs) (.append (mid := offBar) (.append (mid := offRefusal)
    (.append (mid := offSem) (.append (mid := offSeq) (.append (mid := 0x40) (.append (mid := 0x20) ?head ?tinfo) ?ctl) ?seq) ?sem)
    ?refusal) ?bar) ?regs) ?bufs) ?v
  case head => simp [Laid, offPc]
  case tinfo => exact laid_words (by decide) (by simp)
  case ctl => simp [Laid, offFlags, offCounts, offSeq]
  case seq => exact (laid_area fun i x hx => (laid_seqFlds (hseq x hx)).raise (by omega)).raise (by simp [offSeq, offSem])
  case sem => exact laid_words (by decide) (by simp [offSem, offRefusal])
  case refusal => cases r.sync.refusal <;> simp [Laid, offRefusal, offBar]
  case bar => exact laid_words (by decide) (by simp [offBar, offRegs])
  case regs => exact laid_words (by decide) (by simp [offRegs, offBufs])
  case bufs => exact (laid_area fun i x _ => (laid_bufFlds _ x).raise (by omega)).raise (by simp [offBufs, offV])
  case v => exact laid_words (by decide) (by simp [offV, blockBytes])

/-- Memory holds the block of a frame. -/
def BlockHolds (s : State) (base now : Nat) (r : Frame) (reason : Nat) : Prop :=
  ∀ o n v, (o, n, v) ∈ blockFlds now r reason → gRead s (base + o) n = v % 2 ^ (8 * n)

theorem blockHolds_writeBlock {r : Frame} (hb : r.fl.Bare) (hseq : ∀ l ∈ r.seq.toList, l.pairs.length ≤ 4) (s : State)
    (base now reason : Nat) : BlockHolds (writeBlock s base (blockFlds now r reason)) base now r reason :=
  fun _ _ _ h => gRead_writeBlock_of_laid s (laid_blockFlds hb hseq now reason) h

section
variable {s : State} {base now reason : Nat} {r : Frame} (h : BlockHolds s base now r reason)
include h

/-- A word of the block. -/
theorem BlockHolds.word {o v : Nat} (hmem : (o, 8, v) ∈ blockFlds now r reason) : blk s base o = w64 v := by
  rw [blk, h o 8 v hmem, w64, w64]
  exact BitVec.eq_of_toNat_eq (by simp)

theorem BlockHolds.pc : blk s base offPc = r.issue.pc := by
  rw [h.word (v := r.issue.pc.toNat) (by simp [blockFlds]), w64, BitVec.ofNat_toNat, BitVec.setWidth_eq]
theorem BlockHolds.fmt : (blk s base 0x40).setWidth 16 = r.ctl.fmt := by
  rw [h.word (v := r.ctl.fmt.toNat) (by simp [blockFlds])]
  exact BitVec.eq_of_toNat_eq (by simp [w64])
theorem BlockHolds.fid : (blk s base 0x48).setWidth 6 = r.ctl.fid := by
  rw [h.word (v := r.ctl.fid.toNat) (by simp [blockFlds])]
  exact BitVec.eq_of_toNat_eq (by simp [w64])
theorem BlockHolds.fstat : (blk s base 0x50).setWidth 5 = r.ctl.fstat := by
  rw [h.word (v := r.ctl.fstat.toNat) (by simp [blockFlds])]
  exact BitVec.eq_of_toNat_eq (by simp [w64])
theorem BlockHolds.cstat : (blk s base 0x58).setWidth 2 = r.ctl.cstat := by
  rw [h.word (v := r.ctl.cstat.toNat) (by simp [blockFlds])]
  exact BitVec.eq_of_toNat_eq (by simp [w64])
theorem BlockHolds.flags : blk s base offFlags = w64 (predWord r) := h.word (by simp [blockFlds])
theorem BlockHolds.counts : blk s base offCounts = w64 (countsWord r) := h.word (by simp [blockFlds])

/-- Word i of the X, Y and A registers, one after another. -/
theorem BlockHolds.reg {i : Nat} {w : Word} (hw : (r.regs.x.toList ++ r.regs.y.toList ++ r.regs.a.toList)[i]? = some w) :
    blk s base (offRegs + 8 * i) = w := by
  have hmem : (offRegs + 8 * i, 8, w.toNat) ∈ area offRegs 8 (fun o (w : Word) => [(o, 8, w.toNat)])
      (r.regs.x.toList ++ r.regs.y.toList ++ r.regs.a.toList) := mem_area hw List.mem_cons_self
  rw [h.word (v := w.toNat) (by simp only [blockFlds, List.mem_append] at hmem ⊢; tauto), w64, BitVec.ofNat_toNat, BitVec.setWidth_eq]

theorem BlockHolds.vreg {i : Nat} (hi : i < 384) : blkV s base (offV + 256 * i) = r.regs.rdV i := by
  have hmem : (offV + 256 * i, 256, (r.regs.rdV i).toNat) ∈ area offV 256 (fun o (i : Nat) => [(o, 256, (r.regs.rdV i).toNat)])
      (List.range 384) := mem_area (List.getElem?_range hi) List.mem_cons_self
  rw [blkV, h _ 256 (r.regs.rdV i).toNat (by simp only [blockFlds, List.mem_append]; tauto)]
  rw [show 8 * 256 = 2048 from rfl, Nat.mod_eq_of_lt (r.regs.rdV i).isLt, BitVec.ofNat_toNat, BitVec.setWidth_eq]

end

end Sys2Proof.Machine
end

section
/-! SUPPORT. A quiet frame that traps, and the return from that trap (R318, R319). -/

namespace Sys2Proof.Machine

/-! The quiesce of a frame with nothing in flight (R318). -/

/-- Nothing of a frame is sent or started that the performing of a write could touch. -/
def Flight.unsent (x : Flight) : Prop := x.ls = [] ∧ x.fly = [] ∧ x.copyA = []

/-- What the performing of a write does to its owner's frame. -/
def ownerPerforms (id : Nat) (done : LsEnt → LsEnt) (r : Frame) : Frame :=
  let r := modLs r id done
  settle { r with fl := { r.fl with copyA := r.fl.copyA.map fun x =>
    if x.id = id then { x with line := x.line.map fun l => { l with st := .performed } } else x } }

theorem ownerPerforms_of_unsent {r : Frame} (h : r.fl.unsent) (id : Nat) (done : LsEnt → LsEnt) : ownerPerforms id done r = r := by
  obtain ⟨hls, hfly, hcopy⟩ := h
  obtain ⟨_, _, _, _, _, _, _, _, _, fl, _, _⟩ := r
  obtain ⟨_, _, _, _, _, _, _, _, _, _, _, _, _, _, _, _, _⟩ := fl
  simp_all [ownerPerforms, modLs, settle]

/-- A write that performs leaves a frame that has nothing sent, and the package's number. -/
theorem performWrite_frame {s : State} {c : CubeId} {f : FrameId} (h : (s.frame c f).fl.unsent) (mid : Nat) :
    (performWrite s mid).frame c f = s.frame c f ∧ (performWrite s mid).pkg = s.pkg := by
  unfold performWrite
  split
  · exact ⟨rfl, rfl⟩
  next w _ =>
    split
    · exact ⟨rfl, rfl⟩
    · split
      next c' f' id line _ =>
        have hmod : ∀ (u : State) (done : LsEnt → LsEnt), u.frame c f = s.frame c f →
            (u.modFrame (cubeOf c') (frameOf f') (ownerPerforms id done)).frame c f = s.frame c f := by
          intro u done hu
          rw [State.frame_modFrame]
          split
          next hcf => rw [← hcf.1, ← hcf.2, hu, ownerPerforms_of_unsent h]
          next => exact hu
        dsimp only
        split
        · exact ⟨hmod _ _ rfl, rfl⟩
        · exact ⟨hmod _ _ rfl, rfl⟩
      · unfold clearFull
        split <;> exact ⟨rfl, rfl⟩

theorem performWrites_frame {s : State} {c : CubeId} {f : FrameId} (h : (s.frame c f).fl.unsent) :
    (performWrites s).frame c f = s.frame c f ∧ (performWrites s).pkg = s.pkg := by
  have key : ∀ (l : List Nat) (u : State), u.frame c f = s.frame c f → u.pkg = s.pkg →
      (l.foldl performWrite u).frame c f = s.frame c f ∧ (l.foldl performWrite u).pkg = s.pkg := by
    intro l
    induction l with
    | nil => exact fun u hf hp => ⟨hf, hp⟩
    | cons mid l ih =>
      intro u hf hp
      obtain ⟨hf', hp'⟩ := performWrite_frame (s := u) (hf ▸ h) mid
      exact ih _ (hf'.trans hf) (hp'.trans hp)
  exact key _ s rfl rfl

/-- A frame with nothing in flight that has to end. -/
structure Flight.Rested (x : Flight) : Prop extends x.Bare where
  fly : x.fly = []
  var : x.var = []
  cubeA : x.cubeA = []
  copyA : x.copyA = []

theorem rested_of_quiet {r : Frame} (h : r.quiet = true) : r.fl.Rested where
  toBare := bare_of_quiet h
  fly := quiet_fly h
  var := quiet_var h
  cubeA := quiet_cubeA h
  copyA := quiet_copyA h

theorem restart_landArrived_of_rested {r : Frame} (h : r.fl.Rested) : restart (landArrived r) = r := by
  obtain ⟨⟨_, _, _, hcubeQ, hcopyQ, _, _, _⟩, _, hvar, hcubeA, hcopyA⟩ := h
  obtain ⟨_, _, _, _, _, _, _, _, _, fl, _, _⟩ := r
  obtain ⟨_, _, _, _, _, _, _, _, _, _, _, _, _, _, _, _, _⟩ := fl
  simp_all [restart, landArrived]

/-- The quiesce of a frame with nothing in flight performs the writes that stand and does nothing else. -/
theorem quiesce_of_rested {s : State} {c : CubeId} {f : FrameId} (h : (s.frame c f).fl.Rested) : quiesce s c f = performWrites s := by
  have hframe := (performWrites_frame (c := c) (f := f) ⟨h.ls, h.fly, h.copyA⟩).1
  have hengines : enginesFinish s c f = performWrites s := by
    simp [enginesFinish, h.cubeA, hframe, h.copyA, h.ls]
  have hmsgs : closeMsgs (sendGranted (performWrites s) c f) c f = performWrites s := by
    simp [closeMsgs, sendGranted, hframe, h.msgs]
  have hrest := restart_landArrived_of_rested (hframe.symm ▸ h)
  unfold quiesce
  simp only [h.ls, h.fly, h.copyA, List.length_nil, lsPasses, hengines, hmsgs, hframe, h.syncQ, syncRun]
  rw [modFrame_self _ _ _ _ hrest]
  exact landDue_of_none_due fun l hl => by rw [hframe, h.land] at hl; exact absurd hl List.not_mem_nil

/-! A frame saved (R324). -/

theorem gRead_of_sameMemory {s t : State} (h : t.mem = s.mem ∧ t.merge = s.merge) (a n : Nat) : gRead t a n = gRead s a n :=
  gRead_of_parts h.1 h.2 a n

/-- A block stands where nothing has touched memory since. -/
theorem BlockHolds.of_sameMemory {s t : State} {base now reason : Nat} {r : Frame} (h : BlockHolds s base now r reason)
    (hst : t.mem = s.mem ∧ t.merge = s.merge) : BlockHolds t base now r reason := fun o n v hmem =>
  (gRead_of_sameMemory hst _ _).trans (h o n v hmem)

theorem ctxBase_of_pkg {s t : State} (h : t.pkg = s.pkg) (p : Word) : ctxBase t p = ctxBase s p := by rw [ctxBase, ctxBase, h]

/-- A frame with nothing in flight is in its block once it has been saved. -/
theorem blockHolds_saveFrame {s : State} {c : CubeId} {f : FrameId} (hb : (s.frame c f).fl.Bare)
    (hseq : ∀ l ∈ (s.frame c f).seq.toList, l.pairs.length ≤ 4) (reason : Nat) :
    BlockHolds (saveFrame s c f reason) (ctxBase s (s.frame c f).priv.ctxptr) s.now (s.frame c f) reason := by
  have h := blockHolds_writeBlock hb hseq s (ctxBase s (s.frame c f).priv.ctxptr) s.now reason
  refine BlockHolds.of_sameMemory h ?_
  simp only [saveFrame, forBlock_of_bare hb, State.setFrame_mem, State.setFrame_merge, and_self]

/-- The frame after a save: its operations and its taint stand in the block. -/
def savedFrame (r : Frame) : Frame :=
  { r with
    fl := r.fl.saved r.issue.nb, taint := Taints.none, leave := none, issue := { r.issue with lflags := 0 }
    priv := { r.priv with landrec := w64 (countsWord r.forBlock) } }

theorem writeBlock_keeps {α : Type} (g : State → α) (hg : ∀ s t : State, g { s with mem := t.mem, merge := t.merge, poison := t.poison } = g s)
    (s : State) (base : Nat) (l : List Fld) : g (writeBlock s base l) = g s := by
  have hput : ∀ (u : State) (e : Fld), g (putFld base u e) = g u := fun u e => by
    rw [putFld]
    split
    · rfl
    · exact hg u (gWriteVal u (base + e.1) e.2.1 e.2.2)
  rw [writeBlock_eq, putFlds, foldl_keeps g hput]
  exact hg s (clearRange s base blockBytes)

theorem saveFrame_frame (s : State) (c : CubeId) (f : FrameId) (reason : Nat) :
    (saveFrame s c f reason).frame c f = savedFrame (s.frame c f) := by
  rw [saveFrame, State.frame_setFrame_same]
  rfl

theorem saveFrame_keeps {α : Type} (g : State → α) (hg : ∀ s t : State, g { s with mem := t.mem, merge := t.merge, poison := t.poison } = g s)
    (c : CubeId) (f : FrameId) (hframe : ∀ s r, g (s.setFrame c f r) = g s) (s : State) (reason : Nat) : g (saveFrame s c f reason) = g s := by
  rw [saveFrame, hframe, writeBlock_keeps g hg]

/-! A trap taken (R318). -/

/-- A frame with the cause of a trap in its registers. -/
def withCause (t : TrapInfo) (r : Frame) : Frame :=
  { r with priv := { r.priv with tcause := t.tcause, tinfo := #v[t.pc0, t.t1, t.t2, t.t3] } }

@[simp] theorem withCause_fl (t : TrapInfo) (r : Frame) : (withCause t r).fl = r.fl := by rw [withCause]
@[simp] theorem withCause_seq (t : TrapInfo) (r : Frame) : (withCause t r).seq = r.seq := by rw [withCause]

theorem withCause_context (t : TrapInfo) (r : Frame) : (withCause t r).issue = r.issue ∧ (withCause t r).regs = r.regs ∧
    (withCause t r).ctl = r.ctl ∧ (withCause t r).sync = r.sync := by
  rw [withCause]
  exact ⟨rfl, rfl, rfl, rfl⟩

/-- A frame as it enters its handler. -/
def atVector (pc : Word) (r : Frame) : Frame :=
  { r with
    priv := { r.priv with lvl := true, disp := 0 }
    regs := { r.regs with a := r.regs.a.set 0 r.priv.ctxva }
    issue := { r.issue with pc := pc, from_ := 0, seq := false, barred := false, halted := false, haltedU := r.issue.halted, dbgCode := none } }

/-- The trap of a frame at level U, stage by stage. -/
theorem enterTrap_eq {s : State} {c : CubeId} {f : FrameId} (hu : (s.frame c f).priv.lvl = false) (t : TrapInfo) {u v : State}
    (hset : (quiesce s c f).modFrame c f (withCause t) = u) (hsave : saveFrame u c f 1 = v) :
    enterTrap s c f t = retime (v.modFrame c f (atVector (vectorPc (v.cube c).ctl.tvec t.cause))) c := by
  subst hset hsave
  rw [enterTrap, if_neg (by simp [hu])]
  delta withCause atVector
  dsimp only

theorem retime_frame (s : State) (c d : CubeId) (f : FrameId) : (retime s c).frame d f = s.frame d f := by
  rw [retime, State.frame, State.cube_modCube]
  split
  next h => subst h; rfl
  next => rfl

/-- What taking a trap leaves of a frame that has nothing in flight: its block in memory, the frame at its handler. -/
theorem enterTrap_of_rested {s : State} {c : CubeId} {f : FrameId} (hu : (s.frame c f).priv.lvl = false) (hr : (s.frame c f).fl.Rested)
    (hseq : ∀ l ∈ (s.frame c f).seq.toList, l.pairs.length ≤ 4) (t : TrapInfo) :
    (∃ now, BlockHolds (enterTrap s c f t) (ctxBase s (s.frame c f).priv.ctxptr) now (withCause t (s.frame c f)) 1) ∧
    (enterTrap s c f t).pkg = s.pkg ∧
    ∃ pc, (enterTrap s c f t).frame c f = atVector pc (savedFrame (withCause t (s.frame c f))) := by
  obtain ⟨hframe, hpkg⟩ := performWrites_frame (c := c) (f := f) ⟨hr.ls, hr.fly, hr.copyA⟩
  generalize hs : (quiesce s c f).modFrame c f (withCause t) = u
  rw [quiesce_of_rested hr] at hs
  have hset : u.frame c f = withCause t (s.frame c f) := by rw [← hs, State.frame_modFrame_same, hframe]
  have hupkg : u.pkg = s.pkg := by rw [← hs, State.modFrame_pkg, hpkg]
  have hptr : (u.frame c f).priv.ctxptr = (s.frame c f).priv.ctxptr := by rw [hset, withCause]
  have hholds := blockHolds_saveFrame (s := u) (c := c) (f := f) (by rw [hset, withCause_fl]; exact hr.toBare)
    (by rw [hset, withCause_seq]; exact hseq) 1
  have hsaved := saveFrame_frame u c f 1
  have hvpkg := saveFrame_keeps State.pkg (fun _ _ => rfl) c f (fun _ _ => rfl) u 1
  rw [hptr, ctxBase_of_pkg hupkg, hset] at hholds
  rw [hset] at hsaved
  rw [enterTrap_eq hu t (by rw [quiesce_of_rested hr, hs]) rfl]
  generalize saveFrame u c f 1 = v at hholds hsaved hvpkg
  refine ⟨⟨u.now, hholds.of_sameMemory ⟨rfl, rfl⟩⟩, hvpkg.trans hupkg, vectorPc (v.cube c).ctl.tvec t.cause, ?_⟩
  rw [retime_frame, State.frame_modFrame_same, hsaved]

/-! The return from a trap (R319). -/

/-- What a frame read back from a block that lists nothing in flight holds. -/
structure ReadBack (s : State) (base : Nat) (r : Frame) : Prop where
  pc : r.issue.pc = blk s base offPc
  x : r.regs.x = Vector.ofFn fun i => blk s base (offRegs + 8 * i.val)
  y : r.regs.y = Vector.ofFn fun i => blk s base (offRegs + 8 * (32 + i.val))
  a : r.regs.a = Vector.ofFn fun i => blk s base (offRegs + 8 * (64 + i.val))
  p : r.regs.p = BitVec.ofNat 16 (bits (blk s base offFlags).toNat 0 16) ||| 1
  v : r.regs.v = (List.range 384).foldr (fun i m => let x := blkV s base (offV + 256 * i); if x = 0 then m else (i, x) :: m) []
  fmt : r.ctl.fmt = (blk s base 0x40).setWidth 16 &&& fmtMask
  fid : r.ctl.fid = (blk s base 0x48).setWidth 6
  fstat : r.ctl.fstat = (blk s base 0x50).setWidth 5
  cstat : r.ctl.cstat = (blk s base 0x58).setWidth 2
  df : r.sync.df = BitVec.ofNat 8 (bits (blk s base offFlags).toNat 16 8)

theorem readBlock_of_bare {s : State} {base : Nat} (r : Frame) (hok : blockOk s base = true) (hcnt : blk s base 0x70 = 0) :
    ∃ r', readBlock s base r = some r' ∧ ReadBack s base r' := by
  have hbits : ∀ lo len, bits (0 : Word).toNat lo len = 0 := fun lo len => by simp [bits]
  unfold readBlock
  simp only [hok, hcnt, hbits, List.range_zero, List.map_nil, allSome, List.all_nil, Bool.not_true, Bool.false_eq_true, if_false,
    List.foldl_nil, retag]
  exact ⟨_, rfl, by dsimp only, by dsimp only, by dsimp only, by dsimp only, by dsimp only, by dsimp only, by dsimp only, by dsimp only,
    by dsimp only, by dsimp only, by dsimp only⟩

end Sys2Proof.Machine
end

section
/-! SUPPORT. The round trip of a trap (R35, R318, R319). -/

namespace Sys2Proof.Machine

/-! What the block of a frame gives back. -/

theorem fget_listed {α : Type} [DecidableEq α] (d : α) (g : Nat → α) (k : Nat) : ∀ l : List Nat,
    fget d (l.foldr (fun i m => let x := g i; if x = d then m else (i, x) :: m) []) k = if k ∈ l then g k else d
  | [] => rfl
  | i :: l => by
    have ih := fget_listed d g k l
    rw [List.foldr_cons]
    by_cases hik : i = k
    · subst hik
      by_cases hd : g i = d
      · simp only [hd, if_true, ih, List.mem_cons, true_or]
        split <;> rfl
      · simp [fget, hd]
    · have hki : ¬ k = i := fun h => hik h.symm
      by_cases hd : g i = d <;> simp [fget, hd, hik, hki, ih]

theorem countsWord_of_bare {r : Frame} (h : r.fl.Bare) : countsWord r = 0 := by
  obtain ⟨hland, hls, hwd, hcube, hcopy, hsync, hmsgs, hres⟩ := h
  unfold countsWord
  dsimp only
  rw [hland, hls, hwd, hcopy, hcube, hres, hmsgs, hsync]
  rfl

/-- The predicates and the done flags in their word. -/
theorem bits_predWord (r : Frame) :
    bits (w64 (predWord r)).toNat 0 16 = (r.regs.p ||| 1).toNat ∧ bits (w64 (predWord r)).toNat 16 8 = r.sync.df.toNat := by
  have hp := (r.regs.p ||| 1).isLt
  have hdf := r.sync.df.isLt
  simp only [bits, Nat.shiftRight_eq_div_pow, predWord, Nat.shiftLeft_eq, w64, BitVec.toNat_ofNat]
  omega

section
variable {s : State} {base now reason : Nat} {r r' : Frame} (hback : ReadBack s base r') (h : BlockHolds s base now r reason)
include hback h

theorem ReadBack.regs_x : r'.regs.x = r.regs.x := by
  rw [hback.x]
  refine Vector.ext fun i hi => ?_
  rw [Vector.getElem_ofFn]
  exact h.reg (by simp [List.getElem?_append, hi])

theorem ReadBack.regs_y : r'.regs.y = r.regs.y := by
  rw [hback.y]
  refine Vector.ext fun i hi => ?_
  rw [Vector.getElem_ofFn]
  exact h.reg (by simp [List.getElem?_append, hi])

theorem ReadBack.regs_a : r'.regs.a = r.regs.a := by
  rw [hback.a]
  refine Vector.ext fun i hi => ?_
  rw [Vector.getElem_ofFn]
  have h1 : ¬ 64 + i < 32 := by omega
  have h2 : ¬ 64 + i - 32 < 32 := by omega
  have h3 : 64 + i - 32 - 32 = i := by omega
  exact h.reg (by simp [List.getElem?_append, h1, h2, h3, hi])

theorem ReadBack.sync_df : r'.sync.df = r.sync.df := by
  rw [hback.df, h.flags, (bits_predWord r).2, BitVec.ofNat_toNat, BitVec.setWidth_eq]

theorem ReadBack.controls : r'.ctl.fmt = r.ctl.fmt &&& fmtMask ∧ r'.ctl.fid = r.ctl.fid ∧ r'.ctl.fstat = r.ctl.fstat ∧
    r'.ctl.cstat = r.ctl.cstat :=
  ⟨by rw [hback.fmt, h.fmt], by rw [hback.fid, h.fid], by rw [hback.fstat, h.fstat], by rw [hback.cstat, h.cstat]⟩

theorem ReadBack.pred (p : Pred) : r'.regs.pred p = r.regs.pred p := by
  have hp : r'.regs.p = r.regs.p ||| 1 := by
    rw [hback.p, h.flags, (bits_predWord r).1, BitVec.ofNat_toNat, BitVec.setWidth_eq]
    rw [BitVec.or_assoc, BitVec.or_self]
  by_cases h0 : p = 0
  · simp [Regs.pred, h0]
  · have hne : p.toNat ≠ 0 := fun hp => h0 (BitVec.eq_of_toNat_eq hp)
    simp [Regs.pred, hp, hne]

theorem ReadBack.rdV {i : Nat} (hi : i < 384) : r'.regs.rdV i = r.regs.rdV i := by
  rw [Regs.rdV, hback.v, fget_listed 0 (fun i => blkV s base (offV + 256 * i)) i, if_pos (List.mem_range.mpr hi)]
  exact h.vreg hi

end

/-! The return (R319). -/

/-- What a return gives back of a frame: PC, registers, control registers, synchronisation. -/
def Frame.context (r : Frame) : Word × Regs × Ctl × Sync := (r.issue.pc, r.regs, r.ctl, r.sync)

theorem askLeave_frame (s : State) (c d : CubeId) (f h : FrameId) (base : Nat) : (askLeave s c f base).frame d h = s.frame d h := by
  rw [askLeave]
  dsimp only
  split
  · rfl
  · rw [State.frame, State.cube_modCube]
    split
    next hd => subst hd; rfl
    next => rfl

theorem repin_context (s : State) (c : CubeId) (f : FrameId) :
    ((repin s c f).frame c f).context = (s.frame c f).context ∧ ((repin s c f).frame c f).priv = (s.frame c f).priv := by
  have h : ∀ (u : State) (g : Hub → Hub), (u.modHub g).frame c f = u.frame c f := fun _ _ => rfl
  rw [repin, h, State.frame_modFrame_same]
  exact ⟨rfl, rfl⟩

/-- A frame loaded from a block that reads back has the context that the block gives. -/
theorem loadFrame_context {s : State} {c : CubeId} {f : FrameId} {r' : Frame}
    (h : readBlock s (ctxBase s (s.frame c f).priv.ctxptr) (s.frame c f) = some r') :
    ∃ t, loadFrame s c f = some t ∧ (t.frame c f).context = r'.context ∧ (t.frame c f).priv.lvl = false := by
  unfold loadFrame
  dsimp only
  rw [h]
  refine ⟨_, rfl, ?_⟩
  rw [retime_frame, (repin_context _ c f).1, (repin_context _ c f).2, State.frame_setFrame_same]
  exact ⟨rfl, rfl⟩

theorem returnTrap_context {s : State} {c : CubeId} {f : FrameId} {r' : Frame}
    (hfatal : Nat.testBit (s.frame c f).priv.tcause.toNat 8 = false)
    (h : readBlock s (ctxBase s (s.frame c f).priv.ctxptr) (s.frame c f) = some r') :
    ((returnTrap s c f).frame c f).context = r'.context ∧ ((returnTrap s c f).frame c f).priv.lvl = false := by
  obtain ⟨t, hload, ht⟩ := loadFrame_context h
  rw [returnTrap]
  simp only [hfatal, hload, Bool.false_eq_true, if_false, askLeave_frame]
  exact ht

/-- `TCAUSE.FATAL` of a trap that is not fatal. -/
theorem tcause_not_fatal {x : TrapInfo} (hfatal : x.fatal = false) (hcause : x.cause < 32) :
    Nat.testBit x.tcause.toNat 8 = false := by
  have hafter : bnat x.after ≤ 1 := by unfold bnat; split <;> omega
  rw [TrapInfo.tcause, hfatal, Nat.testBit_eq_decide_div_mod_eq]
  simp only [bnat, Bool.false_eq_true, if_false, w64, BitVec.toNat_ofNat, Nat.shiftLeft_eq] at hafter ⊢
  simp only [decide_eq_false_iff_not]
  omega

end Sys2Proof.Machine

open Sys2Proof Sys2Proof.Machine

/-- Settles O34: the block that the trap writes holds the frame's fields, and the return reads them back. -/
theorem trapRoundTrip : Obligations.TrapRoundTrip := by
  unfold Obligations.TrapRoundTrip
  intro s x hq hu hfatal hcause hslot hseq t hok r'
  have hrest := rested_of_quiet hq
  obtain ⟨⟨now, hblock⟩, hpkg, pc, hframe⟩ := enterTrap_of_rested (s := s) (c := s.cur) (f := s.curF) hu hrest hseq x
  rw [show enterTrap s s.cur s.curF x = t from rfl] at hblock hpkg hframe
  have hcause' : (t.frame s.cur s.curF).priv.tcause = x.tcause := by rw [hframe, atVector, savedFrame, withCause]
  have hptr : (t.frame s.cur s.curF).priv.ctxptr = s.cf.priv.ctxptr := by rw [hframe, atVector, savedFrame, withCause]; rfl
  have hcounts := hblock.counts
  rw [countsWord_of_bare (by rw [withCause_fl]; exact hrest.toBare)] at hcounts
  obtain ⟨r₁, hread, hback⟩ := readBlock_of_bare (t.frame s.cur s.curF) hok hcounts
  obtain ⟨hctx, hlvl⟩ := returnTrap_context (s := t) (c := s.cur) (f := s.curF) (by rw [hcause', tcause_not_fatal hfatal hcause])
    (by rw [hptr, ctxBase_of_pkg hpkg]; exact hread)
  obtain ⟨hpc, hregs, hctl, hsync⟩ : r'.issue.pc = r₁.issue.pc ∧ r'.regs = r₁.regs ∧ r'.ctl = r₁.ctl ∧ r'.sync = r₁.sync := by
    simpa [Frame.context] using hctx
  obtain ⟨hissue₀, hregs₀, hctl₀, hsync₀⟩ := withCause_context x (s.frame s.cur s.curF)
  generalize hw : withCause x (s.frame s.cur s.curF) = w at hblock hissue₀ hregs₀ hctl₀ hsync₀
  have hcf : s.cf = s.frame s.cur s.curF := rfl
  rw [hpc, hregs, hctl, hsync, hlvl, hcf, ← hissue₀, ← hregs₀, ← hctl₀, ← hsync₀]
  obtain ⟨hfmt, hfid, hfstat, hcstat⟩ := hback.controls hblock
  exact ⟨hback.pc.trans hblock.pc, hback.regs_x hblock, hback.regs_y hblock, hback.regs_a hblock, hback.pred hblock,
    fun i hi => hback.rdV hblock hi, rfl, hfmt, hfid, hfstat, hcstat, hback.sync_df hblock⟩
end

section
/-! SUPPORT. A forced switch performs the accepted writes (R28, R318), and of two under one number only the first: a byte below the
context block then reads as the older write. -/

namespace Sys2Proof.Machine

/-- Two accepted writes of byte 0 under one number, the younger last. -/
def twinWrites : List MergeW := [⟨0, 0, [1], (0, 0, 0, .ls), 0, none, none⟩, ⟨0, 0, [2], (0, 0, 0, .ls), 0, none, none⟩]

/-- A task of partition 0 with nothing reserved. -/
def bareTask : Task := ⟨0, 0, 0, 0, 0, 0, 0, 0, #v[0, 0, 0], [], 0⟩

/-- The reset machine with its context block at 0x1000, a switch due for DPLIMIT bundles, a second resident, and the two writes. -/
def overdueSwitch : State :=
  { (State.reset.modFrame 0 0 fun r => { r with priv := { r.priv with ctxptr := 0x1000 }, issue := { r.issue with slice := some 65536 } }).modFrame
      0 1 fun r => { r with task := some bareTask } with merge := twinWrites }

/-- Before the switch byte 0 shows the younger write, after it the older. -/
theorem overdueSwitch_byte : mergedByte overdueSwitch 0 = 2 ∧
    (match exec (.forcedSwitch 0) overdueSwitch with | .next t => mergedByte t 0 | _ => 2) = 1 := by
  decide +kernel

end Sys2Proof.Machine

open Sys2Proof Sys2Proof.Machine

/-- Refutes O45: where two accepted writes stand under one number, the quiesce of a forced switch performs the older and drops the
younger, and a byte below the context block does not keep its value. -/
theorem not_coreTurnsToTheOtherResident : ¬ Obligations.CoreTurnsToTheOtherResident := by
  unfold Obligations.CoreTurnsToTheOtherResident
  intro h
  obtain ⟨-, -, hturn⟩ := h overdueSwitch 0 (by decide +kernel)
  obtain ⟨-, -, hforced⟩ := hturn (by decide +kernel) (by decide +kernel) (by decide +kernel) (by decide +kernel)
  obtain ⟨t, hexec, -, -, -, -, -, -, -, hbelow⟩ := hforced 65536 (by decide +kernel) (by decide +kernel) (by decide +kernel)
    (by decide +kernel) (by decide +kernel)
  obtain ⟨hbefore, hafter⟩ := overdueSwitch_byte
  have hkept : mergedByte t 0 = mergedByte overdueSwitch 0 := hbelow 0 (by decide +kernel)
  rw [hexec] at hafter
  exact absurd (hafter.symm.trans (hkept.trans hbefore)) (by decide)
end

section
/-! SUPPORT. A pre-emption: the request that reaches a gang's members and a span's packages, and the save of a member at its drain
point (R31, R32, R324). -/

namespace Sys2Proof.Machine

/-! One change made of every frame of a list. -/

/-- A frame after one change has been made of each frame of a list that names none twice. -/
theorem frame_foldl_modFrame (h : Frame → Frame) (c : CubeId) (f : FrameId) : ∀ (l : List (CubeId × FrameId)) (s : State), l.Nodup →
    (l.foldl (fun s (c, f) => s.modFrame c f h) s).frame c f = if (c, f) ∈ l then h (s.frame c f) else s.frame c f
  | [], s, _ => by simp
  | (d, e) :: l, s, hl => by
    obtain ⟨hd, hl⟩ := List.nodup_cons.mp hl
    rw [List.foldl_cons, frame_foldl_modFrame h c f l _ hl, State.frame_modFrame]
    by_cases hcf : d = c ∧ e = f
    · obtain ⟨rfl, rfl⟩ := hcf
      simp [hd]
    · have hne : ¬ (c, f) = (d, e) := fun heq => hcf ⟨(congrArg Prod.fst heq).symm, (congrArg Prod.snd heq).symm⟩
      have hcf' : ¬ (c = d ∧ f = e) := fun h => hcf ⟨h.1.symm, h.2.symm⟩
      simp [hcf', hne]

theorem gangFrames_nodup (s : State) (part id i : Nat) : (gangFrames s part id i).Nodup := List.Nodup.filter _ (by decide)

/-! The one record and its one gang changed. -/

section
variable {s : State} {k : Rec} {g : Gang}

theorem modRec_recs_single (hrecs : s.hub.recs = [k]) (h : Rec → Rec) : (modRec s k.part k.id h).hub.recs = [h k] := by
  rw [modRec_recs, hrecs, List.map_singleton, onRec_named]

theorem modGang_recs_single (hrecs : s.hub.recs = [k]) (hgangs : k.gangs = [g]) (h : Gang → Gang) :
    (modGang s k.part k.id g.idx h).hub.recs = [{ k with gangs := [h g] }] := by
  rw [modGang, modRec_recs_single hrecs]
  simp [hgangs]

end

/-! Requests to a span's other packages (R363). -/

/-- A request of a cube's port to another package about a partition. -/
def farReq (s : State) (part : Nat) (c : CubeId) (pkg : Nat) (m : RemoteKind) : RemoteReq :=
  ⟨s.pkg, c, fpidOf s part, pkg, 0, 0, none, m⟩

/-- Requests that leave at once. -/
def sent (s : State) (l : List RemoteReq) : State := s.modHub fun h => { h with outbox := h.outbox ++ l }

theorem sendFar_of_up {s : State} {part pkg : Nat} {c : CubeId} (h : portUp s c pkg 0 = true) (m : RemoteKind) :
    sendFar s part c pkg 0 m = sent s [farReq s part c pkg m] := by
  have hup : portUp s c pkg (BitVec.ofNat 3 0).toNat = true := h
  simp only [sendFar, post, hup, if_true]
  rfl

theorem sent_sent (s : State) (a b : List RemoteReq) : sent (sent s a) b = sent s (a ++ b) := by
  simp [sent, State.modHub, List.append_assoc]

theorem foldl_sendFar_of_up {part : Nat} {c : CubeId} (m : RemoteKind) : ∀ {s : State} (l : List Nat), (∀ p ∈ l, portUp s c p 0 = true) →
    l.foldl (fun s p => sendFar s part c p 0 m) s = sent s (l.map fun p => farReq s part c p m)
  | s, [], _ => by simp [sent, State.modHub]
  | s, p :: l, h => by
    rw [List.foldl_cons, sendFar_of_up (h p List.mem_cons_self),
      foldl_sendFar_of_up (s := sent s [farReq s part c p m]) m l fun q hq => h q (List.mem_cons_of_mem p hq), sent_sent]
    rfl

/-- A span's other packages are all told where their ports are up. -/
theorem tellSpan_of_up {s : State} {k : Rec} {part : Nat} {c : CubeId} (hspan : k.isSpan = true)
    (hup : ∀ p ∈ spanPkgs k, portUp s c p 0 = true) (m : RemoteKind) :
    tellSpan s part c k m = sent s (((spanPkgs k).filter (· ≠ s.pkg)).map fun p => farReq s part c p m) := by
  have hk : bits (k.word 0) 0 2 = 1 := of_decide_eq_true hspan
  rw [tellSpan, if_pos hk]
  exact foldl_sendFar_of_up m _ fun p hp => hup p (List.mem_filter.mp hp).1

theorem tellSpan_of_notSpan {s : State} {k : Rec} (hspan : k.isSpan = false) (part : Nat) (c : CubeId) (m : RemoteKind) :
    tellSpan s part c k m = s := by
  have hk : ¬ bits (k.word 0) 0 2 = 1 := of_decide_eq_false hspan
  rw [tellSpan, if_neg hk]
  rfl

/-- Telling a span changes the hub alone. -/
theorem tellSpan_keeps {α : Type} (g : State → α) (hg : ∀ s h, g (State.modHub s h) = g s) (s : State) (part : Nat) (c : CubeId) (k : Rec)
    (m : RemoteKind) : g (tellSpan s part c k m) = g s := by
  have hsend : ∀ (u : State) (p : Nat), g (sendFar u part c p 0 m) = g u := fun u p => by rw [sendFar, post, hg]
  exact foldl_keeps g hsend _ s

/-! The request (R31, R32). -/

/-- A member asked to stop, once. -/
def askedToStop (r : Frame) : Frame :=
  if r.issue.preempt.isNone then { r with issue := { r.issue with preempt := some (0, 0) } } else r

/-- What a request leaves of the frames and of the rest. -/
structure Requested (s : State) (part id gang : Nat) (t : State) : Prop where
  frame : ∀ c f, t.frame c f = if (c, f) ∈ gangFrames s part id gang then askedToStop (s.frame c f) else s.frame c f
  mem : t.mem = s.mem
  pkg : t.pkg = s.pkg
  cubes : ∀ c, (t.cube c).fab = (s.cube c).fab
  hub : t.hub = (modGang s part id gang fun g => { g with pre := true }).hub

theorem requested_requestPreempt (s : State) (part id gang : Nat) : Requested s part id gang (requestPreempt s part id gang) := by
  have hkeeps : ∀ {α : Type} (g : State → α), (∀ s c f r, g (State.setFrame s c f r) = g s) →
      g (requestPreempt s part id gang) = g (modGang s part id gang fun g => { g with pre := true }) := fun g hg => by
    rw [requestPreempt]
    exact foldl_keeps g (fun u ⟨c, f⟩ => hg u c f _) _ _
  exact {
    frame := fun c f => frame_foldl_modFrame askedToStop c f _ (modGang s part id gang fun g => { g with pre := true })
      (gangFrames_nodup _ part id gang)
    mem := hkeeps State.mem fun _ _ _ _ => rfl
    pkg := hkeeps State.pkg fun _ _ _ _ => rfl
    cubes := fun c => hkeeps (fun u => (u.cube c).fab) fun u d f r => by
      rw [State.setFrame, State.cube_modCube]
      split
      next h => subst h; rfl
      next => rfl
    hub := hkeeps State.hub fun _ _ _ _ => rfl }

theorem exec_preemptionRequest {s : State} (hpow : s.teasel.power = true) (n : LaunchName) (gang : Nat) :
    exec (.preemptionRequest n gang) s = .next (preemptionRequestRun s n.part n.id gang) := powered_of_power hpow _

section
variable {s : State} {k : Rec} {g : Gang} (hrecs : s.hub.recs = [k]) (hgangs : k.gangs = [g])
include hrecs hgangs

theorem preemptionRequestRun_single (hst : g.st = .running) (hpre : g.pre = false) : preemptionRequestRun s k.part k.id g.idx =
    tellSpan (requestPreempt s k.part k.id g.idx) k.part (partCube s k.part) k (.spanPreempt (wireId s k.id)) := by
  simp [preemptionRequestRun, preemptGang, findRec_of_single hrecs, Rec.gang_of_single hgangs, hst, hpre]

theorem preemptionRequestRun_asked (hpre : g.pre = true) : preemptionRequestRun s k.part k.id g.idx = s := by
  simp [preemptionRequestRun, findRec_of_single hrecs, Rec.gang_of_single hgangs, hpre]

end

/-! The save at a drain point (R324). -/

theorem closeMsgs_of_none {s : State} {c : CubeId} {f : FrameId} (h : (s.frame c f).fl.msgs = []) : closeMsgs s c f = s := by
  simp [closeMsgs, h]

/-- Fields that stand at an offset or above it. -/
def Above (lo : Nat) (l : List Fld) : Prop := ∀ e ∈ l, lo ≤ e.1

theorem Above.append {lo : Nat} {l m : List Fld} (hl : Above lo l) (hm : Above lo m) : Above lo (l ++ m) := fun e he =>
  (List.mem_append.mp he).elim (hl e) (hm e)

theorem above_nil (lo : Nat) : Above lo [] := fun _ h => absurd h List.not_mem_nil

theorem above_cons {lo o n v : Nat} {l : List Fld} (h : lo ≤ o) (hl : Above lo l) : Above lo ((o, n, v) :: l) := fun e he => by
  rcases List.mem_cons.mp he with rfl | he
  · exact h
  · exact hl e he

theorem above_flatMap {α : Type} {lo : Nat} {g : α → List Fld} {l : List α} (h : ∀ x, Above lo (g x)) : Above lo (l.flatMap g) :=
  fun e he => by
    obtain ⟨x, -, hx⟩ := List.mem_flatMap.mp he
    exact h x e hx

theorem above_area {α : Type} {lo o step : Nat} {g : Nat → α → List Fld} {l : List α} (ho : lo ≤ o)
    (h : ∀ p x, o ≤ p → Above p (g p x)) : Above lo (area o step g l) :=
  above_flatMap fun (x, i) e he => Nat.le_trans ho (Nat.le_trans (Nat.le_add_right o (step * i)) (h _ x (Nat.le_add_right o _) e he))

/-- Entries of a block keep to their place. -/
theorem above_entHead (p : Nat) (info : OpInfo) : Above p (entHead p info) := by simp [Above, entHead]

theorem above_seqFlds (p : Nat) (l : SeqLevel) : Above p (seqFlds p l) :=
  Above.append (by simp [Above]) (above_flatMap fun ((a, st), i) => by simp [Above]; omega)

theorem above_bufFlds (p : Nat) (b : Option Buf) : Above p (bufFlds p b) := by cases b <;> simp [Above, bufFlds]
theorem above_msgFlds (p : Nat) (m : MsgAct) : Above p (msgFlds p m) := by simp [Above, msgFlds]
theorem above_resumeFlds (e : CubeEnt) : Above 16 (resumeFlds e) := by unfold resumeFlds; split <;> simp [Above, offResume]

theorem above_cubeFlds (p : Nat) (e : CubeEnt) : Above p (cubeFlds p e) := by
  unfold cubeFlds
  dsimp only
  split <;> exact ((above_entHead p e.info).append (by simp [Above])).append (by simp [Above])

theorem above_copyFlds (p : Nat) (e : CopyEnt) : Above p (copyFlds p e) := by
  unfold copyFlds
  split <;> exact (above_entHead p e.info).append (by simp [Above])

theorem above_lsFlds (p : Nat) (e : LsEnt) : Above p (lsFlds p e) := by
  unfold lsFlds
  dsimp only
  refine ((above_entHead p e.info).append (by simp [Above])).append ?_
  split <;> simp [Above]

theorem above_landFlds (nb p : Nat) (l : Landing) : Above p (landFlds nb p l) := by simp [Above, landFlds]

theorem above_syncFlds (p : Nat) (e : SyncEnt) : Above p (syncFlds p e) := by
  unfold syncFlds
  refine (above_entHead p e.info).append ?_
  split <;> simp [Above]

/-- A block begins with its control word and PC; every other field stands above them. -/
theorem blockFlds_head (now reason : Nat) (r : Frame) : ∃ l, blockFlds now r reason =
    (0, 8, 1 + 1 <<< 16 + reason <<< 24) :: (offPc, 8, r.issue.pc.toNat) :: l ∧ Above 16 l := by
  unfold blockFlds
  dsimp only
  simp only [List.cons_append, List.append_assoc, List.nil_append]
  refine ⟨_, rfl, ?_⟩
  refine above_cons (by decide) (above_cons (by decide) (.append (above_area (by decide) fun p x _ => by simp [Above]) ?_))
  refine above_cons (by decide) (above_cons (by decide) (above_cons (by decide) (above_cons (by decide) (above_cons (by decide)
    (above_cons (by decide) (above_cons (by decide) (above_cons (by decide) ?_)))))))
  refine .append (above_area (by decide) fun p x _ => above_seqFlds p x) (.append (above_area (by decide) fun p x _ => by simp [Above])
    (.append ?refusal (.append (above_area (by decide) fun p x _ => by simp [Above]) (.append (above_area (by decide) fun p x _ => by simp [Above])
    (.append (above_area (by decide) fun p x _ => above_bufFlds p x) (.append (above_area (by decide) fun p x _ => above_msgFlds p x)
    (.append ?resume (.append (above_area (by decide) fun p x _ => above_cubeFlds p x)
    (.append (above_area (by decide) fun p x _ => above_copyFlds p x) (.append (above_area (by decide) fun p x _ => above_lsFlds p x)
    (.append (above_area (by decide) fun p x _ => above_landFlds _ p x) (.append (above_area (by decide) fun p x _ => above_syncFlds p x)
    (above_area (by decide) fun p x _ => by simp [Above]))))))))))))) 
  case refusal => split <;> simp [Above, offRefusal]
  case resume =>
    split
    · exact above_resumeFlds _
    · exact above_nil 16

/-- The control word and the PC of a frame as saved, whatever it has in flight. -/
theorem gRead_saveFrame_head (s : State) (c : CubeId) (f : FrameId) (reason : Nat) (hreason : reason < 256) :
    let base := ctxBase s (s.frame c f).priv.ctxptr
    gRead (saveFrame s c f reason) base 8 = 1 + 2 ^ 16 + reason * 2 ^ 24 ∧
      w64 (gRead (saveFrame s c f reason) (base + 8) 8) = (s.frame c f).issue.pc ∧
      ∀ a, a < base → mergedByte (saveFrame s c f reason) a = mergedByte s a := by
  intro base
  obtain ⟨l, hl, habove⟩ := blockFlds_head s.now reason (s.frame c f).forBlock
  generalize hw : writeBlock s base (blockFlds s.now (s.frame c f).forBlock reason) = w
  have hpc : (s.frame c f).forBlock.issue.pc = (s.frame c f).issue.pc := rfl
  have hsame : (saveFrame s c f reason).mem = w.mem ∧ (saveFrame s c f reason).merge = w.merge := by
    rw [← hw, saveFrame]
    exact ⟨State.setFrame_mem .., State.setFrame_merge ..⟩
  have hread : ∀ o v, ((o, 8, v) : Fld) = (0, 8, 1 + 1 <<< 16 + reason <<< 24) ∨ (o, 8, v) = (offPc, 8, (s.frame c f).issue.pc.toNat) →
      gRead (saveFrame s c f reason) (base + o) 8 = v % 2 ^ 64 := by
    intro o v hov
    rw [gRead_of_sameMemory hsame, ← hw, hl, hpc]
    refine gRead_writeBlock s (by rcases hov with h | h <;> simp [h]) (fun e he => ?_) ?_
    · rcases List.mem_cons.mp he with rfl | he
      · rcases hov with h | h
        · exact Or.inl h.symm
        · exact Or.inr (Or.inl (by simp_all [offPc]))
      · rcases List.mem_cons.mp he with rfl | he
        · rcases hov with h | h
          · exact Or.inr (Or.inr (by simp_all [offPc]))
          · exact Or.inl h.symm
        · have h16 := habove e he
          have ho : o ≤ 8 := by rcases hov with h | h <;> simp_all [offPc]
          exact Or.inr (Or.inr (by omega))
    · rcases hov with h | h <;> simp_all [offPc, blockBytes]
  refine ⟨?_, ?_, fun a ha => ?_⟩
  · have h := hread 0 _ (Or.inl rfl)
    rw [Nat.add_zero] at h
    rw [h]
    omega
  · have h := hread offPc _ (Or.inr rfl)
    rw [show base + 8 = base + offPc from rfl, h, Nat.mod_eq_of_lt (s.frame c f).issue.pc.isLt, w64, BitVec.ofNat_toNat,
      BitVec.setWidth_eq]
  · rw [← mergedByte_writeBlock_below s base (blockFlds s.now (s.frame c f).forBlock reason) ha, hw]
    simp only [mergedByte, hsame.1, hsame.2]

end Sys2Proof.Machine
end

section
/-! SUPPORT. A member saved for a pre-emption, and the gang whose members have all stopped (R32, R324). -/

namespace Sys2Proof.Machine

theorem State.frame_setFrame_ne {s : State} {c d : CubeId} {f e : FrameId} (h : (d, e) ≠ (c, f)) (r : Frame) :
    (s.setFrame c f r).frame d e = s.frame d e := by
  rw [State.frame_setFrame, if_neg fun hcf => h (Prod.ext hcf.1 hcf.2)]

theorem State.frame_modFrame_ne {s : State} {c d : CubeId} {f e : FrameId} (h : (d, e) ≠ (c, f)) (g : Frame → Frame) :
    (s.modFrame c f g).frame d e = s.frame d e := State.frame_setFrame_ne h _

theorem saveFrame_frame_ne {s : State} {c d : CubeId} {f e : FrameId} (h : (d, e) ≠ (c, f)) (reason : Nat) :
    (saveFrame s c f reason).frame d e = s.frame d e := by
  rw [saveFrame, State.frame_setFrame_ne h, writeBlock_keeps (fun u => u.frame d e) fun _ _ => rfl]

/-- A frame as a save for a pre-emption leaves it. -/
def preempted (r : Frame) : Frame := { savedFrame r with issue := { r.issue with swapped := true, preempt := none, lflags := 0 } }

/-- The state of a frame in its block, the frame outside the core's issue. -/
def savedAway (s : State) (c : CubeId) (f : FrameId) : State :=
  retime ((saveFrame s c f 0).modFrame c f fun r => { r with issue := { r.issue with swapped := true, preempt := none } }) c

theorem savedAway_frame (s : State) (c : CubeId) (f : FrameId) : (savedAway s c f).frame c f = preempted (s.frame c f) := by
  rw [savedAway, retime_frame, State.frame_modFrame_same, saveFrame_frame]
  rfl

theorem savedAway_frame_ne {s : State} {c d : CubeId} {f e : FrameId} (h : (d, e) ≠ (c, f)) :
    (savedAway s c f).frame d e = s.frame d e := by
  rw [savedAway, retime_frame, State.frame_modFrame_ne h, saveFrame_frame_ne h]

theorem savedAway_hub (s : State) (c : CubeId) (f : FrameId) : (savedAway s c f).hub = s.hub := by
  rw [savedAway, retime, State.modCube_hub, State.modFrame_hub]
  exact saveFrame_keeps State.hub (fun _ _ => rfl) c f (fun _ _ => rfl) s 0

theorem savedAway_sameMemory (s : State) (c : CubeId) (f : FrameId) :
    (savedAway s c f).mem = (saveFrame s c f 0).mem ∧ (savedAway s c f).merge = (saveFrame s c f 0).merge := by
  rw [savedAway, retime, State.modCube_mem, State.modCube_merge, State.modFrame_mem, State.modFrame_merge]
  exact ⟨rfl, rfl⟩

theorem savedAway_task (s : State) (c d : CubeId) (f e : FrameId) : ((savedAway s c f).frame d e).task = (s.frame d e).task := by
  by_cases h : (d, e) = (c, f)
  · obtain ⟨rfl, rfl⟩ := Prod.mk.inj h
    rw [savedAway_frame]
    rfl
  · rw [savedAway_frame_ne h]

/-- The frames of a gang are told by their tasks. -/
theorem gangFrames_of_tasks {s t : State} (h : ∀ c f, (t.frame c f).task = (s.frame c f).task) (part id i : Nat) :
    gangFrames t part id i = gangFrames s part id i := by
  unfold gangFrames
  exact List.filter_congr fun ⟨c, f⟩ _ => by dsimp only; rw [h]

theorem savePreempted_eq {s : State} {c : CubeId} {f : FrameId} {t : Task} (ht : (s.frame c f).task = some t)
    (hmsgs : (s.frame c f).fl.msgs = []) : savePreempted s c f = settlePreempted (savedAway s c f) t.part t.launch t.gang := by
  rw [savePreempted]
  simp only [ht, closeMsgs_of_none hmsgs]
  rfl

/-! The gang whose members have stopped (R32). -/

/-- The frames of a gang given up. -/
def givenUp (s : State) (l : List (CubeId × FrameId)) : State := l.foldl (fun s (c, f) => freeFrame s c f true) s

section
variable {s : State} {k : Rec} {g : Gang} (hrecs : s.hub.recs = [k]) (hgangs : k.gangs = [g])
include hrecs hgangs

theorem settlePreempted_of_member {c : CubeId} {f : FrameId} (hmem : (c, f) ∈ gangFrames s k.part k.id g.idx)
    (hask : (s.frame c f).issue.preempt.isSome = true) : settlePreempted s k.part k.id g.idx = s := by
  have hoff : membersOff s k.part k.id g.idx = false := by
    rw [membersOff, Bool.and_eq_false_iff]
    refine Or.inr (List.all_eq_false.mpr ⟨(c, f), hmem, ?_⟩)
    simp [Option.isSome_iff_ne_none.mp hask]
  simp [settlePreempted, findRec_of_single hrecs, Rec.gang_of_single hgangs, hoff]

theorem settlePreempted_of_notSpan (hspan : k.isSpan = false) : settlePreempted s k.part k.id g.idx =
    if g.pre = true ∧ membersOff s k.part k.id g.idx = true then
      modGang (givenUp s (gangFrames s k.part k.id g.idx)) k.part k.id g.idx fun g => { g with st := .preempted, pre := false }
    else s := by
  have hk : ¬ bits (k.word 0) 0 2 = 1 := of_decide_eq_false hspan
  have hall : allStopped s k = true := by simp [allStopped, hk]
  by_cases h : g.pre = true ∧ membersOff s k.part k.id g.idx = true
  · rw [if_pos h]
    simp [settlePreempted, findRec_of_single hrecs, Rec.gang_of_single hgangs, h.1, h.2, hk, hall, givenUp]
  · rw [if_neg h]
    have hnot : (!g.pre || !membersOff s k.part k.id g.idx) = true := by
      rw [Bool.or_eq_true, Bool.not_eq_true', Bool.not_eq_true']
      cases hp : g.pre <;> simp_all
    simp [settlePreempted, findRec_of_single hrecs, Rec.gang_of_single hgangs, hnot]

end

theorem freeFrame_sameMemory (s : State) (c : CubeId) (f : FrameId) (park : Bool) :
    (freeFrame s c f park).mem = s.mem ∧ (freeFrame s c f park).merge = s.merge := ⟨rfl, rfl⟩

theorem givenUp_sameMemory (s : State) (l : List (CubeId × FrameId)) : (givenUp s l).mem = s.mem ∧ (givenUp s l).merge = s.merge :=
  ⟨foldl_keeps State.mem (fun u ⟨c, f⟩ => (freeFrame_sameMemory u c f true).1) l s,
    foldl_keeps State.merge (fun u ⟨c, f⟩ => (freeFrame_sameMemory u c f true).2) l s⟩

theorem settlePreempted_sameMemory {s : State} {k : Rec} {g : Gang} (hrecs : s.hub.recs = [k]) (hgangs : k.gangs = [g])
    (hspan : k.isSpan = false) : (settlePreempted s k.part k.id g.idx).mem = s.mem ∧ (settlePreempted s k.part k.id g.idx).merge = s.merge := by
  rw [settlePreempted_of_notSpan hrecs hgangs hspan]
  split
  · exact givenUp_sameMemory s _
  · exact ⟨rfl, rfl⟩

/-- A frame given up by a gang holds no task, and the cube keeps what is the task's own. -/
theorem freeFrame_parks {s : State} {c : CubeId} {f : FrameId} {t : Task} (ht : (s.frame c f).task = some t) :
    ((freeFrame s c f true).frame c f).task = none ∧ ((freeFrame s c f true).cube c).parked.head?.map (·.task) = some t := by
  rw [freeFrame, retime_frame]
  refine ⟨?_, ?_⟩
  · rw [State.frame, State.cube_modCube, if_pos rfl]
    simp [Cube.frame, Cube.setFrame, Frame.free]
  · rw [retime, State.cube_modCube, if_pos rfl, State.cube_modCube, if_pos rfl]
    simp [ht]

theorem exec_preemption {s : State} (hpow : s.teasel.power = true) (c : CubeId) (f : FrameId) :
    exec (.preemption c f) s = .next (preemptionRun s c f) := powered_of_power hpow _

theorem preemptionRun_of_due {s : State} {c : CubeId} {f : FrameId} (hask : (s.frame c f).issue.preempt.isSome = true)
    (hu : (s.frame c f).priv.lvl = false) (hheld : (s.frame c f).issue.dbg.held = false) (hdrain : atDrainPoint s c f = true)
    (htrap : drainTrap s c f = none) : preemptionRun s c f = savePreempted s c f := by
  rw [preemptionRun]
  cases ht : (s.frame c f).task with
  | none => simp [savePreempted, ht]
  | some t => simp [hask, hu, hheld, hdrain, htrap]

end Sys2Proof.Machine

open Sys2Proof Sys2Proof.Machine

/-- Settles O46: a request is `requestPreempt` told to the span, a member at its drain point is saved by `savedAway`, and the gang's
one member gives its frame up. -/
theorem preemptionTakesAGang : Obligations.PreemptionTakesAGang := by
  unfold Obligations.PreemptionTakesAGang
  intro s k g hpow hrecs hgangs
  refine ⟨fun hst hpre => ?_, fun hpre => ?_, fun c f t n hspan ht hpart hlaunch hgang hask hu hheld hdrain htrap hmsgs => ?_⟩
  · have hreq := requested_requestPreempt s k.part k.id g.idx
    have hrun := preemptionRequestRun_single hrecs hgangs hst hpre
    have hkeeps := fun {α : Type} (p : State → α) (hp : ∀ s h, p (State.modHub s h) = p s) =>
      tellSpan_keeps p hp (requestPreempt s k.part k.id g.idx) k.part (partCube s k.part) k (.spanPreempt (wireId s k.id))
    refine ⟨_, (exec_preemptionRequest hpow _ _).trans (congrArg _ hrun), (hkeeps State.mem fun _ _ => rfl).trans hreq.mem, ?_, ?_, ?_, ?_⟩
    · have hroster := (State.roster_eq_iff.mp (roster_tellSpan (requestPreempt s k.part k.id g.idx) (partCube s k.part) k.part k
        (.spanPreempt (wireId s k.id)) none)).1
      rw [hroster, hreq.hub, modGang_recs_single hrecs hgangs]
    · intro hspan
      rw [tellSpan_of_notSpan hspan, hreq.hub]
      rfl
    · intro d hspan hd hup
      have hup' : ∀ p ∈ spanPkgs k, portUp (requestPreempt s k.part k.id g.idx) (partCube s k.part) p 0 = true := fun p hp => by
        rw [portUp, hreq.pkg, hreq.cubes]
        exact hup p hp
      have hfp : fpidOf (requestPreempt s k.part k.id g.idx) k.part = d.fpid := by
        rw [fpidOf, partOf, hreq.hub, modGang, modRec, State.modHub_hub]
        dsimp only
        rw [hd]
      rw [tellSpan_of_up hspan hup', sent, State.modHub_hub, hreq.hub]
      simp only [farReq, hfp, hreq.pkg]
      rfl
    · intro c f
      rw [hkeeps (fun u => u.frame c f) fun _ _ => rfl, hreq.frame]
      by_cases hmem : (c, f) ∈ gangFrames s k.part k.id g.idx
      · simp only [hmem, if_true, true_and, askedToStop, Option.isNone_iff_eq_none]
      · simp only [hmem, if_false, false_and]
  · rw [exec_preemptionRequest hpow, preemptionRequestRun_asked hrecs hgangs hpre]
  · intro base
    have hsave : preemptionRun s c f = settlePreempted (savedAway s c f) k.part k.id g.idx := by
      rw [preemptionRun_of_due (by rw [hask]; rfl) hu hheld hdrain htrap, savePreempted_eq ht hmsgs, hpart, hlaunch, hgang]
    have hrecs' : (savedAway s c f).hub.recs = [k] := by rw [savedAway_hub, hrecs]
    have hgf := gangFrames_of_tasks (savedAway_task s c · f ·) k.part k.id g.idx
    have hsettle := settlePreempted_of_notSpan hrecs' hgangs hspan
    have hsame : (settlePreempted (savedAway s c f) k.part k.id g.idx).mem = (saveFrame s c f 0).mem ∧
        (settlePreempted (savedAway s c f) k.part k.id g.idx).merge = (saveFrame s c f 0).merge := by
      have hsettled := settlePreempted_sameMemory hrecs' hgangs hspan
      have haway := savedAway_sameMemory s c f
      exact ⟨hsettled.1.trans haway.1, hsettled.2.trans haway.2⟩
    obtain ⟨hword, hpc, hbelow⟩ := gRead_saveFrame_head s c f 0 (by decide)
    refine ⟨_, (exec_preemption hpow c f).trans (congrArg _ hsave), ?_, ?_, fun a ha => ?_, ?_, ?_⟩
    · rw [gRead_of_sameMemory hsame, hword, Nat.zero_mul, Nat.add_zero]
    · rw [gRead_of_sameMemory hsame, hpc]
    · rw [← hbelow a ha]
      simp only [mergedByte, hsame.1, hsame.2]
    · rintro ⟨x, hx, hne, hxask⟩
      rw [settlePreempted_of_member hrecs' hgangs (c := x.1) (f := x.2) (by rw [hgf]; exact hx) (by rw [savedAway_frame_ne hne]; exact hxask),
        savedAway_hub, savedAway_frame]
      exact ⟨rfl, rfl, rfl⟩
    · intro hpre hone
      have hoff : membersOff (savedAway s c f) k.part k.id g.idx = true := by
        rw [membersOff, hgf, hone]
        simp [savedAway_frame, preempted]
      rw [hsettle, if_pos ⟨hpre, hoff⟩, hgf, hone]
      obtain ⟨hnone, hpark⟩ := freeFrame_parks (s := savedAway s c f) (c := c) (f := f) (by rw [savedAway_task, ht])
      generalize savedAway s c f = u at hrecs' hnone hpark
      exact ⟨modGang_recs_single (s := givenUp u [(c, f)]) hrecs' hgangs _, hnone, hpark⟩
end

section
/-! SUPPORT. The end of a task, of a gang and of a record that is no span (R33, R34, R341 to R343). -/

namespace Sys2Proof.Machine

/-! A halted task (R25, R33). -/

/-- No core turns where the running frame holds a task or the other one holds none. -/
theorem turnCores_of_settled {s : State} (h : ∀ c, (s.frame c (s.cube c).running).task.isSome = true ∨
    (s.frame c (1 - (s.cube c).running)).task = none) : turnCores s = s := by
  have hstay : ∀ c : CubeId, ¬ (((s.cube c).frame (s.cube c).running).task.isNone = true ∧
      ((s.cube c).frame (otherF (s.cube c).running)).task.isSome = true) := by
    rintro c ⟨hnone, hsome⟩
    rcases h c with hc | hc
    · rw [Option.isNone_iff_eq_none] at hnone
      rw [State.frame, hnone] at hc
      exact absurd hc (by decide)
    · rw [State.frame] at hc
      rw [otherF, hc] at hsome
      exact absurd hsome (by decide)
  exact List.foldl_fixed' (fun c => if_neg (hstay c)) allCubes

theorem landHalted_of_none {s : State} {c : CubeId} {f : FrameId} (h : (s.frame c f).fl = Flight.none) : landHalted s c f = s := by
  have hvar : landArrived (s.frame c f) = s.frame c f := by rw [landArrived, h]; rfl
  have hland : ({ s.frame c f with fl := { (s.frame c f).fl with land := [] } } : Frame) = s.frame c f := by
    have hfl : ({ (s.frame c f).fl with land := [] } : Flight) = (s.frame c f).fl := by rw [h]; rfl
    rw [hfl]
  rw [landHalted, hvar]
  dsimp only
  rw [hland, setFrame_self, h]
  rfl

theorem opsOver_of_none {s : State} {c : CubeId} {f : FrameId} (h : (s.frame c f).fl = Flight.none) (hout : (s.frame c f).taint.out = []) :
    opsOver s c f = true := by
  simp [opsOver, drained, h, hout, Flight.none]

/-- A frame given back: its registers and queues hold zero, its layers and banks are the cube's. -/
theorem freeFrame_frame (s : State) (c : CubeId) (f : FrameId) (park : Bool) : (freeFrame s c f park).frame c f =
    { Frame.free with ctl := { Ctl.zero with layers := (s.cube c).fab.insvc }, banks := (s.cube c).fab.banks } := by
  rw [freeFrame, retime_frame, State.frame, State.cube_modCube, if_pos rfl]
  simp [Cube.frame, Cube.setFrame]

theorem freeFrame_frame_ne {s : State} {c d : CubeId} {f e : FrameId} (h : (d, e) ≠ (c, f)) (park : Bool) :
    (freeFrame s c f park).frame d e = s.frame d e := by
  rw [freeFrame, retime_frame, State.frame, State.cube_modCube]
  split
  next hd =>
    subst hd
    have hef : ¬ e = f := fun he => h (by rw [he])
    change (Cube.setFrame (s.cube d) f _).frame e = s.frame d e
    rw [Cube.frame_setFrame, if_neg hef]
    rfl
  next => rfl

theorem freeFrame_running (s : State) (c d : CubeId) (f : FrameId) (park : Bool) :
    ((freeFrame s c f park).cube d).running = (s.cube d).running := by
  rw [freeFrame, retime, State.cube_modCube, State.cube_modCube]
  split
  next h => subst h; simp [Cube.setFrame]
  next h => simp [h]

theorem exec_taskComplete {s : State} (hpow : s.teasel.power = true) (c : CubeId) (f : FrameId) :
    exec (.taskComplete c f) s = .next (taskCompleteRun s c f) := powered_of_power hpow _

section
variable {s : State} {k : Rec} {g : Gang} {c : CubeId} {f : FrameId} {x : Task}

/-- A member of a gang recorded as completed. -/
def memberDone (s : State) (x : Task) : State := modGang s x.part x.launch x.gang fun g => { g with doneR := g.doneR ++ [x.rank] }

/-- A halted task of a record that is no span, its operations over, and no core left to turn: the member is done, the frame free. -/
theorem taskCompleteRun_of_halted (hrecs : s.hub.recs = [k]) (hgangs : k.gangs = [g]) (hspan : k.isSpan = false) (hpre : g.pre = false)
    (htask : (s.frame c f).task = some x) (hpart : x.part = k.part) (hlaunch : x.launch = k.id) (hgang : x.gang = g.idx)
    (hhalt : (s.frame c f).issue.halted = true) (hu : (s.frame c f).priv.lvl = false) (hstop : (s.frame c f).issue.stopped = false)
    (hfl : (s.frame c f).fl = Flight.none) (hout : (s.frame c f).taint.out = [])
    (hcores : turnCores (freeFrame (memberDone s x) c f true) = freeFrame (memberDone s x) c f true) :
    taskCompleteRun s c f = freeFrame (memberDone s x) c f true := by
  have hdone : (memberDone s x).hub.recs = [{ k with gangs := [{ g with doneR := g.doneR ++ [x.rank] }] }] := by
    rw [memberDone, hpart, hlaunch, hgang, modGang_recs_single hrecs hgangs]
  have hfind : findRec (memberDone s x) x.part x.launch = some { k with gangs := [{ g with doneR := g.doneR ++ [x.rank] }] } := by
    rw [hpart, hlaunch]
    exact findRec_of_single hdone
  have hsettle : settlePreempted (freeFrame (memberDone s x) c f true) k.part k.id g.idx = freeFrame (memberDone s x) c f true := by
    have h := settlePreempted_of_notSpan (s := freeFrame (memberDone s x) c f true)
      (k := { k with gangs := [{ g with doneR := g.doneR ++ [x.rank] }] }) (g := { g with doneR := g.doneR ++ [x.rank] }) hdone rfl hspan
    rw [if_neg (by simp [hpre])] at h
    exact h
  have htell := tellSpan_of_notSpan (s := memberDone s x) (k := { k with gangs := [{ g with doneR := g.doneR ++ [x.rank] }] }) hspan x.part
    (partCube (memberDone s x) x.part) (.spanMemberDone (wireId (memberDone s x) x.launch) x.gang x.rank)
  rw [taskCompleteRun, htask]
  simp only [hhalt, hu, hstop, opsOver_of_none hfl hout, Bool.not_false, and_self, if_true, landHalted_of_none hfl]
  rw [← memberDone, hfind]
  dsimp only
  rw [htell, hcores, hpart, hlaunch, hgang, hsettle]

end

/-! A gang (R33, R34, R343). -/

/-- A record with the error that it reports, the first of all. -/
def Rec.erring (e : Nat × Word × Word) (k : Rec) : Rec := { k with err := k.err <|> some e }

theorem endWithError_eq (s : State) {k : Rec} (hspan : k.isSpan = false) (gi : Nat) (e : Nat × Word × Word) : endWithError s k gi e =
    turnCores (cancelRest (modRec (releaseGang s k gi) k.part k.id (Rec.erring e)) k) := by
  simp only [endWithError, hspan]
  rfl

/-- What forgetting a gang's parked members leaves alone. -/
theorem forgetParked_keeps (s : State) (k : Rec) (gi : Nat) : (forgetParked s k gi).mem = s.mem ∧
    (forgetParked s k gi).hub.queues = s.hub.queues ∧ ∀ c f, (forgetParked s k gi).frame c f = s.frame c f := by
  rw [forgetParked]
  refine ⟨foldl_keeps State.mem (fun u d => State.modCube_mem u d _) allCubes s,
    foldl_keeps (fun u : State => u.hub.queues) (fun u d => congrArg Hub.queues (State.modCube_hub u d _)) allCubes s, fun c f => ?_⟩
  refine foldl_keeps (fun u : State => u.frame c f) (fun u d => ?_) allCubes s
  rw [State.frame, State.cube_modCube]
  split
  next hc => rw [hc]; rfl
  next => rfl

/-- What the release of a gang that holds no frame leaves alone. -/
theorem releaseGang_of_no_frame {s : State} {k : Rec} {gi : Nat} (h : ∀ c f, (s.frame c f).task = none) :
    (releaseGang s k gi).mem = s.mem ∧ (releaseGang s k gi).hub.queues = s.hub.queues ∧
      ∀ c f, (releaseGang s k gi).frame c f = s.frame c f := by
  have hframes : gangFrames s k.part k.id gi = [] := List.filter_eq_nil_iff.mpr fun ⟨c, f⟩ _ => by simp [h c f]
  have hfree : freeMembers s k gi = s := by rw [freeMembers, hframes]; rfl
  obtain ⟨hmem, hqueues, hframe⟩ := forgetParked_keeps s k gi
  rw [releaseGang_eq, hfree]
  exact ⟨hmem, hqueues, hframe⟩

theorem modRec_mem (s : State) (part id : Nat) (h : Rec → Rec) : (modRec s part id h).mem = s.mem := rfl

theorem leaveQueue_keeps {α : Type} (g : State → α) (hg : ∀ s h, g (State.modHub s h) = g s) (s : State) (k : Rec) : g (leaveQueue s k) = g s := by
  unfold leaveQueue
  dsimp only
  split
  · exact hg s _
  · rfl

theorem cancelRest_keeps {α : Type} (g : State → α) (hg : ∀ s h, g (State.modHub s h) = g s) {k : Rec} (hspan : k.isSpan = false) (s : State) :
    g (cancelRest s k) = g s := by
  unfold cancelRest
  simp only [hspan, Bool.false_eq_true, if_false]
  rw [leaveQueue_keeps g hg, hg, modRec, hg]

/-- A record none of whose gangs is still to be admitted. -/
def Rec.restCancelled (k : Rec) : Rec := { k with cancelled := k.cancelled + (k.total - k.next), next := k.total }

theorem cancelRest_recs {s : State} {k : Rec} (hspan : k.isSpan = false) :
    (cancelRest s k).hub.recs = s.hub.recs.map (onRec k.part k.id Rec.restCancelled) := by
  unfold cancelRest
  simp only [hspan, Bool.false_eq_true, if_false]
  rw [State.recs_of_roster (roster_leaveQueue ..)]
  rfl

theorem exec_gangComplete {s : State} (hpow : s.teasel.power = true) (n : LaunchName) (gang : Nat) :
    exec (.gangComplete n gang) s = .next (gangCompleteRun s n.part n.id gang) := powered_of_power hpow _

theorem Rec.dropGang_single {k : Rec} {g : Gang} (hgangs : k.gangs = [g]) : k.dropGang g.idx = { k with gangs := [], doneN := k.doneN + 1 } := by
  simp [Rec.dropGang, hgangs]

@[simp] theorem State.frame_modHub (s : State) (h : Hub → Hub) (c : CubeId) (f : FrameId) : (s.modHub h).frame c f = s.frame c f := rfl
@[simp] theorem State.frame_modRec (s : State) (part id : Nat) (g : Rec → Rec) (c : CubeId) (f : FrameId) :
    (modRec s part id g).frame c f = s.frame c f := rfl

/-- The only record of the package as the failure of its only gang leaves it. -/
theorem failed_recs {s : State} {k : Rec} {g : Gang} (hrecs : s.hub.recs = [k]) (hgangs : k.gangs = [g]) (hspan : k.isSpan = false) (e : Nat × Word × Word) :
    (cancelRest (modRec (releaseGang s k g.idx) k.part k.id (Rec.erring e)) k).hub.recs = [{ k with
      gangs := [], doneN := k.doneN + 1, err := some (k.err.getD e), cancelled := k.cancelled + (k.total - k.next), next := k.total }] := by
  rw [cancelRest_recs hspan, modRec_recs, releaseGang_recs, hrecs]
  rw [List.map_singleton, onRec_named, List.map_singleton, Rec.dropGang_single hgangs]
  have hname : ∀ (r : Rec) (h : Rec → Rec), r.part = k.part → r.id = k.id → onRec k.part k.id h r = h r := fun r h hp hi => by
    rw [← hp, ← hi, onRec_named]
  rw [hname { k with gangs := [], doneN := k.doneN + 1 } _ rfl rfl, List.map_singleton, hname (Rec.erring e { k with gangs := [], doneN := k.doneN + 1 }) _ rfl rfl]
  cases hke : k.err <;> simp [Rec.restCancelled, Rec.erring, Rec.total, Rec.gx, Rec.gy, Rec.gz, Rec.gsize, Rec.ctrl, Rec.word]

section
variable {s : State} {k : Rec} {g : Gang} (hrecs : s.hub.recs = [k]) (hgangs : k.gangs = [g]) (hspan : k.isSpan = false)
  (htask : ∀ c f, (s.frame c f).task = none) (hmerge : s.merge = [])
include hrecs hgangs hspan htask hmerge

/-- A gang whose members have all completed. -/
theorem gangCompleteRun_done (herr : g.err = none) (hst : g.st = .running) (hdone : g.doneR.length = k.gsize) :
    (gangCompleteRun s k.part k.id g.idx).mem = s.mem ∧
      (gangCompleteRun s k.part k.id g.idx).hub.recs = [{ k with gangs := [], doneN := k.doneN + 1 }] ∧
      (gangCompleteRun s k.part k.id g.idx).hub.queues = s.hub.queues := by
  obtain ⟨hmem, hqueues, hframes⟩ := releaseGang_of_no_frame (s := s) (k := k) (gi := g.idx) htask
  have hall : performAll s g.places = s := by rw [performAll, hmerge]; rfl
  have hrun : gangCompleteRun s k.part k.id g.idx = (releaseGang s k g.idx).modHub fun h => { h with phases := h.phases.filter fun p =>
      !(p.part = k.part && p.launch = k.id && p.gang = g.idx && p.kind = .gang) } := by
    rw [gangCompleteRun, findRec_of_single hrecs]
    simp only [Rec.gang_of_single hgangs, herr, hspan, hst, hdone, hall, Bool.false_eq_true, if_false, and_self, if_true]
    exact turnCores_of_no_task fun c f => by
      rw [State.frame_modHub, hframes, htask]
  rw [hrun, State.modHub_mem, State.modHub_hub, releaseGang_recs, hrecs, List.map_singleton, onRec_named,
    Rec.dropGang_single hgangs]
  exact ⟨hmem, rfl, hqueues⟩

/-- A failed gang none of whose members holds a frame. -/
theorem gangCompleteRun_failed {e : Nat × Word × Word} (herr : g.err = some e) (hst : g.st ≠ .waiting) :
    (gangCompleteRun s k.part k.id g.idx).mem = s.mem ∧ (gangCompleteRun s k.part k.id g.idx).hub.recs = [{ k with
      gangs := [], doneN := k.doneN + 1, err := some (k.err.getD e), cancelled := k.cancelled + (k.total - k.next), next := k.total }] := by
  obtain ⟨hmem, -, hframes⟩ := releaseGang_of_no_frame (s := s) (k := k) (gi := g.idx) htask
  have hall : performAll s g.places = s := by rw [performAll, hmerge]; rfl
  have hgf : gangFrames s k.part k.id g.idx = [] := List.filter_eq_nil_iff.mpr fun ⟨c, f⟩ _ => by simp [htask c f]
  have hstop : gangStopped s k g = true := by rw [gangStopped, hgf]; rfl
  have hkeeps := fun {α : Type} (p : State → α) (hp : ∀ s h, p (State.modHub s h) = p s) =>
    cancelRest_keeps p hp hspan (modRec (releaseGang s k g.idx) k.part k.id (Rec.erring e))
  have hrun : gangCompleteRun s k.part k.id g.idx =
      cancelRest (modRec (releaseGang s k g.idx) k.part k.id (Rec.erring e)) k := by
    rw [gangCompleteRun, findRec_of_single hrecs]
    simp only [Rec.gang_of_single hgangs, herr, hspan, hall, hstop, hst, Bool.false_eq_true, if_false, if_true, ne_eq, not_false_eq_true, and_self]
    refine (endWithError_eq s hspan g.idx e).trans ?_
    exact turnCores_of_no_task fun c f => by
      rw [hkeeps (fun u => u.frame c f) fun _ _ => rfl, State.frame_modRec, hframes, htask]
  rw [hrun, hkeeps State.mem fun _ _ => rfl, modRec_mem]
  exact ⟨hmem, failed_recs hrecs hgangs hspan e⟩

end

/-! A record (R341 to R343). -/

/-- The STATE with which a record completes (R342). -/
def recState (k : Rec) : Nat := if k.depFail then 5 else if k.err.isSome then 4 else 3

/-- The only record of the package completes: it is reported and retired, and none depends on it. -/
theorem recordCompleteRun_single {s : State} {k : Rec} (hrecs : s.hub.recs = [k]) (hhome : k.home = s.pkg) (hover : recOver k = true) :
    recordCompleteRun s k.part k.id = retired (reported s k (recState k)) k (recState k) := by
  have hnone : ∀ st, (retired (reported s k st) k st).hub.recs = [] := fun st => by
    rw [retired_recs, State.recs_of_roster (roster_reported s k st), hrecs]
    simp
  have hfold : ∀ st, ((retired (reported s k st) k st).hub.recs.filter fun o => o.part = k.part && o.deps.contains k.id).foldl failDependent
      (retired (reported s k st) k st) = retired (reported s k st) k st := fun st => by rw [hnone]; rfl
  have hrun : recordCompleteRun s k.part k.id = if recState k = 3 then retired (reported s k (recState k)) k (recState k) else
      ((retired (reported s k (recState k)) k (recState k)).hub.recs.filter fun o => o.part = k.part && o.deps.contains k.id).foldl failDependent
        (retired (reported s k (recState k)) k (recState k)) := by
    unfold recordCompleteRun
    simp only [findRec_of_single hrecs, hhome, hover, ne_eq, not_true_eq_false, Bool.not_true, Bool.false_eq_true, or_self, if_false]
    rfl
  rw [hrun, hfold, ite_self]

theorem writeCpl_hub (s : State) (k : Rec) (st : Nat) : (writeCpl s k st).hub = s.hub := by
  unfold writeCpl
  dsimp only
  split
  · rfl
  · split
    · rfl
    · unfold logFail
      split
      · split <;> rfl
      · rfl

/-- Retiring a record changes neither memory nor Teasel. -/
theorem retired_keeps {α : Type} (g : State → α) (hh : ∀ s h, g (State.modHub s h) = g s) (hc : ∀ s c h, g (State.modCube s c h) = g s)
    (s : State) (k : Rec) (st : Nat) : g (retired s k st) = g s := by
  unfold retired
  dsimp only
  rw [foldl_keeps g (fun u c => hc u c _) allCubes, hh, modPart, hh]

theorem reported_keeps {α : Type} (g : State → α) (hh : ∀ s h, g (State.modHub s h) = g s) (s : State) (k : Rec) (st : Nat) :
    g (reported s k st) = g (writeCpl s k st) := by
  unfold reported
  dsimp only
  split
  · exact hh _ _
  · rfl

/-- The vector of a record: signalled, or pending where it is masked. -/
theorem reported_msix (s : State) (k : Rec) (st : Nat) : (reported s k st).hub =
    if Nat.testBit (k.word 13) 15 then raiseMsix s.hub k.part (k.word 13 % 2 ^ 11) else s.hub := by
  unfold reported
  dsimp only
  split
  · rw [State.modHub_hub, writeCpl_hub]
    simp [bits]
  · exact writeCpl_hub s k st

theorem retired_signals (s : State) (k : Rec) (st : Nat) : (retired s k st).hub.msix = s.hub.msix ∧ (retired s k st).hub.mpend = s.hub.mpend :=
  ⟨foldl_keeps (fun u : State => u.hub.msix) (fun _ _ => rfl) allCubes _, foldl_keeps (fun u : State => u.hub.mpend) (fun _ _ => rfl) allCubes _⟩

theorem exec_recordComplete {s : State} (hpow : s.teasel.power = true) (n : LaunchName) :
    exec (.recordComplete n) s = .next (recordCompleteRun s n.part n.id) := powered_of_power hpow _

/-! The completion record (R342). -/

/-- Bytes of a write read back, wherever in it they stand. -/
theorem gRead_gWrite_part (s : State) (a : Nat) (l m n : List Byte) : gRead (gWrite s a (l ++ m ++ n)) (a + l.length) m.length = leVal m := by
  have hbytes : mergedBytes (gWrite s a (l ++ m ++ n)) (a + l.length) m.length = m := by
    refine List.ext_getElem (by simp [mergedBytes]) fun i _ hi => ?_
    have h := mergedByte_gWrite_covered s a (l.length + i) (l ++ m ++ n) (by simp; omega)
    have hget : mergedByte (gWrite s a (l ++ m ++ n)) (a + l.length + i) = m[i] := by
      rw [Nat.add_assoc, h]
      simp [hi]
    simpa [mergedBytes] using hget
  rw [gRead, mergedVal, hbytes]

theorem gRead_gWrite_apart {s : State} {a b n : Nat} {l : List Byte} (h : b + n ≤ a ∨ a + l.length ≤ b) : gRead (gWrite s a l) b n = gRead s b n :=
  gRead_congr fun i hi => by rw [mergedByte_gWrite, if_neg (by omega)]

theorem cplWord_eq (k : Rec) (st : Nat) : cplWord k st = w64 (k.id <<< 32 + st <<< 24 + ((k.err.getD (0, 0, 0)).1 % 32) <<< 16) := by
  unfold cplWord
  cases k.err <;> rfl

/-- The words after the first of a completion record. -/
def cplTail (k : Rec) : List Byte :=
  leBytes 8 (k.err.getD (0, 0, 0)).2.1.toNat ++ leBytes 8 (k.err.getD (0, 0, 0)).2.2.toNat ++ leBytes 8 (k.cancelled % 2 ^ 32)

theorem writeCpl_of_translated {s : State} {k : Rec} {a : Nat} (hva : k.word 12 ≠ 0)
    (h : hubTranslate s k.part k.asid { w := true } (k.word 12) = .ok a) (st : Nat) :
    writeCpl s k st = gWrite (gWrite s (a + 8) (cplTail k)) a (leBytes 8 (cplWord k st).toNat) := by
  unfold writeCpl
  simp only [hva, h, if_false, cplTail]
  cases k.err <;> rfl

theorem writeCpl_of_failed {s : State} {k : Rec} {e : Nat} (hva : k.word 12 ≠ 0)
    (h : hubTranslate s k.part k.asid { w := true } (k.word 12) = .error e)
    (hclean : ∀ w, walk s k.part k.asid (k.word 12) = .error w → w.bad = false) (st : Nat) :
    (writeCpl s k st).mem = s.mem ∧ (writeCpl s k st).teasel.logSeq = s.teasel.logSeq + 1 := by
  have hlog : logFail s 255 k.part k.asid (k.word 12) (walk s k.part k.asid (k.word 12)) = s := by
    unfold logFail
    split
    next w hw => rw [hclean w hw]; rfl
    next => rfl
  unfold writeCpl
  simp only [hva, h, if_false, hlog]
  exact ⟨rfl, rfl⟩

theorem length_cplTail (k : Rec) : (cplTail k).length = 24 := by simp [cplTail, length_leBytes]

/-- The four words of a completion record, and what it leaves alone. -/
theorem gRead_completion (s : State) (k : Rec) (a st : Nat) (hst : st < 2 ^ 8) :
    let t := gWrite (gWrite s (a + 8) (cplTail k)) a (leBytes 8 (cplWord k st).toNat)
    let e := k.err.getD (0, 0, 0)
    (k.id < 2 ^ 32 → gRead t a 8 = k.id * 2 ^ 32 + st * 2 ^ 24 + e.1 % 32 * 2 ^ 16) ∧ w64 (gRead t (a + 8) 8) = e.2.1 ∧
      w64 (gRead t (a + 16) 8) = e.2.2 ∧ gRead t (a + 24) 8 = k.cancelled % 2 ^ 32 ∧
      ∀ p, p < a ∨ a + 32 ≤ p → mergedByte t p = mergedByte s p := by
  intro t e
  have hlow : ∀ o, 8 ≤ o → gRead t (a + o) 8 = gRead (gWrite s (a + 8) (cplTail k)) (a + o) 8 := fun o ho =>
    gRead_gWrite_apart (Or.inr (by rw [length_leBytes]; omega))
  have hword : ∀ w : Word, w64 (w.toNat % 2 ^ 64) = w := fun w => by
    rw [Nat.mod_eq_of_lt w.isLt, w64, BitVec.ofNat_toNat, BitVec.setWidth_eq]
  refine ⟨fun hid => ?_, ?_, ?_, ?_, fun p hp => ?_⟩
  · have hfirst := gRead_gWriteVal (gWrite s (a + 8) (cplTail k)) a 8 (cplWord k st).toNat
    rw [show gRead t a 8 = _ from hfirst, cplWord_eq, w64]
    change _ = k.id * 2 ^ 32 + st * 2 ^ 24 + (k.err.getD (0, 0, 0)).1 % 32 * 2 ^ 16
    simp only [BitVec.toNat_ofNat, Nat.shiftLeft_eq]
    omega
  · have h := gRead_gWrite_part s (a + 8) [] (leBytes 8 e.2.1.toNat) (leBytes 8 e.2.2.toNat ++ leBytes 8 (k.cancelled % 2 ^ 32))
    simp only [List.nil_append, List.length_nil, Nat.add_zero, length_leBytes, leVal_leBytes, ← List.append_assoc] at h
    rw [hlow 8 (by decide), cplTail, h, hword]
  · have h := gRead_gWrite_part s (a + 8) (leBytes 8 e.2.1.toNat) (leBytes 8 e.2.2.toNat) (leBytes 8 (k.cancelled % 2 ^ 32))
    rw [length_leBytes, length_leBytes, leVal_leBytes] at h
    rw [hlow 16 (by decide), cplTail, show a + 16 = a + 8 + 8 by omega, h, hword]
  · have h := gRead_gWrite_part s (a + 8) (leBytes 8 e.2.1.toNat ++ leBytes 8 e.2.2.toNat) (leBytes 8 (k.cancelled % 2 ^ 32)) []
    rw [List.append_nil, List.length_append, length_leBytes, length_leBytes, length_leBytes, leVal_leBytes] at h
    rw [hlow 24 (by decide), cplTail, show a + 24 = a + 8 + (8 + 8) by omega, h, Nat.mod_eq_of_lt (by omega)]
  · rw [mergedByte_gWrite, if_neg (by rw [length_leBytes]; omega), mergedByte_gWrite, if_neg (by rw [length_cplTail]; omega)]

end Sys2Proof.Machine

open Sys2Proof Sys2Proof.Machine

/-- Settles O48: the frame of a halted task is given back by `freeFrame`, a gang's end is its release, and a record's end is
`retired` after `reported`. -/
theorem tasksGangsAndRecordsComplete : Obligations.TasksGangsAndRecordsComplete := by
  unfold Obligations.TasksGangsAndRecordsComplete
  intro s k hpow hrecs hspan
  refine ⟨fun g c f x hgangs htask hpart hlaunch hgang hpre hhalt hu hstop hfl hout hcores => ?_, fun g hgangs htask hmerge => ⟨fun herr hst hdone => ?_, fun e herr hst => ?_⟩,
    fun hhome hover => ?_⟩
  · have hother : ∀ d h, (d, h) ≠ (c, f) → (freeFrame (memberDone s x) c f true).frame d h = s.frame d h := fun d h hne =>
      (freeFrame_frame_ne hne true).trans rfl
    have hfree := freeFrame_frame (memberDone s x) c f true
    have hturn : turnCores (freeFrame (memberDone s x) c f true) = freeFrame (memberDone s x) c f true := by
      refine turnCores_of_settled fun d => ?_
      rw [freeFrame_running]
      have hrun : ((memberDone s x).cube d).running = (s.cube d).running := rfl
      rw [hrun]
      rcases hcores d with heq | hnone | ⟨hne, hsome⟩
      · refine Or.inr ?_
        obtain ⟨rfl, hf⟩ := Prod.mk.inj heq
        rw [hf, hfree]
        rfl
      · refine Or.inr ?_
        by_cases heq : (d, 1 - (s.cube d).running) = (c, f)
        · obtain ⟨rfl, hf⟩ := Prod.mk.inj heq
          rw [hf, hfree]
          rfl
        · rw [hother _ _ heq, hnone]
      · exact Or.inl (by rw [hother _ _ fun h => hne (congrArg Prod.fst h)]; exact hsome)
    refine ⟨_, (exec_taskComplete hpow c f).trans (congrArg _ (taskCompleteRun_of_halted hrecs hgangs hspan hpre htask hpart hlaunch hgang hhalt hu
      hstop hfl hout hturn)), rfl, ?_, hfree, hother⟩
    rw [← modGang_recs_single hrecs hgangs fun g => { g with doneR := g.doneR ++ [x.rank] }, ← hpart, ← hlaunch, ← hgang]
    rfl
  · exact ⟨_, exec_gangComplete hpow _ _, gangCompleteRun_done hrecs hgangs hspan htask hmerge herr hst hdone⟩
  · exact ⟨_, exec_gangComplete hpow _ _, gangCompleteRun_failed hrecs hgangs hspan htask hmerge herr hst⟩
  · intro st
    have hst : recState k = st := rfl
    have hlt : st < 2 ^ 8 := by rw [← hst, recState]; split <;> [skip; split] <;> decide
    have hrun := recordCompleteRun_single hrecs hhome hover
    rw [hst] at hrun
    have hmsix := reported_msix s k st
    have hsig := retired_signals (reported s k st) k st
    have hkeeps := fun {α : Type} (p : State → α) (hh : ∀ s h, p (State.modHub s h) = p s) (hc : ∀ s c h, p (State.modCube s c h) = p s) =>
      (retired_keeps p hh hc (reported s k st) k st).trans (reported_keeps p hh s k st)
    have hmem := hkeeps State.mem (fun _ _ => rfl) fun _ _ _ => rfl
    have hmrg := hkeeps State.merge (fun _ _ => rfl) fun _ _ _ => rfl
    have htea := hkeeps State.teasel (fun _ _ => rfl) fun _ _ _ => rfl
    refine ⟨_, (exec_recordComplete hpow _).trans (congrArg _ hrun), ?_, ?_⟩
    · rw [retired_recs, State.recs_of_roster (roster_reported s k st), hrecs]
      simp
    intro v masked
    refine ⟨?_, fun hbit hmask => ?_, fun d hd => ?_, fun hva => ?_, fun e hva htrans hclean => ?_, fun a hva htrans => ?_⟩
    · rw [hsig.1, hmsix]
      by_cases hbit : Nat.testBit (k.word 13) 15 = true
      · rw [if_pos hbit, raiseMsix]
        by_cases hmask : masked = true
        · rw [if_pos hmask, if_neg fun h => by rw [hmask] at h; exact absurd h.2 (by decide)]
        · rw [if_neg hmask, if_pos ⟨hbit, Bool.eq_false_iff.mpr hmask⟩]
      · rw [if_neg hbit, if_neg fun h => hbit h.1]
    · rw [hsig.2, hmsix, if_pos hbit, raiseMsix, if_pos hmask]
      exact fget_fset_same false _ _ true
    · have hsite := State.site_of_roster (roster_reported s k st)
      rw [partOf_of_site (retired_site (reported s k st) k st), partOf_modPart, partOf_of_site hsite, hd]
      rfl
    · rw [hmem, writeCpl, if_pos hva]
    · rw [hmem, htea]
      exact writeCpl_of_failed hva htrans hclean st
    · intro e
      have hsame := writeCpl_of_translated hva htrans st
      rw [hsame] at hmem hmrg
      obtain ⟨h0, h8, h16, h24, hout⟩ := gRead_completion s k a st hlt
      have hbyte : ∀ p, mergedByte (retired (reported s k st) k st) p =
          mergedByte (gWrite (gWrite s (a + 8) (cplTail k)) a (leBytes 8 (cplWord k st).toNat)) p := fun p => by
        simp only [mergedByte, hmem, hmrg]
      simp only [gRead_of_sameMemory ⟨hmem, hmrg⟩, hbyte]
      exact ⟨h0, h8, h16, h24, hout⟩
end

section
/-! SUPPORT. Rails and layer states, and the failures of storage (R36, R374 to R376, R388, R389). -/

namespace Sys2Proof.Machine

/-! A change of one cube. -/

theorem modCube_congr {s : State} {c : CubeId} {g h : Cube → Cube} (heq : g (s.cube c) = h (s.cube c)) : s.modCube c g = s.modCube c h := by
  rw [State.modCube, heq, State.modCube]

theorem modCube_self {s : State} {c : CubeId} {g : Cube → Cube} (hg : g (s.cube c) = s.cube c) : s.modCube c g = s := by
  rw [State.modCube, hg, State.setCube_cube]

theorem State.cube_modCube_same (s : State) (c : CubeId) (g : Cube → Cube) : (s.modCube c g).cube c = g (s.cube c) := by
  rw [State.cube_modCube, if_pos rfl]

/-! Rails (R374, R375). -/

/-- What RAIL_TRIM does to one rail: a step toward the lowest passing value and the margin, where a value was sampled. -/
def railStep (t : Teasel) (pass : List Nat) (i now : Nat) : Nat :=
  match pass[i]? with | some p => trimOne now (p + trimMargin t) | none => now

/-- The trimmed voltages after a RAIL_TRIM. -/
def trimmed (t : Teasel) (pass : List Nat) (m : FMap Nat) : FMap Nat :=
  (List.range 512).foldl (fun m i => fset trimNominal m i (railStep t pass i (fget trimNominal m i))) m

theorem fget_foldl_fset_of_notMem {α : Type} [DecidableEq α] (d : α) (g : Nat → α → α) {i : Nat} :
    ∀ (l : List Nat) (m : FMap α), i ∉ l → fget d (l.foldl (fun m i => fset d m i (g i (fget d m i))) m) i = fget d m i
  | [], _, _ => rfl
  | k :: l, m, hi => by
    rw [List.mem_cons, not_or] at hi
    rw [List.foldl_cons, fget_foldl_fset_of_notMem d g l _ hi.2, fget_fset_other _ _ _ _ _ hi.1]

theorem fget_foldl_fset_of_mem {α : Type} [DecidableEq α] (d : α) (g : Nat → α → α) {i : Nat} :
    ∀ (l : List Nat) (m : FMap α), l.Nodup → i ∈ l →
      fget d (l.foldl (fun m i => fset d m i (g i (fget d m i))) m) i = g i (fget d m i)
  | k :: l, m, hnd, hi => by
    obtain ⟨hk, hl⟩ := List.nodup_cons.mp hnd
    rw [List.foldl_cons]
    rcases List.mem_cons.mp hi with rfl | hil
    · rw [fget_foldl_fset_of_notMem d g l _ hk, fget_fset_same]
    · have hne : i ≠ k := fun h => hk (h ▸ hil)
      rw [fget_foldl_fset_of_mem d g l _ hl hil, fget_fset_other _ _ _ _ _ hne]

theorem fget_trimmed (t : Teasel) (pass : List Nat) (m : FMap Nat) {i : Nat} (hi : i < 512) :
    fget trimNominal (trimmed t pass m) i = railStep t pass i (fget trimNominal m i) :=
  fget_foldl_fset_of_mem trimNominal (railStep t pass) _ m List.nodup_range (List.mem_range.mpr hi)

/-- `trimmed` written over any list of rails, as RAIL_TRIM writes it. -/
theorem foldl_railStep (t : Teasel) (pass : List Nat) (rails : List Nat) (m : FMap Nat) :
    rails.foldl (fun m i => let now := fget trimNominal m i
      fset trimNominal m i (match pass[i]? with | some p => trimOne now (p + trimMargin t) | none => now)) m =
    rails.foldl (fun m i => fset trimNominal m i (railStep t pass i (fget trimNominal m i))) m := rfl

theorem railTrimRun_due {s : State} {c : CubeId} (pass : List Nat) (h : usCycles 10000 ≤ s.now - (s.cube c).fab.trimAt) :
    railTrimRun s c pass =
      s.modCube c fun q => { q with fab := { q.fab with trim := trimmed s.teasel pass (s.cube c).fab.trim, trimAt := s.now } } := by
  rw [railTrimRun, if_neg (Nat.not_lt.mpr h)]
  have hfold := foldl_railStep s.teasel pass (List.range 512) (s.cube c).fab.trim
  exact modCube_congr (congrArg (fun m => { s.cube c with fab := { (s.cube c).fab with trim := m, trimAt := s.now } }) hfold)

theorem exec_railTrim_early {s : State} {c : CubeId} (hpow : s.teasel.power = true) (pass : List Nat)
    (h : s.now - (s.cube c).fab.trimAt < usCycles 10000) : exec (.railTrim c pass) s = .next s := by
  refine (powered_of_power hpow _).trans ?_
  rw [railTrimRun, if_pos h]

theorem exec_railTrim_due {s : State} {c : CubeId} (hpow : s.teasel.power = true) (pass : List Nat)
    (h : usCycles 10000 ≤ s.now - (s.cube c).fab.trimAt) : exec (.railTrim c pass) s =
      .next (s.modCube c fun q => { q with fab := { q.fab with trim := trimmed s.teasel pass (s.cube c).fab.trim, trimAt := s.now } }) := by
  refine (powered_of_power hpow _).trans ?_
  rw [railTrimRun_due pass h]

/-- `modPow` where the layer's state does not change, and where it does. -/
theorem modPow_self {s : State} {c : CubeId} {z : Fin 8} {g : LayerPow → LayerPow} (hg : g (s.cube c).pow[z] = (s.cube c).pow[z]) :
    modPow s c z g = s := by
  refine modCube_self ?_
  rw [hg]
  simp
theorem modPow_of {s : State} {c : CubeId} {z : Fin 8} {g : LayerPow → LayerPow} {x : LayerPow} (hg : g (s.cube c).pow[z] = x) :
    modPow s c z g = s.modCube c fun q => { q with pow := q.pow.set z x } := modCube_congr (by rw [hg])

theorem exec_railRiseDone {s : State} (hpow : s.teasel.power = true) (c : CubeId) (z : Fin 8) :
    exec (.railRiseDone c z) s = .next (if (s.cube c).pow[z].ready ≤ s.now then
      s.modCube c fun q => { q with pow := q.pow.set z { (s.cube c).pow[z] with ready := 0 } } else s) := by
  refine (powered_of_power hpow _).trans ?_
  split
  case isTrue h => exact congrArg _ (modPow_of (if_pos h))
  case isFalse h => exact congrArg _ (modPow_self (if_neg h))

/-! Layer states (R376). -/

/-- LAYER_GATE, LAYER_RETENTION and LAYER_WAKE act where their condition holds, and only there. -/
theorem exec_layerGate {s : State} (hpow : s.teasel.power = true) (c : CubeId) (z : Fin 8) :
    exec (.layerGate c z) s = .next (modPow s c z fun p =>
      if p.st = .active ∧ 64 ≤ s.now - p.since ∧ (!layerBusy (s.cube c) z.val) = true ∧ (!(s.cube c).camp.ballast.getLsbD z.val) = true then
        { p with st := .gated, since := s.now } else p) := powered_of_power hpow _
theorem exec_layerRetention {s : State} (hpow : s.teasel.power = true) (c : CubeId) (z : Fin 8) :
    exec (.layerRetention c z) s = .next (modPow s c z fun p =>
      if p.st = .gated ∧ usCycles 1000 ≤ s.now - p.since ∧ (!layerNeeded (s.cube c) z.val s.now) = true then
        { p with st := .retention, since := s.now } else p) := powered_of_power hpow _
theorem exec_layerWake {s : State} (hpow : s.teasel.power = true) (c : CubeId) (z : Fin 8) :
    exec (.layerWake c z) s = .next (if (s.cube c).camp.trip.isSome = true then s else modPow s c z fun p =>
      if p.st = .retention ∧ p.waking = true ∧ p.ready ≤ s.now then { p with st := .active, since := s.now, waking := false } else p) :=
  powered_of_power hpow _

end Sys2Proof.Machine
end

section
/-! SUPPORT. Regulator phases, and a layer that leaves service (R36, R376, R388). -/

namespace Sys2Proof.Machine

/-! The log. -/

@[simp] theorem logEvent_logSeq (s : State) (code cube : Nat) (l : List Word) : (logEvent s code cube l).teasel.logSeq = s.teasel.logSeq + 1 := rfl
@[simp] theorem logEvent_frame (s : State) (code cube : Nat) (l : List Word) (c : CubeId) (f : FrameId) :
    (logEvent s code cube l).frame c f = s.frame c f := rfl

theorem State.frame_modCube_same (s : State) (c : CubeId) (g : Cube → Cube) (f : FrameId) : (s.modCube c g).frame c f = (g (s.cube c)).frame f := by
  rw [State.frame, State.cube_modCube_same]

/-! Layers that frames hold (R36). -/

theorem getLsbD_heldLayers (q : Cube) (z : Nat) :
    (q.frames.foldl (fun u r => u ||| r.ctl.layers) 0#8).getLsbD z = true ↔ ∃ f, (q.frame f).ctl.layers.getLsbD z = true := by
  have hframes : q.frames = #v[q.frame 0, q.frame 1] := by
    ext i hi
    rcases i with _ | _ | i
    · rfl
    · rfl
    · omega
  rw [hframes, Fin.exists_fin_two]
  simp

/-- The layers that leave service for good: failing, and held by no frame. -/
def goneLayers (q : Cube) : BitVec 8 := q.fab.failing &&& ~~~(q.frames.foldl (fun u r => u ||| r.ctl.layers) 0#8)

theorem getLsbD_goneLayers_of_held {q : Cube} {z : Nat} (h : ∃ f, (q.frame f).ctl.layers.getLsbD z = true) : (goneLayers q).getLsbD z = false := by
  rw [goneLayers, BitVec.getLsbD_and, BitVec.getLsbD_not, (getLsbD_heldLayers q z).mpr h]
  simp

theorem getLsbD_goneLayers_of_free {q : Cube} {z : Nat} (hz : z < 8) (hfail : q.fab.failing.getLsbD z = true)
    (h : ∀ f, (q.frame f).ctl.layers.getLsbD z = false) : (goneLayers q).getLsbD z = true := by
  have hheld : (q.frames.foldl (fun u r => u ||| r.ctl.layers) 0#8).getLsbD z = false := by
    rw [Bool.eq_false_iff, Ne, getLsbD_heldLayers]
    rintro ⟨f, hf⟩
    rw [h f] at hf
    exact absurd hf (by decide)
  rw [goneLayers, BitVec.getLsbD_and, BitVec.getLsbD_not, hheld, hfail]
  simp [hz]

section
variable {q : Cube} {z : Fin 8} (h : ∃ f, (q.frame f).ctl.layers.getLsbD z.val = true)
include h

theorem settleWithdrawn_failing_of_held : (settleWithdrawn q).fab.failing.getLsbD z.val = q.fab.failing.getLsbD z.val := by
  change (q.fab.failing &&& ~~~(goneLayers q)).getLsbD z.val = _
  rw [BitVec.getLsbD_and, BitVec.getLsbD_not, getLsbD_goneLayers_of_held h, decide_eq_true z.isLt, Bool.not_false, Bool.and_self, Bool.and_true]

theorem settleWithdrawn_busBad_of_held : (settleWithdrawn q).fab.busBad.getLsbD z.val = q.fab.busBad.getLsbD z.val := by
  change (q.fab.busBad &&& ~~~(goneLayers q)).getLsbD z.val = _
  rw [BitVec.getLsbD_and, BitVec.getLsbD_not, getLsbD_goneLayers_of_held h, decide_eq_true z.isLt, Bool.not_false, Bool.and_self, Bool.and_true]

theorem settleWithdrawn_pow_of_held : (settleWithdrawn q).pow[z] = q.pow[z] := by
  change (Vector.ofFn fun z : Fin 8 => if (goneLayers q).getLsbD z.val then { q.pow[z] with st := .withdrawn } else q.pow[z])[z] = _
  have hstays := getLsbD_goneLayers_of_held h
  rw [Fin.getElem_fin, Vector.getElem_ofFn, if_neg (by rw [hstays]; decide)]

end

theorem settleWithdrawn_pow_of_free {q : Cube} {z : Fin 8} (hfail : q.fab.failing.getLsbD z.val = true)
    (h : ∀ f, (q.frame f).ctl.layers.getLsbD z.val = false) : (settleWithdrawn q).pow[z].st = .withdrawn := by
  change (Vector.ofFn fun z : Fin 8 => if (goneLayers q).getLsbD z.val then { q.pow[z] with st := .withdrawn } else q.pow[z])[z].st = _
  have hgone := getLsbD_goneLayers_of_free z.isLt hfail h
  rw [Fin.getElem_fin, Vector.getElem_ofFn, if_pos hgone]

/-! A layer that begins to leave service (R10, R36). -/

/-- A frame that holds no task loses the layer at once. -/
def losesLayer (z : Nat) (r : Frame) : Frame :=
  if r.task.isNone then { r with ctl := { r.ctl with layers := r.ctl.layers &&& ~~~(1#8 <<< z) } } else r

theorem losesLayer_of_task {z : Nat} {r : Frame} (h : r.task.isSome = true) : losesLayer z r = r :=
  if_neg (by rw [Option.isNone_eq_false_iff.mpr h]; decide)

theorem getLsbD_one_shiftLeft (z : Fin 8) : (1#8 <<< z.val).getLsbD z.val = true := by revert z; decide

theorem losesLayer_layers_of_free {z : Fin 8} {r : Frame} (h : r.task.isSome = true → r.ctl.layers.getLsbD z.val = false) :
    (losesLayer z.val r).ctl.layers.getLsbD z.val = false := by
  rw [losesLayer]
  split
  case isTrue => simp only [BitVec.getLsbD_and, BitVec.getLsbD_not, getLsbD_one_shiftLeft, Bool.not_true, Bool.and_false]
  case isFalse hnone => exact h (Option.isSome_iff_ne_none.mpr fun hn => hnone (by rw [hn]; rfl))

/-- The cube that `dropLayer` leaves before layers that no frame holds leave for good. -/
def layerLeft (q : Cube) (z : Nat) (bus : Bool) : Cube :=
  { q with
    fab := { q.fab with
      insvc := q.fab.insvc &&& ~~~(1#8 <<< z), failing := q.fab.failing ||| 1#8 <<< z
      lost := match q.fab.phys.toList.getD z none with | some p => q.fab.lost ||| (1#9 <<< p) | none => q.fab.lost
      busBad := if bus then q.fab.busBad ||| 1#8 <<< z else q.fab.busBad }
    frames := q.frames.map (losesLayer z) }

theorem dropLayer_eq (q : Cube) (z : Nat) (bus : Bool) : dropLayer q z bus = settleWithdrawn (layerLeft q z bus) := rfl

theorem layerLeft_frame (q : Cube) (z : Nat) (bus : Bool) (f : FrameId) : (layerLeft q z bus).frame f = losesLayer z (q.frame f) := by
  simp [layerLeft, Cube.frame]

theorem dropLayer_frame (q : Cube) (z : Nat) (bus : Bool) (f : FrameId) : (dropLayer q z bus).frame f = losesLayer z (q.frame f) := by
  rw [dropLayer_eq, settleWithdrawn_frame, layerLeft_frame]

theorem dropLayer_insvc (q : Cube) (z : Nat) (bus : Bool) : (dropLayer q z bus).fab.insvc = q.fab.insvc &&& ~~~(1#8 <<< z) := rfl
theorem dropLayer_face (q : Cube) (z : Nat) (bus : Bool) : (dropLayer q z bus).face = q.face := rfl

theorem layerLeft_failing (q : Cube) (z : Fin 8) (bus : Bool) : (layerLeft q z.val bus).fab.failing.getLsbD z.val = true := by
  rw [layerLeft, BitVec.getLsbD_or, getLsbD_one_shiftLeft, Bool.or_true]
theorem layerLeft_busBad (q : Cube) (z : Fin 8) : (layerLeft q z.val true).fab.busBad.getLsbD z.val = true := by
  rw [layerLeft, if_pos rfl, BitVec.getLsbD_or, getLsbD_one_shiftLeft, Bool.or_true]

theorem layerLeft_held {q : Cube} {z : Nat} (bus : Bool) (h : ∃ f, (q.frame f).ctl.layers.getLsbD z = true ∧ (q.frame f).task.isSome = true) :
    ∃ f, ((layerLeft q z bus).frame f).ctl.layers.getLsbD z = true := by
  obtain ⟨f, hbit, htask⟩ := h
  exact ⟨f, by rw [layerLeft_frame, losesLayer_of_task htask, hbit]⟩

section
variable {q : Cube} {z : Fin 8} (bus : Bool)

theorem dropLayer_failing (h : ∃ f, (q.frame f).ctl.layers.getLsbD z.val = true ∧ (q.frame f).task.isSome = true) :
    (dropLayer q z.val bus).fab.failing.getLsbD z.val = true := by
  rw [dropLayer_eq, settleWithdrawn_failing_of_held (layerLeft_held bus h), layerLeft_failing]

theorem dropLayer_busBad (h : ∃ f, (q.frame f).ctl.layers.getLsbD z.val = true ∧ (q.frame f).task.isSome = true) :
    (dropLayer q z.val true).fab.busBad.getLsbD z.val = true := by
  rw [dropLayer_eq, settleWithdrawn_busBad_of_held (layerLeft_held true h), layerLeft_busBad]

theorem dropLayer_pow_of_held (h : ∃ f, (q.frame f).ctl.layers.getLsbD z.val = true ∧ (q.frame f).task.isSome = true) :
    (dropLayer q z.val bus).pow[z] = q.pow[z] := by
  rw [dropLayer_eq, settleWithdrawn_pow_of_held (layerLeft_held bus h)]
  rfl

theorem dropLayer_pow_of_free (h : ∀ f, (q.frame f).task.isSome = true → (q.frame f).ctl.layers.getLsbD z.val = false) :
    (dropLayer q z.val bus).pow[z].st = .withdrawn := by
  rw [dropLayer_eq]
  refine settleWithdrawn_pow_of_free (layerLeft_failing q z bus) fun f => ?_
  rw [layerLeft_frame]
  exact losesLayer_layers_of_free (h f)

end

/-! Operations that name a parked layer (R388). -/

/-- A cube operation that names the layer is barred from landing. -/
def barEnt (z : Nat) (e : CubeEnt) : CubeEnt := if e.mask.getLsbD z then { e with barred := e.barred <|> some z } else e

theorem barEnt_barred {z : Nat} {e : CubeEnt} (h : (barEnt z e).mask.getLsbD z = true) : (barEnt z e).barred.isSome = true := by
  rw [barEnt] at h ⊢
  split
  case isTrue => cases e.barred <;> rfl
  case isFalse hz => rw [if_neg hz] at h; exact absurd h hz

theorem barLayer_frame (q : Cube) (z : Nat) (f : FrameId) : (barLayer q z).frame f =
    { q.frame f with fl := { (q.frame f).fl with cubeA := (q.frame f).fl.cubeA.map (barEnt z) } } := by
  simp [barLayer, Cube.frame, barEnt]

end Sys2Proof.Machine
end

section
/-! SUPPORT. What a failed regulator phase, an error of storage and a failed port leave (R36, R365, R366, R388, R389). -/

namespace Sys2Proof.Machine

/-! Regulator phases (R388). -/

/-- A failed phase is counted. -/
def phaseCounted (s : State) (c : CubeId) (key n : Nat) : State :=
  s.modCube c fun q => { q with fab := { q.fab with phases := fset 0 q.fab.phases key (n + 1) } }

theorem phaseCounted_cube (s : State) (c : CubeId) (key n : Nat) : (phaseCounted s c key n).cube c =
    { s.cube c with fab := { (s.cube c).fab with phases := fset 0 (s.cube c).fab.phases key (n + 1) } } := State.cube_modCube_same ..

/-- The state of a cube whose layer is parked: what names it and has not landed is barred, and the layer leaves service. -/
def parkedLayer (q : Cube) (z : Fin 8) (now : Nat) : Cube :=
  dropLayer (barLayer { q with pow := q.pow.set z { q.pow[z] with st := .parked, since := now } } z.val) z.val false

section
variable (s : State) (c : CubeId) (z : Fin 8) (group : Fin 16) (rail : Fin 4)

theorem ivrRun_first (h : fget 0 (s.cube c).fab.phases (16 * z.val + group.val) = 0) : ivrRun s c z group rail =
    logEvent (phaseCounted s c (16 * z.val + group.val) 0) 0x42 c.val [w64 z.val, w64 group.val, w64 rail.val] := by
  simp only [ivrRun, h, if_true]
  rfl

theorem ivrRun_withdrawn (h : fget 0 (s.cube c).fab.phases (16 * z.val + group.val) = 1) (hst : (s.cube c).pow[z].st = .withdrawn) :
    ivrRun s c z group rail =
      logEvent (phaseCounted s c (16 * z.val + group.val) 1) 0x43 c.val [w64 z.val, w64 group.val, w64 rail.val] := by
  have hst' : ((phaseCounted s c (16 * z.val + group.val) 1).cube c).pow[z].st = .withdrawn := by rw [phaseCounted_cube]; exact hst
  rw [phaseCounted] at hst' ⊢
  simp only [ivrRun, h, Nat.one_ne_zero, if_false, if_true, hst', decide_true]

theorem ivrRun_second (h : fget 0 (s.cube c).fab.phases (16 * z.val + group.val) = 1) (hst : (s.cube c).pow[z].st ≠ .withdrawn) :
    ivrRun s c z group rail =
      logEvent ((phaseCounted s c (16 * z.val + group.val) 1).modCube c fun q => parkedLayer q z s.now)
        0x43 c.val [w64 z.val, w64 group.val, w64 rail.val] := by
  have hst' : ((phaseCounted s c (16 * z.val + group.val) 1).cube c).pow[z].st ≠ .withdrawn := by rw [phaseCounted_cube]; exact hst
  rw [phaseCounted] at hst' ⊢
  simp only [ivrRun, h, Nat.one_ne_zero, if_false, if_true, hst', decide_false, modPow, State.modCube_modCube]
  rfl

end

section
variable {q : Cube} {z : Fin 8} (now : Nat)

theorem parkedLayer_frame (f : FrameId) : (parkedLayer q z now).frame f =
    losesLayer z.val { q.frame f with fl := { (q.frame f).fl with cubeA := (q.frame f).fl.cubeA.map (barEnt z.val) } } := by
  rw [parkedLayer, dropLayer_frame, barLayer_frame]
  rfl

theorem losesLayer_regs (z : Nat) (r : Frame) : (losesLayer z r).regs = r.regs := by
  rw [losesLayer]
  split <;> rfl
theorem losesLayer_fl (z : Nat) (r : Frame) : (losesLayer z r).fl = r.fl := by
  rw [losesLayer]
  split <;> rfl

theorem parkedLayer_regs (f : FrameId) : ((parkedLayer q z now).frame f).regs = (q.frame f).regs := by
  rw [parkedLayer_frame, losesLayer_regs]

theorem parkedLayer_barred (f : FrameId) : ∀ e ∈ ((parkedLayer q z now).frame f).fl.cubeA, e.mask.getLsbD z.val = true → e.barred.isSome = true := by
  rw [parkedLayer_frame, losesLayer_fl]
  intro e he hmask
  obtain ⟨d, -, rfl⟩ := List.mem_map.mp he
  exact barEnt_barred hmask

/-- The tasks of a cube whose operations were barred are as before. -/
theorem barLayer_held {q : Cube} {z : Fin 8} {now : Nat} (h : ∃ f, (q.frame f).ctl.layers.getLsbD z.val = true ∧ (q.frame f).task.isSome = true) :
    ∃ f, ((barLayer { q with pow := q.pow.set z { q.pow[z] with st := .parked, since := now } } z.val).frame f).ctl.layers.getLsbD z.val = true ∧
      ((barLayer { q with pow := q.pow.set z { q.pow[z] with st := .parked, since := now } } z.val).frame f).task.isSome = true := by
  obtain ⟨f, hf⟩ := h
  exact ⟨f, by rw [barLayer_frame]; exact hf⟩

theorem parkedLayer_failing (h : ∃ f, (q.frame f).ctl.layers.getLsbD z.val = true ∧ (q.frame f).task.isSome = true) :
    (parkedLayer q z now).fab.failing.getLsbD z.val = true := dropLayer_failing false (barLayer_held h)

theorem parkedLayer_pow (h : ∃ f, (q.frame f).ctl.layers.getLsbD z.val = true ∧ (q.frame f).task.isSome = true) :
    (parkedLayer q z now).pow[z].st = .parked := by
  rw [parkedLayer, dropLayer_pow_of_held false (barLayer_held h)]
  simp [barLayer]

end

/-! Errors of storage (R389). -/

/-- An error's count after it: `add` by its two cases. -/
theorem ErrCount.add_eq (e : ErrCount) (bad : Bool) (now span : Nat) : e.add bad now span =
    if bad then { e with bad := e.bad + 1 } else { e with times := now :: e.times.filter fun t => decide (now - t < span) } := rfl

/-- The count with one more error has reached its limit. -/
theorem ErrCount.reached_add (e : ErrCount) (n : Nat) (bad : Bool) (now span : Nat) : (e.add bad now span).reached n bad =
    if bad then decide (1 ≤ e.bad) else decide (n ≤ (now :: e.times.filter fun t => decide (now - t < span)).length) := by
  cases bad
  · rfl
  · simp [ErrCount.add, ErrCount.reached]

theorem modWear_cube (s : State) (c : CubeId) (g : Wear → Wear) : (modWear s c g).cube c =
    { s.cube c with fab := { (s.cube c).fab with wear := g (s.cube c).fab.wear } } := State.cube_modCube_same ..
theorem modWear_congr {s : State} {c : CubeId} {g h : Wear → Wear} (heq : g (s.cube c).fab.wear = h (s.cube c).fab.wear) :
    modWear s c g = modWear s c h := modCube_congr (by rw [heq])
theorem modWear_keeps {α : Type} (p : State → α) (hp : ∀ s c h, p (State.modCube s c h) = p s) (s : State) (c : CubeId) (g : Wear → Wear) :
    p (modWear s c g) = p s := hp s c _

/-- The poison that an error of a line of global memory leaves. -/
def linePoisoned (s : State) (l : Nat) (bad : Bool) : State := if bad then setPoison s (s.pkg <<< 42 + l) true else s

theorem linePoisoned_keeps {α : Type} (g : State → α) {s : State} (hg : ∀ a b, g (setPoison s a b) = g s) (l : Nat) (bad : Bool) :
    g (linePoisoned s l bad) = g s := by
  rw [linePoisoned]
  split
  · exact hg _ _
  · rfl

/-- Whether an error moves its line to a spare: its count is reached, and shared memory's bank has one. -/
def lineMoves (e : ErrCount) (bad : Bool) (l used : Nat) : Bool := e.reached 16 bad && (decide (l < 2 ^ 39) || decide (used < 64))

/-- What is counted of a line of global memory after an error. -/
def lineWorn (l : Nat) (e : ErrCount) (bad : Bool) (w : Wear) : Wear :=
  if lineMoves e bad l (fget 0 w.spares (bits l 6 8)) then
    if l < 2 ^ 39 then { w with lines := fset ErrCount.zero w.lines (l / 64) ErrCount.zero }
    else { w with
      lines := fset ErrCount.zero w.lines (l / 64) ErrCount.zero
      spares := fset 0 w.spares (bits l 6 8) (fget 0 w.spares (bits l 6 8) + 1) }
  else { w with lines := fset ErrCount.zero w.lines (l / 64) e }

section
variable {l : Nat} {e : ErrCount} {bad : Bool} {w : Wear}

theorem lineWorn_lines : fget ErrCount.zero (lineWorn l e bad w).lines (l / 64) =
    if lineMoves e bad l (fget 0 w.spares (bits l 6 8)) then ErrCount.zero else e := by
  by_cases hmoves : lineMoves e bad l (fget 0 w.spares (bits l 6 8)) = true
  · rw [lineWorn, if_pos hmoves, if_pos hmoves]
    split <;> rw [fget_fset_same]
  · rw [lineWorn, if_neg hmoves, if_neg hmoves]
    rw [fget_fset_same]

theorem lineWorn_spares : fget 0 (lineWorn l e bad w).spares (bits l 6 8) =
    fget 0 w.spares (bits l 6 8) + if lineMoves e bad l (fget 0 w.spares (bits l 6 8)) && !decide (l < 2 ^ 39) then 1 else 0 := by
  by_cases hmoves : lineMoves e bad l (fget 0 w.spares (bits l 6 8)) = true
  · rw [lineWorn, if_pos hmoves, hmoves, Bool.true_and]
    by_cases hhbm : l < 2 ^ 39
    · rw [if_pos hhbm, decide_eq_true hhbm]
      rfl
    · rw [if_neg hhbm, decide_eq_false hhbm]
      rw [fget_fset_same]
      rfl
  · rw [lineWorn, if_neg hmoves, Bool.eq_false_iff.mpr hmoves]
    rfl

end

/-- An error of a line of global memory is counted, and logged where the line moves. -/
theorem memError_eq (s : State) {l : Nat} (bad : Bool) (hpop : populated l = true) :
    let c := cubeOf (localCube l)
    let w := (s.cube c).fab.wear
    let e := (fget ErrCount.zero w.lines (l / 64)).add bad s.now (usCycles 86400000000)
    ∃ pay, memError s l bad =
      if lineMoves e bad l (fget 0 w.spares (bits l 6 8)) then logEvent (modWear (linePoisoned s l bad) c (lineWorn l e bad)) 0x51 c.val pay
      else modWear (linePoisoned s l bad) c (lineWorn l e bad) := by
  intro c w e
  have hnow : (linePoisoned s l bad).now = s.now := linePoisoned_keeps State.now (fun _ _ => rfl) l bad
  have hcube : (linePoisoned s l bad).cube c = s.cube c := linePoisoned_keeps (fun u => u.cube c) (fun _ _ => rfl) l bad
  rw [memError, if_neg (by rw [hpop]; decide)]
  dsimp only
  rw [← linePoisoned, hnow, shiftLeft_one]
  have hworn : ∀ g : Wear → Wear, g w = lineWorn l e bad w →
      modWear (linePoisoned s l bad) c g = modWear (linePoisoned s l bad) c (lineWorn l e bad) := fun g hg => modWear_congr (by rw [hcube]; exact hg)
  have hlog : lineMoves e bad l (fget 0 w.spares (bits l 6 8)) = true → ∀ (pay : List Word) (g : Wear → Wear), g w = lineWorn l e bad w →
      logEvent (modWear (linePoisoned s l bad) c g) 0x51 c.val pay = if lineMoves e bad l (fget 0 w.spares (bits l 6 8)) = true then
          logEvent (modWear (linePoisoned s l bad) c (lineWorn l e bad)) 0x51 c.val pay
        else modWear (linePoisoned s l bad) c (lineWorn l e bad) := fun hmoves pay g hg => by
    rw [if_pos hmoves, hworn g hg]
  have hnote : lineMoves e bad l (fget 0 w.spares (bits l 6 8)) = false → ∀ g : Wear → Wear,
      g w = { w with lines := fset ErrCount.zero w.lines (l / 64) e } → modWear (linePoisoned s l bad) c g =
        if lineMoves e bad l (fget 0 w.spares (bits l 6 8)) = true then
          logEvent (modWear (linePoisoned s l bad) c (lineWorn l e bad)) 0x51 c.val []
        else modWear (linePoisoned s l bad) c (lineWorn l e bad) := fun hstays g hg => by
    rw [if_neg (by rw [hstays]; decide)]
    exact hworn g (by rw [lineWorn, if_neg (by rw [hstays]; decide)]; exact hg)
  by_cases hreach : e.reached 16 bad = true
  case neg =>
    rw [Bool.not_eq_true] at hreach
    rw [if_pos (by rw [hreach]; rfl)]
    exact ⟨[], hnote (by rw [lineMoves, hreach, Bool.false_and]) _ rfl⟩
  rw [if_neg (by rw [hreach]; decide)]
  by_cases hhbm : l < 2 ^ 39
  · have hmoves : lineMoves e bad l (fget 0 w.spares (bits l 6 8)) = true := by rw [lineMoves, hreach, decide_eq_true hhbm]; rfl
    rw [if_pos hhbm]
    exact ⟨_, hlog hmoves _ _ (by rw [lineWorn, if_pos hmoves, if_pos hhbm])⟩
  rw [if_neg hhbm]
  by_cases hspare : fget 0 w.spares (bits l 6 8) < 64
  · have hmoves : lineMoves e bad l (fget 0 w.spares (bits l 6 8)) = true := by rw [lineMoves, hreach, decide_eq_true hspare, Bool.or_true]; rfl
    rw [if_pos hspare]
    exact ⟨_, hlog hmoves _ _ (by rw [lineWorn, if_pos hmoves, if_neg hhbm])⟩
  · rw [if_neg hspare]
    exact ⟨[], hnote (by rw [lineMoves, hreach, decide_eq_false hhbm, decide_eq_false hspare]; rfl) _ rfl⟩

end Sys2Proof.Machine
end

section
/-! SUPPORT. Errors of lines and faces, retired buses and failed ports (R36, R365, R366, R389). -/

namespace Sys2Proof.Machine

/-! A line of global memory (R65, R76, R389). -/

theorem poisoned_linePoisoned (s : State) (l : Nat) (bad : Bool) (p : Nat) :
    poisoned (linePoisoned s l bad) p = (poisoned s p || (bad && decide (p / 64 = (s.pkg * 2 ^ 42 + l) / 64))) := by
  cases bad
  · rw [linePoisoned, if_neg (by decide), Bool.false_and, Bool.or_false]
  · rw [linePoisoned, if_pos rfl, poisoned, setPoison, fget_fset, Nat.shiftLeft_eq, Bool.true_and]
    split
    case isTrue h => rw [decide_eq_true h, Bool.or_true]
    case isFalse h => rw [decide_eq_false h, Bool.or_false, poisoned]

/-- What an error of a line of global memory leaves. -/
theorem memError_outcome (s : State) {l : Nat} (bad : Bool) (hpop : populated l = true) :
    let d := cubeOf (localCube l)
    let w := (s.cube d).fab.wear
    let e := (fget ErrCount.zero w.lines (l / 64)).add bad s.now (usCycles 86400000000)
    let moves := lineMoves e bad l (fget 0 w.spares (bits l 6 8))
    let t := memError s l bad
    t.mem = s.mem ∧ t.hub = s.hub ∧ (t.cube d).frames = (s.cube d).frames ∧ t.teasel.logSeq = s.teasel.logSeq + (if moves then 1 else 0) ∧
      (∀ p, poisoned t p = (poisoned s p || (bad && decide (p / 64 = (s.pkg * 2 ^ 42 + l) / 64)))) ∧ (t.cube d).fab.wear = lineWorn l e bad w := by
  intro d w e moves t
  have hkeeps := fun {α : Type} (g : State → α) (hg : ∀ a b, g (setPoison s a b) = g s) => linePoisoned_keeps g hg l bad
  have hcube : (modWear (linePoisoned s l bad) d (lineWorn l e bad)).cube d = { s.cube d with fab := { (s.cube d).fab with wear := lineWorn l e bad w } } := by
    rw [modWear_cube, hkeeps (fun u => u.cube d) fun _ _ => rfl]
  obtain ⟨pay, ht⟩ : ∃ pay, t = if moves = true then logEvent (modWear (linePoisoned s l bad) d (lineWorn l e bad)) 0x51 d.val pay
      else modWear (linePoisoned s l bad) d (lineWorn l e bad) := memError_eq s bad hpop
  rw [ht]
  cases moves
  case false =>
    rw [if_neg (by decide), hcube]
    exact ⟨hkeeps State.mem fun _ _ => rfl, hkeeps State.hub fun _ _ => rfl, rfl, hkeeps (fun u => u.teasel.logSeq) fun _ _ => rfl,
      poisoned_linePoisoned s l bad, rfl⟩
  case true =>
    rw [if_pos rfl, logEvent_cube, hcube]
    exact ⟨hkeeps State.mem fun _ _ => rfl, hkeeps State.hub fun _ _ => rfl, rfl,
      congrArg (· + 1) (hkeeps (fun u => u.teasel.logSeq) fun _ _ => rfl), poisoned_linePoisoned s l bad, rfl⟩

/-! A face bank (R36, R389). -/

/-- A face line poisoned by an uncorrectable error. -/
def facePoisonedLine (key : Nat) (bad : Bool) (q : Cube) : Cube := if bad then setFacePoison q key true else q

theorem facePoisonedLine_keeps {α : Type} (g : Cube → α) {q : Cube} (hg : ∀ a b, g (setFacePoison q a b) = g q) (key : Nat) (bad : Bool) :
    g (facePoisonedLine key bad q) = g q := by
  rw [facePoisonedLine]
  split
  · exact hg _ _
  · rfl

/-- The cube after an error of a face line has been counted. -/
def faceWorn (key fkey : Nat) (e : ErrCount) (bad : Bool) (q : Cube) : Cube :=
  let q := facePoisonedLine fkey bad q
  { q with fab := { q.fab with wear := { q.fab.wear with banks := fset ErrCount.zero q.fab.wear.banks key e } } }

/-- A retired bank: a frame that holds no task no longer has it. -/
def bankRetired (key : Nat) (q : Cube) : Cube :=
  let banks := key :: q.fab.banks
  { q with fab := { q.fab with banks := banks }
           frames := q.frames.map fun r => if r.task.isNone then { r with banks := banks } else r }

theorem faceError_eq (s : State) (c : CubeId) (z face off : Nat) (bad : Bool) :
    let key := bankKey z face off
    let e := (fget ErrCount.zero (s.cube c).fab.wear.banks key).add bad s.now (usCycles 1000000)
    let worn := faceWorn key (faceKey z face off) e bad
    faceError s c z face off bad =
      if (e.reached 64 bad && !(s.cube c).fab.banks.contains key) = true then
        logEvent (s.modCube c fun q => bankRetired key (worn q)) 0x51 c.val [2, w64 z, w64 face, w64 (off / (1 <<< 20))]
      else s.modCube c worn := by
  intro key e worn
  have hworn : modWear (if bad = true then s.modCube c fun q => setFacePoison q (faceKey z face off) true else s) c
      (fun w => { w with banks := fset ErrCount.zero w.banks key e }) = s.modCube c worn := by
    cases bad
    · rfl
    · rw [if_pos rfl, modWear, State.modCube_modCube]
      rfl
  have hbanks : ((s.modCube c worn).cube c).fab.banks = (s.cube c).fab.banks := by
    rw [State.cube_modCube_same]
    exact facePoisonedLine_keeps (fun q => q.fab.banks) (fun _ _ => rfl) _ bad
  rw [faceError]
  dsimp only
  rw [hworn, hbanks]
  cases hreach : e.reached 64 bad
  case false => rw [if_pos (Or.inl Bool.not_false), if_neg (by rw [Bool.false_and]; decide)]
  cases hold : (s.cube c).fab.banks.contains key
  case true => rw [if_pos (Or.inr rfl), if_neg (by decide)]
  case false =>
    rw [if_neg (by simp), Bool.not_false, Bool.and_self, if_pos rfl, State.modCube_modCube]
    rfl

theorem bankRetired_frame {key : Nat} {q : Cube} {f : FrameId} (h : (q.frame f).task.isSome = true) : (bankRetired key q).frame f = q.frame f := by
  have hnone : ¬ (q.frame f).task.isNone = true := by rw [Option.isNone_eq_false_iff.mpr h]; decide
  rw [Cube.frame] at hnone
  rw [Cube.frame, bankRetired, Fin.getElem_fin, Vector.getElem_map]
  exact if_neg hnone

section
variable (key fkey : Nat) (e : ErrCount) (bad : Bool) (q : Cube)

theorem faceWorn_face : (faceWorn key fkey e bad q).face = q.face := facePoisonedLine_keeps Cube.face (fun _ _ => rfl) fkey bad
theorem faceWorn_frames : (faceWorn key fkey e bad q).frames = q.frames := facePoisonedLine_keeps Cube.frames (fun _ _ => rfl) fkey bad
theorem faceWorn_banks : (faceWorn key fkey e bad q).fab.banks = q.fab.banks :=
  facePoisonedLine_keeps (fun q => q.fab.banks) (fun _ _ => rfl) fkey bad
theorem faceWorn_poisoned : facePoisoned (faceWorn key fkey e true q) fkey = true := by
  change fget false (fset false q.poison (fkey / 64) true) (fkey / 64) = true
  rw [fget_fset_same]

end

/-- What an error of a face line leaves. -/
theorem faceError_outcome (s : State) (c : CubeId) (z face off : Nat) (bad : Bool) :
    let key := bankKey z face off
    let e := (fget ErrCount.zero (s.cube c).fab.wear.banks key).add bad s.now (usCycles 1000000)
    let retires := e.reached 64 bad && !(s.cube c).fab.banks.contains key
    let t := faceError s c z face off bad
    t.mem = s.mem ∧ t.hub = s.hub ∧ (t.cube c).face = (s.cube c).face ∧ t.teasel.logSeq = s.teasel.logSeq + (if retires then 1 else 0) ∧
      (t.cube c).fab.banks = (if retires then key :: (s.cube c).fab.banks else (s.cube c).fab.banks) ∧
      (bad = true → facePoisoned (t.cube c) (faceKey z face off) = true) ∧
      ∀ f, ((s.cube c).frame f).task.isSome = true → t.frame c f = (s.cube c).frame f := by
  intro key e retires t
  have hframe : ∀ f, (faceWorn key (faceKey z face off) e bad (s.cube c)).frame f = (s.cube c).frame f := fun f => by
    rw [Cube.frame, faceWorn_frames, Cube.frame]
  have ht : t = if retires = true then
      logEvent (s.modCube c fun q => bankRetired key (faceWorn key (faceKey z face off) e bad q)) 0x51 c.val [2, w64 z, w64 face, w64 (off / (1 <<< 20))]
    else s.modCube c (faceWorn key (faceKey z face off) e bad) := faceError_eq s c z face off bad
  rw [ht]
  cases retires
  case false =>
    rw [if_neg (by decide), State.cube_modCube_same]
    refine ⟨rfl, rfl, faceWorn_face key _ e bad _, rfl, faceWorn_banks key _ e bad _, ?_, fun f _ => ?_⟩
    · rintro rfl
      exact faceWorn_poisoned key _ e _
    · rw [State.frame_modCube_same, hframe]
  case true =>
    rw [if_pos rfl, logEvent_cube, State.cube_modCube_same]
    refine ⟨rfl, rfl, faceWorn_face key _ e bad _, rfl, congrArg (key :: ·) (faceWorn_banks key _ e bad _), ?_, fun f hf => ?_⟩
    · rintro rfl
      exact faceWorn_poisoned key _ e _
    · rw [logEvent_frame, State.frame_modCube_same, bankRetired_frame (by rw [hframe]; exact hf), hframe]

/-! A vertical bus (R36, R389). -/

/-- A retired bus: its layer leaves service. -/
theorem retireBus_gone {s : State} {c : CubeId} {z : Fin 8} (h : (s.cube c).fab.busBad.getLsbD z.val = false) :
    let t := retireBus s c z
    (t.teasel.logSeq = s.teasel.logSeq + 1 ∧ t.mem = s.mem ∧ t.hub = s.hub) ∧ (t.cube c).face = (s.cube c).face ∧
      (t.cube c).fab.insvc = (s.cube c).fab.insvc &&& ~~~(1#8 <<< z.val) ∧
      ((∃ f, ((s.cube c).frame f).ctl.layers.getLsbD z.val = true ∧ ((s.cube c).frame f).task.isSome = true) →
        (t.cube c).fab.failing.getLsbD z.val = true ∧ (t.cube c).fab.busBad.getLsbD z.val = true) ∧
      ((∀ f, ((s.cube c).frame f).task.isSome = true → ((s.cube c).frame f).ctl.layers.getLsbD z.val = false) →
        (t.cube c).pow[z].st = .withdrawn) ∧
      ∀ f, ((s.cube c).frame f).task.isSome = true → t.frame c f = (s.cube c).frame f := by
  intro t
  have ht : t = logEvent (s.modCube c fun q => dropLayer q z.val true) 0x51 c.val [3, w64 z.val] := if_neg (by rw [h]; decide)
  rw [ht, logEvent_cube, State.cube_modCube_same]
  refine ⟨⟨rfl, rfl, rfl⟩, dropLayer_face .., dropLayer_insvc .., fun hheld => ⟨dropLayer_failing true hheld, dropLayer_busBad hheld⟩,
    dropLayer_pow_of_free true, fun f hf => ?_⟩
  rw [logEvent_frame, State.frame_modCube_same, dropLayer_frame, losesLayer_of_task hf]

/-- What is counted of a bus leaves everything else of its cube, so that a bus that stays in service changes no more. -/
theorem modWear_stays (s : State) (c : CubeId) (g : Wear → Wear) :
    (modWear s c g).teasel.logSeq = s.teasel.logSeq ∧ (modWear s c g).mem = s.mem ∧ (modWear s c g).hub = s.hub ∧
      ((modWear s c g).cube c).frames = (s.cube c).frames ∧ ((modWear s c g).cube c).fab.insvc = (s.cube c).fab.insvc ∧
      ((modWear s c g).cube c).fab.busBad = (s.cube c).fab.busBad := by
  rw [modWear_cube]
  exact ⟨rfl, rfl, rfl, rfl, rfl, rfl⟩

theorem sum_map_snd {α : Type} : ∀ l : List (α × Nat), (l.map Prod.snd).sum = l.foldr (fun x m => x.2 + m) 0
  | [] => rfl
  | x :: l => by rw [List.map_cons, List.sum_cons, sum_map_snd l, List.foldr_cons]

/-- The retries of a bus, with one more group of them. -/
def retried (s : State) (c : CubeId) (z n : Nat) : State :=
  modWear s c fun w => { w with retries := fset [] w.retries z ((s.now, n) :: (fget [] (s.cube c).fab.wear.retries z).filter
    fun x => decide (s.now - x.1 < usCycles 1000)) }

/-- Retries of a bus within a millisecond retire it past their limit. -/
theorem storageRun_busRetry (s : State) (c : CubeId) (z : Fin 8) (n : Nat) : storageRun s (.busRetry c z n) =
    if 1000 < n + ((fget [] (s.cube c).fab.wear.retries z.val).filter fun x => decide (s.now - x.1 < usCycles 1000)).foldr (fun x m => x.2 + m) 0 then
      retireBus (retried s c z.val n) c z
    else retried s c z.val n := by
  rw [← sum_map_snd]
  rfl

theorem storageRun_busWire (s : State) (c : CubeId) (z : Fin 8) : storageRun s (.busWire c z) =
    if fget 0 (s.cube c).fab.wear.wires z.val < 32 then
      modWear s c fun w => { w with wires := fset 0 w.wires z.val (fget 0 (s.cube c).fab.wear.wires z.val + 1) }
    else retireBus s c z := rfl

/-! A failed port (R365, R366). -/

theorem onWire_of_none {s : State} {c : CubeId} {f : FrameId} (h : (s.frame c f).fl = Flight.none) (port : BitVec 4) : onWire s c f port = [] := by
  simp [onWire, h, Flight.none]

theorem losePort_of_none {s : State} {c : CubeId} {f : FrameId} (h : (s.frame c f).fl = Flight.none) (port : BitVec 4) : losePort s c f port = s := by
  rw [losePort, onWire_of_none h]
  rfl

theorem portWaits_of_none {s : State} {c : CubeId} (h0 : (s.frame c 0).fl = Flight.none) (h1 : (s.frame c 1).fl = Flight.none) (port : BitVec 4) :
    portWaits s c port = false := by
  simp [portWaits, h0, h1, Flight.none]

/-- The fabric of a cube after a port has failed and its lanes have moved. -/
def portMoved (port newPort : BitVec 4) (q : Cube) : Cube :=
  { q with fab := { q.fab with
    deadPorts := port.toNat :: q.fab.deadPorts
    pmap := if portExists q newPort.toNat then q.fab.pmap.map fun x => if x = port then newPort else x else q.fab.pmap } }

/-- A port fails with nothing under way: its lanes move at once. -/
theorem portFailureRun_of_none {s : State} {c : CubeId} {port newPort : BitVec 4} (h0 : (s.frame c 0).fl = Flight.none) (h1 : (s.frame c 1).fl = Flight.none)
    (hport : port.toNat ∉ (s.cube c).fab.deadPorts) (hne : newPort ≠ port) (hnew : newPort.toNat ∉ (s.cube c).fab.deadPorts) :
    portFailureRun s c port newPort = postHeld (s.modCube c (portMoved port newPort)) := by
  have hfirst : (s.cube c).fab.deadPorts.contains port.toNat = false := by rw [← Bool.not_eq_true, List.contains_iff_mem]; exact hport
  have hframe : ∀ f, ((s.modCube c fun q => { q with fab := { q.fab with deadPorts := port.toNat :: q.fab.deadPorts } }).frame c f).fl = (s.frame c f).fl :=
    fun f => by rw [State.frame_modCube_same]; rfl
  have hnewDead : (port.toNat :: (s.cube c).fab.deadPorts).contains newPort.toNat = false := by
    rw [← Bool.not_eq_true, List.contains_iff_mem, List.mem_cons, not_or]
    exact ⟨fun h => hne (BitVec.eq_of_toNat_eq h), hnew⟩
  rw [portFailureRun, hfirst]
  simp only [Bool.not_false, if_true, losePort_of_none h0, losePort_of_none h1,
    portWaits_of_none ((hframe 0).trans h0) ((hframe 1).trans h1), Bool.false_eq_true, if_false, State.modCube_modCube]
  refine congrArg postHeld (modCube_congr ?_)
  rw [portMoved]
  by_cases hexists : portExists (s.cube c) newPort.toNat = true
  · rw [if_pos hexists, if_neg]
    rintro (hd | hn)
    · rw [hnewDead] at hd
      exact absurd hd (by decide)
    · have hnone : (!portExists (s.cube c) newPort.toNat) = true := hn
      rw [hexists] at hnone
      exact absurd hnone (by decide)
  · rw [if_neg hexists]
    have hnone : (!portExists (s.cube c) newPort.toNat) = true := by rw [Bool.eq_false_iff.mpr hexists]; rfl
    exact if_pos (Or.inr hnone)

/-- A port that has failed before waits for what was sent on it. -/
theorem portFailureRun_of_waits {s : State} {c : CubeId} {port newPort : BitVec 4} (hport : port.toNat ∈ (s.cube c).fab.deadPorts)
    (hwaits : portWaits s c port = true) : portFailureRun s c port newPort = s := by
  have hdead : (s.cube c).fab.deadPorts.contains port.toNat = true := List.contains_iff_mem.mpr hport
  have hself : (s.modCube c fun q => { q with fab := { q.fab with deadPorts := q.fab.deadPorts } }) = s := modCube_self rfl
  rw [portFailureRun, hdead]
  simp only [Bool.not_true, Bool.false_eq_true, if_false, hself, hwaits, if_true]

end Sys2Proof.Machine
end

section
/-! SUPPORT. Rails, layer power, regulator phases, storage and ports together (R36, R366, R374 to R376, R388, R389). -/

open Sys2Proof Sys2Proof.Machine

/-- Settles O52: each event's equation (`exec_railTrim_due`, `exec_layerGate` and their like) is read in its cases; a regulator
phase, an error of storage and a port go through `ivrRun_second`, `memError_outcome`, `faceError_outcome`, `retireBus_gone` and
`portFailureRun_of_none`. -/
theorem layersAndPortsFailAndRest : Obligations.LayersAndPortsFailAndRest := by
  unfold Obligations.LayersAndPortsFailAndRest
  intro s c z hpow q p pow logged
  have hstays : ∀ {g : LayerPow → LayerPow}, g p = p → Host.Outcome.next (modPow s c z g) = (.next s : Host.Outcome State Fault Refusal) :=
    fun hg => congrArg _ (modPow_self hg)
  have hturns : ∀ {g : LayerPow → LayerPow} {x : LayerPow}, g p = x →
      Host.Outcome.next (modPow s c z g) = (.next (pow x) : Host.Outcome State Fault Refusal) := fun hg => congrArg _ (modPow_of hg)
  refine ⟨fun pass => exec_railTrim_early hpow pass, fun pass h => ⟨_, exec_railTrim_due hpow pass h, fun i hi => ?_⟩, exec_railRiseDone hpow c z,
    fun hst hsince hbusy hbal => ?_, fun h => ?_, fun hst hsince hneed => ?_, fun h => ?_, fun htrip hst hwake hready => ?_, fun h => ?_,
    fun group rail => ⟨fun h => ?_, fun h hst => ?_, fun h hst hheld => ?_⟩, fun l bad hpop => ?_, fun face off bad => ?_,
    ⟨fun n => ?_, ?_⟩, fun port newPort h0 h1 hport hne hnew => ?_, fun port newPort hport hwaits => ?_⟩
  · exact fget_trimmed s.teasel pass q.fab.trim hi
  · refine (exec_layerGate hpow c z).trans (hturns (if_pos ⟨hst, Nat.le_sub_of_add_le (Nat.add_comm _ _ ▸ hsince), ?_, ?_⟩))
    · rw [hbusy]; rfl
    · rw [hbal]; rfl
  · refine (exec_layerGate hpow c z).trans (hstays (if_neg ?_))
    rintro ⟨hst, hsince, hbusy, hbal⟩
    rw [Bool.not_eq_true'] at hbusy hbal
    rcases h with h | ⟨h1, h2⟩ | h | h
    · exact h hst
    · omega
    · exact absurd (hbusy.symm.trans h) (by decide)
    · exact absurd (hbal.symm.trans h) (by decide)
  · refine (exec_layerRetention hpow c z).trans (hturns (if_pos ⟨hst, Nat.le_sub_of_add_le (Nat.add_comm _ _ ▸ hsince), ?_⟩))
    rw [hneed]; rfl
  · refine (exec_layerRetention hpow c z).trans (hstays (if_neg ?_))
    rintro ⟨hst, -, hneed⟩
    rw [Bool.not_eq_true'] at hneed
    rcases h with h | h
    · exact h hst
    · exact absurd (hneed.symm.trans h) (by decide)
  · refine (exec_layerWake hpow c z).trans ?_
    rw [if_neg (by rw [htrip]; decide)]
    exact hturns (if_pos ⟨hst, hwake, hready⟩)
  · refine (exec_layerWake hpow c z).trans ?_
    split
    case isTrue => rfl
    case isFalse htrip =>
      refine hstays (if_neg ?_)
      rintro ⟨hst, hwake, hready⟩
      rcases h with h | h | h | h
      · exact htrip h
      · exact h hst
      · exact absurd (hwake.symm.trans h) (by decide)
      · exact absurd hready (Nat.not_le.mpr h)
  · refine ⟨_, (powered_of_power hpow _).trans (congrArg _ (ivrRun_first s c z group rail h)), ⟨rfl, rfl, rfl⟩, ?_, ?_, ?_, ?_⟩
    all_goals rw [logEvent_cube, phaseCounted_cube]
    rw [fget_fset_same]
  · refine ⟨_, (powered_of_power hpow _).trans (congrArg _ (ivrRun_withdrawn s c z group rail h hst)), ⟨rfl, rfl, rfl⟩, ?_, ?_, ?_⟩
    all_goals rw [logEvent_cube, phaseCounted_cube]
  · refine ⟨_, (powered_of_power hpow _).trans (congrArg _ (ivrRun_second s c z group rail h hst)), ⟨rfl, rfl, rfl⟩, ?_, ?_, ?_, fun f => ⟨?_, ?_⟩⟩
    all_goals simp only [logEvent_cube, logEvent_frame, State.frame_modCube_same, State.cube_modCube_same, phaseCounted_cube]
    · exact parkedLayer_pow s.now hheld
    · rfl
    · exact parkedLayer_failing s.now hheld
    · exact parkedLayer_regs s.now f
    · exact parkedLayer_barred s.now f
  · intro d w e times bank used hbm moves
    obtain ⟨hmem, hhub, hframes, hseq, hpoison, hwear⟩ := memError_outcome s bad hpop
    have hmoves : lineMoves (e.add bad s.now (usCycles 86400000000)) bad l.toNat used = moves := by rw [lineMoves, ErrCount.reached_add]
    have hbank : bits l.toNat 6 8 = bank := by
      change bits l.toNat 6 8 = l.toNat / 2 ^ 6 % 2 ^ 8
      rw [bits, Nat.shiftRight_eq_div_pow, shiftLeft_one]
    rw [hbank, hmoves] at hseq
    refine ⟨_, powered_of_power hpow _, hmem, hhub, hframes, hseq, hpoison, ?_, ?_⟩
    · refine (congrArg (fun w : Wear => fget ErrCount.zero w.lines (l.toNat / 64)) hwear).trans (lineWorn_lines.trans ?_)
      rw [hbank, hmoves]
      rfl
    · refine (congrArg (fun w : Wear => fget 0 w.spares bank) hwear).trans ?_
      rw [← hbank]
      refine lineWorn_spares.trans ?_
      rw [hbank, hmoves]
  · intro key e times retires
    obtain ⟨hmem, hhub, hface, hseq, hbanks, hpoison, hframe⟩ := faceError_outcome s c z.val face.val off.toNat bad
    have hkey : bankKey z.val face.val off.toNat = key := by rw [bankKey, shiftLeft_one]
    rw [hkey, ErrCount.reached_add] at hseq hbanks
    exact ⟨_, powered_of_power hpow _, hmem, hhub, hface, hseq, hbanks, hpoison, hframe⟩
  · intro sum
    refine ⟨_, (powered_of_power hpow _).trans (congrArg _ (storageRun_busRetry s c z n)), fun hsum hbus => ?_, fun hsum => ?_⟩
    · rw [if_pos hsum]
      have hretried : (retried s c z.val n).cube c = { q with fab := { q.fab with wear := ((retried s c z.val n).cube c).fab.wear } } := by
        rw [retried, modWear_cube]
      have hgone := retireBus_gone (s := retried s c z.val n) (c := c) (z := z) (by rw [hretried]; exact hbus)
      rw [hretried] at hgone
      exact hgone
    · rw [if_neg (Nat.not_lt.mpr hsum)]
      exact modWear_stays s c _
  · refine ⟨_, (powered_of_power hpow _).trans (congrArg _ (storageRun_busWire s c z)), fun hused hbus => ?_, fun hused => ?_⟩
    · rw [if_neg (Nat.not_lt.mpr hused)]
      exact retireBus_gone hbus
    · rw [if_pos hused]
      refine ⟨modWear_stays s c _, ?_⟩
      rw [modWear_cube, fget_fset_same]
  · refine (powered_of_power hpow _).trans (congrArg _ ?_)
    rw [portFailureRun_of_none h0 h1 hport hne hnew]
    rfl
  · exact (powered_of_power hpow _).trans (congrArg _ (portFailureRun_of_waits hport hwaits))
end

section
/-! SUPPORT. A scheduling decision with one offer, and the aging of a head (R26, R27, R346 to R350). -/

namespace Sys2Proof.Machine

theorem foldl_fixed_of_mem {σ α : Type} {f : σ → α → σ} {s : σ} : ∀ {l : List α}, (∀ x ∈ l, f s x = s) → l.foldl f s = s
  | [], _ => rfl
  | x :: l, h => by
    rw [List.foldl_cons, h x (List.mem_cons_self ..), foldl_fixed_of_mem fun y hy => h y (List.mem_cons_of_mem x hy)]

/-! What a decision does before it judges its offers. -/

theorem serveHold_of_notSpan {k : Rec} (hspan : k.isSpan = false) (s : State) : serveHold s k = s :=
  if_neg fun h => by rw [hspan] at h; exact absurd h.1 (by decide)

/-- Where no record of the partition is a span and no gang stands pre-empted, a decision judges its offers alone. -/
theorem schedulingRun_of_quiet {s : State} {p : Nat} (hspans : ∀ k ∈ s.hub.recs, k.part = p → k.isSpan = false) (hout : outGangs s p = []) :
    schedulingRun s p = decideFrom s true false ((offers s p).foldl (fun l o => insertOffer o l) []) := by
  have hserve : (s.hub.recs.filter (·.part = p)).foldl serveHold s = s := by
    refine foldl_fixed_of_mem fun k hk => ?_
    obtain ⟨hmem, hpart⟩ := List.mem_filter.mp hk
    exact serveHold_of_notSpan (hspans k hmem (of_decide_eq_true hpart)) s
  rw [schedulingRun, hserve, hout]
  rfl

/-- A lone offer is judged as the first. -/
theorem decideFrom_single (s : State) (o : Nat × Ratio × Nat × Offer) : decideFrom s true false [o] = (decideOffer s true o.2.2.2).2 := by
  rw [decideFrom]
  simp only [Bool.false_and, Bool.false_eq_true, if_false]
  rcases decideOffer s true o.2.2.2 with ⟨fare, u⟩
  cases fare <;> rfl

theorem schedulingRun_single {s : State} {p : Nat} {o : Nat × Ratio × Nat × Offer} (hspans : ∀ k ∈ s.hub.recs, k.part = p → k.isSpan = false)
    (hout : outGangs s p = []) (ho : offers s p = [o]) : schedulingRun s p = (decideOffer s true o.2.2.2).2 := by
  rw [schedulingRun_of_quiet hspans hout, ho]
  exact decideFrom_single s o

/-! An admission (R26, R27). -/

/-- What an admission changes beside the hub's lists. -/
def seated (s : State) (k : Rec) (l : List Seat) : State := l.foldl (fun s x => seatTask s k x) s

/-- The gang that an admission adds to its record. -/
def admittedGang (s : State) (gi : Nat) (l : List Seat) (loaded : Bool) : Gang :=
  ⟨gi, if loaded then .running else .waiting, l.map fun x => (x.1, x.2.1), l.map (·.2.2.ctxIdx), [], false, s.now, none⟩

/-- A record with one more gang admitted. -/
def Rec.admits (g : Gang) (k : Rec) : Rec := { k with gangs := k.gangs ++ [g], next := k.next + 1 }

theorem seatTask_keeps {α : Type} (p : State → α) (hp : ∀ s c h, p (State.modCube s c h) = p s) (s : State) (k : Rec) (x : Seat) :
    p (seatTask s k x) = p s := by
  unfold seatTask
  exact hp s _ _
theorem seated_keeps {α : Type} (p : State → α) (hp : ∀ s c h, p (State.modCube s c h) = p s) (s : State) (k : Rec) (l : List Seat) :
    p (seated s k l) = p s := foldl_keeps p (fun u x => seatTask_keeps p hp u k x) l s

theorem admitGang_eq (s : State) (k : Rec) (gi : Nat) (l : List Seat) : admitGang s k gi l =
    dropResv (modRec (seated s k l) k.part k.id (Rec.admits (admittedGang s gi l (halvesLoaded (seated s k l) l)))) k.part k.id gi := by
  have hnow : (seated s k l).now = s.now := seated_keeps State.now (fun _ _ _ => rfl) s k l
  rw [admittedGang, ← hnow]
  rfl

section
variable {s : State} {k : Rec} {l : List Seat} (hspan : k.isSpan = false) (hplace : placeGang s k k.next = .seats l)
include hspan hplace

/-- The admitted gang's record may leave its queue. -/
theorem decideOffer_seats : ∃ u : State, u = advanceV (admitGang s k k.next l) k 1 ∧
    ((decideOffer s true (.fresh k)).2 = u ∨ ∃ k', (decideOffer s true (.fresh k)).2 = leaveQueue u k') := by
  refine ⟨_, rfl, ?_⟩
  simp only [decideOffer, hspan, Bool.false_eq_true, if_false, hplace]
  split
  next k' _ =>
    split
    · exact Or.inr ⟨k', rfl⟩
    · exact Or.inl rfl
  next => exact Or.inl rfl

theorem admission_keeps {α : Type} (p : State → α) (hp : ∀ s h, p (State.modHub s h) = p s) :
    p (decideOffer s true (.fresh k)).2 = p (seated s k l) := by
  obtain ⟨u, hu, hleft⟩ := decideOffer_seats hspan hplace
  have hadmit : p u = p (seated s k l) := by
    rw [hu, admitGang_eq, advanceV, modQueue, hp, dropResv, hp, modRec, hp]
  rcases hleft with h | ⟨k', h⟩
  · rw [h, hadmit]
  · rw [h, leaveQueue_keeps p hp, hadmit]

theorem admission_recs : ∃ loaded, (decideOffer s true (.fresh k)).2.hub.recs =
    s.hub.recs.map (onRec k.part k.id (Rec.admits (admittedGang s k.next l loaded))) := by
  have hseat : (seated s k l).hub.recs = s.hub.recs := seated_keeps (fun u => u.hub.recs) (fun _ _ _ => rfl) s k l
  obtain ⟨u, hu, hleft⟩ := decideOffer_seats hspan hplace
  have hadmit : u.hub.recs = s.hub.recs.map (onRec k.part k.id (Rec.admits (admittedGang s k.next l (halvesLoaded (seated s k l) l)))) := by
    rw [hu, admitGang_eq, ← hseat]
    rfl
  refine ⟨_, Eq.trans ?_ hadmit⟩
  rcases hleft with h | ⟨k', h⟩
  · rw [h]
  · rw [h]
    exact State.recs_of_roster (roster_leaveQueue ..)

/-- The record of an admitted gang. -/
theorem admission_findRec (hfind : findRec s k.part k.id = some k) : ∃ loaded, findRec (decideOffer s true (.fresh k)).2 k.part k.id =
    some (k.admits (admittedGang s k.next l loaded)) := by
  obtain ⟨loaded, hrecs⟩ := admission_recs hspan hplace
  refine ⟨loaded, ?_⟩
  have hmod := findRec_modRec (part := k.part) (id := k.id) (g := Rec.admits (admittedGang s k.next l loaded)) (fun _ => ⟨rfl, rfl⟩) s
  rw [findRec, modRec_recs] at hmod
  rw [findRec, hrecs, hmod, hfind]
  rfl

end

/-! A member's frame (R26, R313). -/

theorem cubeOf_val (c : CubeId) : cubeOf c.val = c := by revert c; decide
theorem frameOf_val (f : FrameId) : frameOf f.val = f := by revert f; decide

theorem seatTask_frame (s : State) (k : Rec) (c : CubeId) (f : FrameId) (x : Task) :
    (seatTask s k (c.val, f.val, x)).frame c f = newFrame s k x c f := by
  rw [seatTask, cubeOf_val, frameOf_val, State.frame_modCube_same, Cube.frame_setFrame, if_pos rfl]

/-- Where the core of the cube had no running task, it runs the admitted one; no frame changes. -/
theorem takeCore_frames (s : State) (q : Cube) (f : FrameId) : (takeCore s q f).frames = q.frames := by
  rw [takeCore]
  split <;> rfl

theorem seatTask_frame_ne {s : State} {k : Rec} {c d : CubeId} {f e : FrameId} {x : Task} (h : (d, e) ≠ (c, f)) :
    (seatTask s k (c.val, f.val, x)).frame d e = s.frame d e := by
  rw [seatTask, cubeOf_val, frameOf_val, State.frame, State.cube_modCube]
  split
  next hd =>
    have hef : ¬ e = f := fun he => h (by rw [hd, he])
    rw [Cube.frame_setFrame, if_neg hef, State.frame, hd]
    exact congrArg (fun v : Vector Frame 2 => v[e]) (takeCore_frames s (s.cube c) f)
  next => rfl

/-! A reservation (R350). -/

theorem decideOffer_nofit {s : State} {k : Rec} (hspan : k.isSpan = false) (hplace : placeGang s k k.next = .nofit) (hresv : s.hub.resv = []) :
    (decideOffer s true (.fresh k)).2 = { s with hub := { s.hub with
      resv := [⟨k.part, k.id, k.next, ((cubesInOrder s k.part).take k.gsize).map (·.val), s.now, false⟩] } } := by
  simp only [decideOffer, hspan, Bool.false_eq_true, if_false, hplace, if_true, openResv, hresv, List.any_nil, State.modHub, List.nil_append]

/-! Aging (R346). -/

theorem getQueue_toNat (s : State) (q : BitVec 6) : getQueue s q.toNat = s.hub.queues[q.toFin] := by
  have hlt : q.toNat < s.hub.queues.toList.length := by rw [Vector.length_toList]; exact q.isLt
  rw [getQueue, List.getD_eq_getElem _ _ hlt, Vector.getElem_toList]
  rfl

theorem modQueue_toNat (s : State) (q : BitVec 6) (g : Queue → Queue) :
    modQueue s q.toNat g = { s with hub := { s.hub with queues := s.hub.queues.set q.toFin (g s.hub.queues[q.toFin]) } } := by
  have hq := getQueue_toNat s q
  have hn : q.toNat % 64 = q.toNat := Nat.mod_eq_of_lt q.isLt
  rw [getQueue] at hq
  rw [modQueue, State.modHub, hq]
  simp only [hn]
  rfl

theorem headAgingRun_old {s : State} {q : BitVec 6} (hpend : s.hub.queues[q.toFin].pend ≠ [])
    (hold : s.hub.queues[q.toFin].headAt + usCycles 100000 ≤ s.now) : headAgingRun s q.toNat =
      { s with hub := { s.hub with queues := s.hub.queues.set q.toFin { s.hub.queues[q.toFin] with aged := true } } } := by
  have haged : s.hub.queues[q.toFin].old s.now = true := by
    have hne : (s.hub.queues[q.toFin].pend != []) = true := bne_iff_ne.mpr hpend
    rw [Queue.old, hne, decide_eq_true (Nat.le_sub_of_add_le (Nat.add_comm _ _ ▸ hold)), Bool.and_self, Bool.or_true]
  rw [headAgingRun, getQueue_toNat, if_pos ⟨hpend, haged⟩, modQueue_toNat]

/-- A queue that has aged before, or whose head is young, stays as it is. -/
theorem headAgingRun_young {s : State} {q : BitVec 6} (h : s.hub.queues[q.toFin].pend = [] ∨
    (s.hub.queues[q.toFin].headAt ≤ s.now ∧ s.now < s.hub.queues[q.toFin].headAt + usCycles 100000)) : headAgingRun s q.toNat = s := by
  rw [headAgingRun, getQueue_toNat]
  by_cases hpend : s.hub.queues[q.toFin].pend = []
  · exact if_neg fun hc => hc.1 hpend
  obtain ⟨hle, hlt⟩ := h.resolve_left hpend
  cases haged : s.hub.queues[q.toFin].aged
  case false =>
    refine if_neg fun hc => ?_
    have hold := hc.2
    rw [Queue.old, haged, Bool.false_or, decide_eq_false (by omega), Bool.and_false] at hold
    exact absurd hold (by decide)
  case true =>
    split
    case isFalse => rfl
    case isTrue =>
      have hself : ({ s.hub.queues[q.toFin] with aged := true } : Queue) = s.hub.queues[q.toFin] := by rw [← haged]
      rw [modQueue_toNat, hself, Fin.getElem_fin, Vector.set_getElem_self]

end Sys2Proof.Machine
end

section
/-! SUPPORT. Dictionary loads and reservations that mature (R111, R343, R350, R351). -/

namespace Sys2Proof.Machine

/-! A dictionary's image (R111). -/

theorem fget_imageFold (w : Nat → BitVec 384) (i : Nat) : ∀ l : List Nat,
    fget 0 (l.foldr (fun i m => if w i = 0 then m else (i, w i) :: m) []) i = if i ∈ l then w i else 0
  | [] => rfl
  | j :: l => by
    have ih := fget_imageFold w i l
    rw [List.foldr_cons]
    by_cases hj : j = i
    · subst hj
      split
      next hz => rw [ih]; simp [hz]
      next => simp [fget]
    · have hmem : (i ∈ j :: l) = (i ∈ l) := by simp [Ne.symm hj]
      split
      · rw [ih]; simp only [hmem]
      · rw [fget, if_neg hj, ih]; simp only [hmem]

/-- The words of a dictionary that has been read. -/
theorem fget_imageWords {n i : Nat} (b : List Byte) (hi : i < n) :
    fget 0 (imageWords n b) i = BitVec.ofNat 384 (leVal ((b.drop (48 * i)).take 48)) := by
  have h := fget_imageFold (fun i => BitVec.ofNat 384 (leVal ((b.drop (48 * i)).take 48))) i (List.range n)
  rw [if_pos (List.mem_range.mpr hi)] at h
  exact h

/-- A half of a cube's dictionary written. -/
def setHalf (q : Cube) (h : Nat) (x : DictHalf) : Cube := { q with dict := q.dict.set (h % 2) x (Nat.mod_lt _ (by decide)) }

theorem getD_setHalf (q : Cube) (h : Nat) (x d : DictHalf) : (setHalf q h x).dict.toList.getD (h % 2) d = x := by
  have hlt : h % 2 < (setHalf q h x).dict.toList.length := by rw [Vector.length_toList]; exact Nat.mod_lt _ (by decide)
  rw [List.getD_eq_getElem _ _ hlt, Vector.getElem_toList]
  exact Vector.getElem_set_self ..

/-- A half that the task of a frame was to have is given up. -/
def halfLost (f : FrameId) (q : Cube) : Cube :=
  match (q.frame f).task with | some t => setHalf q t.half ⟨none, 0, false, []⟩ | none => q

theorem halfLost_frames (f : FrameId) (q : Cube) : (halfLost f q).frames = q.frames := by
  rw [halfLost]
  split <;> rfl

theorem logFail_frame (s : State) (cube part : Nat) (asid : BitVec 16) (va : Nat) (w : Except WalkFail TlbEnt) (c : CubeId) (f : FrameId) :
    (logFail s cube part asid va w).frame c f = s.frame c f := by
  unfold logFail
  split
  · split <;> rfl
  · rfl

section
variable {s : State} {k : Rec} {g : Gang} {c : CubeId} {f : FrameId} {x : Task} (hrecs : s.hub.recs = [k]) (hgangs : k.gangs = [g])
  (hst : g.st = .waiting) (hframes : gangFrames s k.part k.id g.idx = [(c, f)]) (htask : (s.frame c f).task = some x)
  (hload : (dictOf s c (s.frame c f)).loaded = false)
include hrecs hgangs hst hframes htask hload

/-- A dictionary that loads: its half holds the image, and the gang runs. -/
theorem dictionaryLoadRun_ok {b : List Byte} (hb : loadImage s c k = .ok b) : dictionaryLoadRun s k.part k.id g.idx =
    modGang (s.modCube c fun q => setHalf q x.half ⟨some (k.part, k.id), bits (k.word 5) 0 15, true, imageWords (bits (k.word 5) 0 15) b⟩)
      k.part k.id g.idx fun g => { g with st := .running, admitted := s.now } := by
  have hwait : ¬ g.st ≠ .waiting := not_not_intro hst
  simp only [dictionaryLoadRun, findRec_of_single hrecs, Rec.gang_of_single hgangs, if_neg hwait, hframes, List.filter_cons, hload, Bool.not_false,
    if_true, List.filter_nil, List.findSome?_cons, List.findSome?_nil, hb, List.foldl_cons, List.foldl_nil, htask]
  rfl

omit htask in
/-- A dictionary that does not load: its gang ends with the error. -/
theorem dictionaryLoadRun_error {cause va : Nat} (hb : loadImage s c k = .error (cause, va)) : ∃ u : State,
    dictionaryLoadRun s k.part k.id g.idx = endWithError u k g.idx (cause, w64 va, 0) ∧ u.roster = s.roster ∧
      ∀ d e, u.frame d e = s.frame d e := by
  have hwait : ¬ g.st ≠ .waiting := not_not_intro hst
  refine ⟨logFail (s.modCube c (halfLost f)) c.val k.part k.asid va (lookup (s.modCube c (halfLost f)) c k.part k.asid va .fetch), ?_, ?_, fun d e => ?_⟩
  · simp only [dictionaryLoadRun, findRec_of_single hrecs, Rec.gang_of_single hgangs, if_neg hwait, hframes, List.filter_cons, hload, Bool.not_false,
      if_true, List.filter_nil, List.findSome?_cons, hb, List.foldl_cons, List.foldl_nil]
    rfl
  · exact roster_logFail ..
  · rw [logFail_frame, State.frame, State.cube_modCube]
    split
    next hd => rw [hd, Cube.frame, halfLost_frames, State.frame, Cube.frame]
    next => rfl

end

/-! A gang that ends with an error beside other residents (R343). -/

/-- Records that have failed, and of which no gang is open. -/
def AllFailed (l : List Rec) : Prop := ∀ r ∈ l, r.gangs = [] ∧ r.err.isSome = true

theorem map_onRec_of_fixed {part id : Nat} {g : Rec → Rec} {l : List Rec} (h : ∀ r ∈ l, g r = r) : l.map (onRec part id g) = l := by
  refine (List.map_congr_left fun r hr => ?_).trans (List.map_id l)
  rw [onRec]
  split
  · exact h r hr
  · rfl

theorem roster_modRec_of_fixed {s : State} {part id : Nat} {g : Rec → Rec} (h : ∀ r ∈ s.hub.recs, g r = r) : (modRec s part id g).roster = s.roster :=
  State.roster_eq_iff.mpr ⟨(modRec_recs s part id g).trans (map_onRec_of_fixed h), rfl, rfl⟩

/-- A failed record without gangs is not changed by another failure. -/
theorem roster_failGang_of_failed {s : State} (h : AllFailed s.hub.recs) (c : CubeId) (f : FrameId) (cause : Nat) (t2 : Word) :
    (failGang s c f cause t2).roster = s.roster := by
  unfold failGang
  dsimp only
  split
  next t ht =>
    have hgang : (modGang s t.part t.launch t.gang fun g => { g with err := g.err <|> some (cause, t2, (s.frame c f).ctl.taskid) }).roster =
        s.roster := roster_modRec_of_fixed fun r hr => by
      obtain ⟨hnone, -⟩ := h r hr
      rw [hnone, List.map_nil, ← hnone]
    have hboth : (modRec (modGang s t.part t.launch t.gang fun g => { g with err := g.err <|> some (cause, t2, (s.frame c f).ctl.taskid) })
        t.part t.launch fun k => { k with err := k.err <|> some (cause, t2, (s.frame c f).ctl.taskid) }).roster = s.roster := by
      refine (roster_modRec_of_fixed fun r hr => ?_).trans hgang
      rw [State.recs_of_roster hgang] at hr
      obtain ⟨e, he⟩ := Option.isSome_iff_exists.mp (h r hr).2
      rw [he, Option.orElse_eq_orElse, Option.orElse_eq_or, Option.some_or, ← he]
    split
    · exact (roster_tellSpan ..).trans hboth
    · exact hboth
  next => rfl

theorem roster_switchCore_of_failed {s : State} (h : AllFailed s.hub.recs) (c : CubeId) : (switchCore s c).roster = s.roster := by
  unfold switchCore
  dsimp only
  split
  · split
    next s' hload =>
      have hs' : s'.roster = s.roster := by
        unfold loadFrame at hload
        dsimp only at hload
        split at hload
        · exact absurd hload (by simp)
        · rw [← Option.some.inj hload]; rfl
      refine Eq.trans ?_ hs'
      unfold askLeave
      dsimp only
      split <;> rfl
    next => exact roster_failGang_of_failed (by exact h) c _ 0 0
  · rfl

/-- A frame loaded, or stopped in its handler, changes no other frame. -/
theorem loadFrame_frame_ne {s s' : State} {c d : CubeId} {f e : FrameId} (h : (d, e) ≠ (c, f)) (hload : loadFrame s c f = some s') :
    s'.frame d e = s.frame d e := by
  unfold loadFrame at hload
  dsimp only at hload
  split at hload
  · exact absurd hload (by simp)
  · rw [← Option.some.inj hload, retime_frame, repin, State.frame_modHub, State.frame_modFrame_ne h, State.frame_setFrame_ne h]

theorem failGang_frame (s : State) (c : CubeId) (f : FrameId) (cause : Nat) (t2 : Word) (d : CubeId) (e : FrameId) :
    (failGang s c f cause t2).frame d e = s.frame d e := by
  unfold failGang
  dsimp only
  split
  · split
    · rw [tellSpan_keeps (fun u => u.frame d e) fun _ _ => rfl]
      rfl
    · rfl
  · rfl

theorem handlerFault_frame_ne {s : State} {c d : CubeId} {f e : FrameId} (h : (d, e) ≠ (c, f)) (cause : Nat) (t2 : Word) :
    (handlerFault s c f cause t2).frame d e = s.frame d e := by
  unfold handlerFault
  rw [State.frame_modFrame_ne h, failGang_frame, logEvent_frame]

/-- A core that turns changes no frame but the one it turns to. -/
theorem switchCore_frame_ne {s : State} {c d : CubeId} {e : FrameId} (h : (d, e) ≠ (c, otherF (s.cube c).running)) :
    (switchCore s c).frame d e = s.frame d e := by
  have hturn : ((s.modCube c fun q => { q with running := otherF (s.cube c).running, runSince := s.now, stallSince := none }).modFrame c
      (otherF (s.cube c).running) fun r => { r with issue := { r.issue with slice := none } }).frame d e = s.frame d e := by
    rw [State.frame_modFrame_ne h, State.frame, State.cube_modCube]
    split
    next hd => rw [hd]; rfl
    next => rfl
  unfold switchCore
  dsimp only
  split
  · split
    next s' hload => rw [askLeave_frame, loadFrame_frame_ne h hload, hturn]
    next => rw [handlerFault_frame_ne h, hturn]
  · exact hturn

/-- Where every record has failed, turning the cores changes no record, and no frame that holds no task. -/
theorem turnCores_of_failed {s : State} (h : AllFailed s.hub.recs) :
    (turnCores s).roster = s.roster ∧ ∀ c f, (s.frame c f).task = none → (turnCores s).frame c f = s.frame c f := by
  have hfold : ∀ (l : List CubeId) (u : State), (u.roster = s.roster ∧ ∀ c f, (s.frame c f).task = none → u.frame c f = s.frame c f) →
      let t := l.foldl (fun s c =>
        let q := s.cube c
        if (q.frame q.running).task.isNone ∧ (q.frame (otherF q.running)).task.isSome then switchCore s c else s) u
      t.roster = s.roster ∧ ∀ c f, (s.frame c f).task = none → t.frame c f = s.frame c f := by
    intro l
    induction l with
    | nil => exact fun u hu => hu
    | cons c l ih =>
      intro u ⟨hroster, hframe⟩
      rw [List.foldl_cons]
      refine ih _ ?_
      dsimp only
      split
      next hturn =>
        refine ⟨(roster_switchCore_of_failed (State.recs_of_roster hroster ▸ h) c).trans hroster, fun d e hnone => ?_⟩
        have hne : (d, e) ≠ (c, otherF (u.cube c).running) := by
          rintro ⟨⟩
          have hsome : (u.frame c (otherF (u.cube c).running)).task.isSome = true := hturn.2
          rw [hframe c _ hnone, hnone] at hsome
          exact absurd hsome (by decide)
        rw [switchCore_frame_ne hne, hframe d e hnone]
      next => exact ⟨hroster, hframe⟩
  exact hfold allCubes s ⟨rfl, fun _ _ _ => rfl⟩

end Sys2Proof.Machine
end

section
/-! SUPPORT. The end of a gang whose dictionary does not load, reservations that mature, and the holds of a span (R343, R350 to R352). -/

namespace Sys2Proof.Machine

/-- The dictionary of a frame whose half has been written. -/
theorem dictOf_setHalf {s : State} {c : CubeId} {f : FrameId} {x : Task} (htask : (s.frame c f).task = some x) (d : DictHalf) :
    dictOf (s.modCube c fun q => setHalf q x.half d) c ((s.modCube c fun q => setHalf q x.half d).frame c f) = d := by
  have ht : ((s.modCube c fun q => setHalf q x.half d).frame c f).task = some x := by rw [State.frame_modCube_same]; exact htask
  simp only [dictOf, ht, State.cube_modCube_same]
  exact getD_setHalf ..

theorem frames_setHalf (s : State) (c : CubeId) (h : Nat) (d : DictHalf) :
    ((s.modCube c fun q => setHalf q h d).cube c).frames = (s.cube c).frames := by
  rw [State.cube_modCube_same]
  rfl

/-! A gang ends with an error (R343). -/

/-- The only gang of the only record ends with an error: its frame is free, whatever else is resident. -/
theorem endWithError_single {s : State} {k : Rec} {g : Gang} {c : CubeId} {f : FrameId} (hrecs : s.hub.recs = [k]) (hgangs : k.gangs = [g])
    (hspan : k.isSpan = false) (hframes : gangFrames s k.part k.id g.idx = [(c, f)]) (e : Nat × Word × Word) :
    ((endWithError s k g.idx e).frame c f).task = none ∧ (endWithError s k g.idx e).hub.recs = [{ k with
      gangs := [], doneN := k.doneN + 1, err := some (k.err.getD e), cancelled := k.cancelled + (k.total - k.next), next := k.total }] := by
  have hfailed := failed_recs hrecs hgangs hspan e
  have hall : AllFailed (cancelRest (modRec (releaseGang s k g.idx) k.part k.id (Rec.erring e)) k).hub.recs := by
    rw [hfailed]
    rintro r hr
    rw [List.mem_singleton.mp hr]
    exact ⟨rfl, rfl⟩
  have hfree : ((cancelRest (modRec (releaseGang s k g.idx) k.part k.id (Rec.erring e)) k).frame c f).task = none := by
    rw [cancelRest_keeps (fun u => u.frame c f) (fun _ _ => rfl) hspan, State.frame_modRec, releaseGang_eq, dropResv, State.frame_modHub, dropHold,
      State.frame_modHub, State.frame_modRec, (forgetParked_keeps _ k g.idx).2.2, freeMembers, hframes]
    exact congrArg Frame.task (freeFrame_frame (closeMsgs s c f) c f false)
  obtain ⟨hroster, hkeep⟩ := turnCores_of_failed hall
  rw [endWithError_eq s hspan, State.recs_of_roster hroster, hkeep c f hfree]
  exact ⟨hfree, hfailed⟩

/-! A reservation that matures (R350, R351). -/

theorem preemptGang_keeps {α : Type} (g : State → α) (hmod : ∀ s h, g (State.modHub s h) = g s)
    (hask : ∀ s c f, g (State.modFrame s c f fun r => if r.issue.preempt.isNone then { r with issue := { r.issue with preempt := some (0, 0) } } else r) = g s)
    (s : State) (part launch gang : Nat) : g (preemptGang s part launch gang) = g s := by
  have hrequest : g (requestPreempt s part launch gang) = g s := by
    rw [requestPreempt]
    exact (foldl_keeps g (fun u ⟨c, f⟩ => hask u c f) _ _).trans (by rw [modGang, modRec, hmod])
  unfold preemptGang
  split
  · exact (tellSpan_keeps g hmod ..).trans hrequest
  · rfl

theorem askAll_keeps {α : Type} (g : State → α) (hg : ∀ s part launch gang, g (preemptGang s part launch gang) = g s) (s : State) (l : List Victim)
    (enough : State → Bool) : g (askAll s l enough) = g s := by
  unfold askAll
  refine foldl_keeps g (fun u v => ?_) _ s
  split
  · rfl
  · exact hg ..

theorem reservedBy_single {s : State} {v : Reserve} {c : CubeId} (hresv : s.hub.resv = [v]) (hc : v.cubes.contains c.val = true) : reservedBy s c = some v := by
  rw [reservedBy, hresv, List.find?_cons, hc]

/-- A reservation open for 10 ms: it is mature, and residents of its cubes are asked to leave. -/
theorem reservationMatureRun_due {s : State} {v : Reserve} {k : Rec} {c : CubeId} (hresv : s.hub.resv = [v]) (hc : v.cubes.contains c.val = true)
    (hfind : findRec s v.part v.launch = some k) (hdue : v.opened + usCycles 10000 ≤ s.now) :
    ∃ l, reservationMatureRun s c = askAll (s.modHub fun h => { h with resv := [{ v with mature := true }] }) l fun _ => false := by
  have hopen : ¬ s.now - v.opened < usCycles 10000 := by omega
  have hmap : (s.modHub fun h => { h with resv := h.resv.map fun x => if x = v then { x with mature := true } else x }) =
      s.modHub fun h => { h with resv := [{ v with mature := true }] } := by
    simp only [State.modHub, hresv, List.map_cons, List.map_nil, if_true]
  rw [reservationMatureRun, reservedBy_single hresv hc]
  simp only [hfind, if_neg hopen, hmap]
  exact ⟨_, rfl⟩

theorem reservationMatureRun_young {s : State} {v : Reserve} {k : Rec} {c : CubeId} (hresv : s.hub.resv = [v]) (hc : v.cubes.contains c.val = true)
    (hfind : findRec s v.part v.launch = some k) (hopen : v.opened ≤ s.now) (hyoung : s.now < v.opened + usCycles 10000) :
    reservationMatureRun s c = s := by
  have hlt : s.now - v.opened < usCycles 10000 := by omega
  rw [reservationMatureRun, reservedBy_single hresv hc]
  simp only [hfind, if_pos hlt]

/-- What asking residents to leave does not change: the reservations, memory and every frame's registers. -/
theorem askAll_resv (s : State) (l : List Victim) (enough : State → Bool) : (askAll s l enough).hub.resv = s.hub.resv := by
  have hpost : ∀ (u : State) (q : RemoteReq), (post u q).hub.resv = u.hub.resv := fun u q => by
    simp only [post, State.modHub_hub]
    split <;> rfl
  refine askAll_keeps (fun u => u.hub.resv) (fun u part launch gang => ?_) s l enough
  have hrequest : (requestPreempt u part launch gang).hub.resv = u.hub.resv := by
    rw [requestPreempt]
    exact foldl_keeps (fun u : State => u.hub.resv) (fun u ⟨c, f⟩ => rfl) _ _
  unfold preemptGang
  split
  · refine Eq.trans ?_ hrequest
    exact foldl_keeps (fun u : State => u.hub.resv) (fun u p => hpost u _) _ _
  · rfl

theorem askAll_mem (s : State) (l : List Victim) (enough : State → Bool) : (askAll s l enough).mem = s.mem :=
  askAll_keeps State.mem (preemptGang_keeps State.mem (fun _ _ => rfl) fun _ _ _ => rfl) s l enough

theorem askAll_regs (s : State) (l : List Victim) (enough : State → Bool) (c : CubeId) (f : FrameId) :
    ((askAll s l enough).frame c f).regs = (s.frame c f).regs := by
  refine askAll_keeps (fun u => (u.frame c f).regs) (preemptGang_keeps (fun u => (u.frame c f).regs) (fun _ _ => rfl) fun u d e => ?_) s l enough
  rw [State.frame_modFrame]
  split
  next h =>
    obtain ⟨rfl, rfl⟩ := h
    split <;> rfl
  next => rfl

/-! The holds of a span (R352). -/

/-- A record's turn to be asked: a package of its span that has not been asked, all those before it holding. -/
def holdTurn (k : Rec) (pkg : Nat) : Bool :=
  (spanPkgs k).contains pkg && !k.asked.contains pkg && ((spanPkgs k).filter fun p => decide (p < pkg)).all fun p => k.holds.contains p

section
variable {s : State} {k : Rec} (hrecs : s.hub.recs = [k]) (hspan : k.isSpan = true) (hhome : k.home = s.pkg)
include hrecs hspan hhome

/-- A request that is late, or not this package's turn, does nothing. -/
theorem spanHoldRun_idle {p : Nat} (h : holdTimely s k = false ∨ holdTurn k p = false) : spanHoldRun s k.part k.id p = s := by
  have hhere : ¬ k.home ≠ s.pkg := not_not_intro hhome
  have hidle : (!holdTimely s k) = true ∨ (!holdTurn k p) = true := by simpa only [Bool.not_eq_true'] using h
  rw [spanHoldRun, findRec_of_single hrecs]
  simp only [hspan, Bool.not_true, Bool.false_eq_true, if_false, if_neg hhere]
  exact if_pos hidle

section
variable {p : Nat} (htime : holdTimely s k = true) (hturn : holdTurn k p = true)
include htime hturn

omit hrecs hspan hhome in
theorem holdTurn_not_idle : ¬ ((!holdTimely s k) = true ∨ (!holdTurn k p) = true) := by rw [htime, hturn]; decide

/-- Another package is asked. -/
theorem spanHoldRun_away (hne : p ≠ s.pkg) : spanHoldRun s k.part k.id p =
    sendFar (modRec s k.part k.id fun k => { k with asked := p :: k.asked }) k.part (partCube s k.part) p 0
      (.spanHold (wireId s k.id) k.tries k.words (queueLevel s k)) := by
  have hhere : ¬ k.home ≠ s.pkg := not_not_intro hhome
  rw [spanHoldRun, findRec_of_single hrecs]
  simp only [hspan, Bool.not_true, Bool.false_eq_true, if_false, if_neg hhere]
  exact (if_neg (holdTurn_not_idle htime hturn)).trans (if_neg hne)

/-- This package gives its own hold. -/
theorem spanHoldRun_own {u : State} (hgive : giveHold s k = (true, u)) (hp : p = s.pkg) : spanHoldRun s k.part k.id p =
    modRec u k.part k.id fun k => { k with asked := p :: k.asked, holds := p :: k.holds } := by
  have hhere : ¬ k.home ≠ s.pkg := not_not_intro hhome
  rw [spanHoldRun, findRec_of_single hrecs]
  simp only [hspan, Bool.not_true, Bool.false_eq_true, if_false, if_neg hhere, hgive]
  exact (if_neg (holdTurn_not_idle htime hturn)).trans (if_pos hp)

end

end

/-- The hold of a span none of whose gangs is here: the seats of the gang it would be given. -/
theorem giveHold_seats {s : State} {k : Rec} {gi : Nat} {l : List Seat} (hgiven : s.hub.given = []) (hgangs : k.gangs = []) (hdone : k.doneN = 0)
    (hrank : k.ownRank s = some gi) (hplace : placeGang s k gi = .seats l) :
    giveHold s k = (true, s.modHub fun h => { h with given := h.given ++ [⟨k.part, k.id, l⟩] }) := by
  simp only [giveHold, hgiven, List.any_nil, Bool.false_eq_true, if_false, hgangs, hrank, hdone, Nat.lt_irrefl, hplace]

theorem holdTurn_of_holds {k : Rec} {p : Nat} (hp : p ∈ spanPkgs k) (hask : p ∉ k.asked) (hheld : ∀ y ∈ spanPkgs k, y < p → y ∈ k.holds) :
    holdTurn k p = true := by
  have hasked : k.asked.contains p = false := by rw [← Bool.not_eq_true, List.contains_iff_mem]; exact hask
  have hall : (((spanPkgs k).filter fun x => decide (x < p)).all fun x => k.holds.contains x) = true := by
    rw [List.all_eq_true]
    intro y hy
    obtain ⟨hmem, hlt⟩ := List.mem_filter.mp hy
    exact List.contains_iff_mem.mpr (hheld y hmem (of_decide_eq_true hlt))
  rw [holdTurn, List.contains_iff_mem.mpr hp, hasked, hall]
  rfl

theorem holdTurn_of_missing {k : Rec} {p y : Nat} (hy : y ∈ spanPkgs k) (hlt : y < p) (hmiss : y ∉ k.holds) : holdTurn k p = false := by
  have hall : (((spanPkgs k).filter fun x => decide (x < p)).all fun x => k.holds.contains x) = false := by
    rw [List.all_eq_false]
    exact ⟨y, List.mem_filter.mpr ⟨hy, decide_eq_true hlt⟩, by rw [List.contains_iff_mem]; exact hmiss⟩
  rw [holdTurn, hall, Bool.and_false]

theorem holdTimely_eq {s : State} {k : Rec} {t0 : Nat} (hchosen : k.chosen = some t0) : holdTimely s k = decide (s.now - t0 < usCycles 1000) := by
  rw [holdTimely, hchosen]
  rfl

/-- Holds that have not all been given in time are released, and the span's other packages told. -/
theorem spanTimeoutRun_late {s : State} {k : Rec} {t0 y : Nat} (hrecs : s.hub.recs = [k]) (hhome : k.home = s.pkg) (hchosen : k.chosen = some t0)
    (hy : y ∈ spanPkgs k) (hmiss : y ∉ k.holds) (hlate : t0 + usCycles 1000 ≤ s.now) :
    spanTimeoutRun s k.part k.id = tellSpan (releaseHolds s k) k.part (partCube s k.part) k (.spanRelease (wireId s k.id) false) := by
  have hnot : (!(spanPkgs k).all k.holds.contains) = true := by
    rw [Bool.not_eq_true', List.all_eq_false]
    exact ⟨y, hy, by rw [List.contains_iff_mem]; exact hmiss⟩
  rw [spanTimeoutRun, findRec_of_single hrecs]
  simp only [hchosen]
  exact if_pos ⟨hhome, Nat.le_sub_of_add_le (Nat.add_comm _ _ ▸ hlate), hnot⟩

/-- A hold that another package gives. -/
theorem spanArriveRun_held {s : State} {k : Rec} {q : RemoteReq} {w n : Nat} (hrecs : s.hub.recs = [k]) (hkind : q.kind = .spanHeld w n)
    (hfp : partOfFpid s q.fpid = some k.part) (hid : ownId s w = k.id) : spanArriveRun s q =
      if (holdTimely s k && decide (k.tries = n) && k.asked.contains q.srcPkg) = true then
        modRec s k.part k.id fun k => { k with holds := q.srcPkg :: k.holds }
      else s := by
  rw [spanArriveRun, hfp]
  simp only [hkind, hid, findRec_of_single hrecs]

theorem releaseHolds_eq {s : State} {k : Rec} (hrecs : s.hub.recs = [k]) : releaseHolds s k = { s with hub := { s.hub with
    recs := [{ k with asked := [], holds := [], chosen := none }]
    given := s.hub.given.filter fun h => !(decide (h.part = k.part) && decide (h.launch = k.id)) } } := by
  simp [releaseHolds, dropHold, modRec, State.modHub, hrecs]

/-- The only record changed by name. -/
theorem modRec_single {s : State} {k : Rec} (hrecs : s.hub.recs = [k]) (g : Rec → Rec) :
    modRec s k.part k.id g = { s with hub := { s.hub with recs := [g k] } } := by
  simp [modRec, State.modHub, hrecs]

end Sys2Proof.Machine
end

section
/-! SUPPORT. The scheduler's events together (R26, R27, R111, R343, R346 to R352). -/

open Sys2Proof Sys2Proof.Machine

/-- Settles O50: a decision with one offer goes through `admission_findRec` and `decideOffer_nofit`, a dictionary's load through
`dictionaryLoadRun_ok` and `endWithError_single`, a reservation through `reservationMatureRun_due`, a span's holds through
`holdTurn_of_holds`, `giveHold_seats` and `spanTimeoutRun_late`. -/
theorem schedulerRuns : Obligations.SchedulerRuns := by
  unfold Obligations.SchedulerRuns
  intro s hpow quiet
  have hexec : ∀ {u v : State}, u = v → powered s u = .next v := fun huv => (powered_of_power hpow _).trans (congrArg _ huv)
  refine ⟨fun p ⟨hspans, hout⟩ hoff => hexec ?_, fun p o k ⟨hspans, hout⟩ hoff hspan hfind => ⟨fun c f x hplace => ?_, fun hplace hresv => hexec ?_⟩,
    fun k g c f x hrecs hgangs hst hframes htask hhalf hload => ⟨fun b hb => ?_, fun cause va hb hspan => ?_⟩,
    fun q => ⟨fun hpend hold => hexec (headAgingRun_old hpend hold), fun h => hexec (headAgingRun_young h)⟩,
    fun v k c hresv hc hfind => ⟨fun hdue => ?_, fun hopen hyoung => hexec (reservationMatureRun_young hresv hc hfind hopen hyoung)⟩,
    fun k t0 hrecs hspan hhome hchosen => ?_⟩
  · rw [schedulingRun_of_quiet hspans hout, hoff]
    rfl
  · refine ⟨_, hexec (schedulingRun_single hspans hout hoff), ?_, fun d h hne => ?_, ?_⟩
    · exact (admission_keeps hspan hplace State.mem fun _ _ => rfl).trans (seated_keeps State.mem (fun _ _ _ => rfl) s k _)
    · exact (admission_keeps hspan hplace (fun u => u.frame d h) fun _ _ => rfl).trans (seatTask_frame_ne hne)
    · have hframe := (admission_keeps hspan hplace (fun u => u.frame c f) fun _ _ => rfl).trans (seatTask_frame s k c f x)
      obtain ⟨loaded, hrec⟩ := admission_findRec hspan hplace hfind
      dsimp only at hframe ⊢
      rw [hframe]
      refine ⟨rfl, rfl, rfl, rfl, rfl, rfl, rfl, rfl, ?_, rfl, _, hrec, rfl, ?_⟩
      · change (BitVec.ofNat 6 (bits (k.word 2) 16 6)).toNat = _
        rw [BitVec.toNat_ofNat, bits, Nat.shiftRight_eq_div_pow, shiftLeft_one, Nat.mod_mod]
      · rw [Rec.admits, List.map_append]
        rfl
  · rw [schedulingRun_single hspans hout hoff]
    exact decideOffer_nofit hspan hplace hresv
  · refine ⟨_, hexec (dictionaryLoadRun_ok hrecs hgangs hst hframes htask hload hb), rfl, modGang_recs_single (s := State.modCube s c _) hrecs hgangs _, ?_, ?_, fun i hi => ?_⟩
    · exact frames_setHalf ..
    · exact congrArg DictHalf.loaded (dictOf_setHalf htask _)
    · refine (congrArg (fun d : DictHalf => fget 0 d.words i) (dictOf_setHalf htask _)).trans (fget_imageWords b ?_)
      rw [bits, Nat.shiftRight_eq_div_pow, shiftLeft_one, Nat.pow_zero, Nat.div_one]
      exact hi
  · obtain ⟨u, hrun, hroster, hsame⟩ := dictionaryLoadRun_error hrecs hgangs hst hframes hload hb
    have hgang : gangFrames u k.part k.id g.idx = [(c, f)] := (gangFrames_of_tasks (fun d e => by rw [hsame]) ..).trans hframes
    exact ⟨_, hexec hrun, endWithError_single ((State.recs_of_roster hroster).trans hrecs) hgangs hspan hgang _⟩
  · obtain ⟨l, hrun⟩ := reservationMatureRun_due hresv hc hfind hdue
    exact ⟨_, hexec hrun, askAll_resv .., askAll_mem .., fun d e => askAll_regs ..⟩
  · intro tell up late
    have hpos : 0 < usCycles 1000 := by decide
    have htimely : ¬ late → holdTimely s k = true := fun h => by
      rw [holdTimely_eq hchosen]
      exact decide_eq_true (by change ¬ t0 + usCycles 1000 ≤ s.now at h; omega)
    have huntimely : late → holdTimely s k = false := fun h => by
      rw [holdTimely_eq hchosen]
      exact decide_eq_false (by change t0 + usCycles 1000 ≤ s.now at h; omega)
    refine ⟨fun p hlate => hexec (spanHoldRun_idle hrecs hspan hhome (Or.inl (huntimely hlate))), fun p hp hask hle hlate => ⟨fun hne hup hheld => hexec ?_,
      fun gi l hp' hheld hgiven hgangs hdone hrank hplace => hexec ?_, fun y hy hlt hmiss => hexec ?_⟩, fun q w n hkind hfp hid hle => ⟨fun hlate hn hsrc => hexec ?_, fun h => hexec ?_⟩,
      fun y hy hmiss hlate hup => hexec ?_⟩
    · refine (spanHoldRun_away hrecs hspan hhome (htimely hlate) (holdTurn_of_holds hp hask hheld) hne).trans ?_
      refine (sendFar_of_up (by exact hup) _).trans ?_
      rw [modRec_single hrecs]
      rfl
    · refine (spanHoldRun_own hrecs hspan hhome (htimely hlate) (holdTurn_of_holds hp hask hheld) (giveHold_seats hgiven hgangs hdone hrank hplace) hp').trans ?_
      have hrecs' : (s.modHub fun h => { h with given := h.given ++ [⟨k.part, k.id, l⟩] }).hub.recs = [k] := hrecs
      rw [modRec_single hrecs', State.modHub, hgiven]
      rfl
    · exact spanHoldRun_idle hrecs hspan hhome (Or.inr (holdTurn_of_missing hy hlt hmiss))
    · rw [spanArriveRun_held hrecs hkind hfp hid, if_pos, modRec_single hrecs]
      rw [htimely hlate, decide_eq_true hn.symm, List.contains_iff_mem.mpr hsrc]
      rfl
    · rw [spanArriveRun_held hrecs hkind hfp hid, if_neg]
      intro hc
      rw [Bool.and_eq_true, Bool.and_eq_true] at hc
      obtain ⟨⟨htime, hn⟩, -⟩ := hc
      rcases h with h | h
      · exact absurd ((huntimely h).symm.trans htime) (by decide)
      · exact h (of_decide_eq_true hn).symm
    · rw [spanTimeoutRun_late hrecs hhome hchosen hy hmiss hlate, tellSpan_of_up hspan]
      · rw [releaseHolds_eq hrecs]
        rfl
      · rw [releaseHolds_eq hrecs]
        exact hup
end

section
/-! SUPPORT. Translation and remote access faults that are found after issue (R66, R204, R244, R255, R361, R362). -/

namespace Sys2Proof.Machine

/-! A walk that meets no poison is not logged (R356). -/

theorem logFail_of_clean {s : State} {cube part va : Nat} {asid : BitVec 16} {w : Except WalkFail TlbEnt} (h : ∀ k, w = .error k → k.bad = false) :
    logFail s cube part asid va w = s := by
  unfold logFail
  split
  next k => rw [if_neg (by rw [h k rfl]; decide)]
  next => rfl

theorem logWalk_of_clean {s : State} {c : CubeId} {f : FrameId} {src : Stream} {va : Nat}
    (h : ∀ w, lookup s c (s.frame c f).part (s.frame c f).asid va src = .error w → w.bad = false) : logWalk s c f src va = s :=
  logFail_of_clean h

/-! What a frame has in flight does not enter its translations. -/

section
variable (s : State) (c : CubeId) (f : FrameId) (g : Frame → Frame)

theorem gRead_modFrame (a n : Nat) : gRead (s.modFrame c f g) a n = gRead s a n := gRead_congr fun _ _ => rfl
theorem poisoned_modFrame (a : Nat) : poisoned (s.modFrame c f g) a = poisoned s a := rfl
theorem partOf_modFrame (p : Nat) : partOf (s.modFrame c f g) p = partOf s p := rfl

theorem walkFrom_modFrame (d : Part) (part : Nat) (asid : BitVec 16) (va : Nat) : ∀ (l : List (Nat × Nat × Bool)) (tab : Nat),
    walkFrom (s.modFrame c f g) d part asid va l tab = walkFrom s d part asid va l tab
  | [], _ => rfl
  | (lo, len, leaf) :: l, tab => by
    rw [walkFrom, walkFrom]
    simp only [gRead_modFrame, poisoned_modFrame, State.modFrame_pkg, walkFrom_modFrame d part asid va l]

theorem asidRoot_modFrame (d : Part) (asid : BitVec 16) : asidRoot (s.modFrame c f g) d asid = asidRoot s d asid := by
  simp only [asidRoot, gRead_modFrame, State.modFrame_pkg]

theorem walk_modFrame (part : Nat) (asid : BitVec 16) (va : Nat) : walk (s.modFrame c f g) part asid va = walk s part asid va := by
  simp only [walk, partOf_modFrame, asidRoot_modFrame, walkFrom_modFrame]

theorem lookup_modFrame (part : Nat) (asid : BitVec 16) (va : Nat) (src : Stream) :
    lookup (s.modFrame c f g) c part asid va src = lookup s c part asid va src := by
  have htlb : ((s.modFrame c f g).cube c).tlb = (s.cube c).tlb := by
    rw [State.modFrame, State.setFrame, State.cube_modCube_same]
    rfl
  unfold lookup
  rw [htlb, walk_modFrame]

end

/-! A queued access that does not translate (R204, R255). -/

section
variable {s : State} {c : CubeId} {f : FrameId}

/-- The frame with other operations in flight. -/
def withFlight (s : State) (c : CubeId) (f : FrameId) (x : Flight) : State := s.modFrame c f fun r => { r with fl := x }

theorem withFlight_eq (s : State) (c : CubeId) (f : FrameId) (x : Flight) : withFlight s c f x = s.setFrame c f { s.frame c f with fl := x } := rfl

theorem releaseTag_of_no_tags {r : Frame} (h : r.taint.out = []) (id : Nat) : releaseTag r id = r := by
  rw [releaseTag, h]
  rfl

theorem lsFailure_single {e : LsEnt} {l : Line} {k : Nat} (hfl : (s.frame c f).fl = { Flight.none with ls := [e] }) (hlines : e.lines = [l])
    (hpa : l.pa = none) (hdrain : e.op.isDrain = false) (hgpf : e.op.isGpf = false) (htr : translateF s c f e.op.need l.va.toNat = .error k) :
    lsFailure s c f = some (e, l.va, k) := by
  rw [lsFailure, hfl]
  simp [hdrain, hgpf, hlines, hpa, htr]

theorem trapAfter10_eq (info : OpInfo) (va : Word) (k src : Nat) (w : Bool) : trapAfter10 info va k src w =
    ⟨10, info.slot, false, true, info.pc, info.bits, va, w64 (k + src * 16 + bnat w * 128)⟩ := by
  rw [trapAfter10, Nat.shiftLeft_eq, Nat.shiftLeft_eq]

theorem queuedFaultRun_ls {e : LsEnt} {l : Line} {k : Nat} (hfl : (s.frame c f).fl = { Flight.none with ls := [e] }) (hout : (s.frame c f).taint.out = [])
    (hlines : e.lines = [l]) (hpa : l.pa = none) (hdrain : e.op.isDrain = false) (hgpf : e.op.isGpf = false)
    (htr : translateF s c f e.op.need l.va.toNat = .error k)
    (hclean : ∀ w, lookup s c (s.frame c f).part (s.frame c f).asid l.va.toNat .ls = .error w → w.bad = false) :
    queuedFaultRun s c f .ls = withFlight s c f { Flight.none with
      wdLs := [e], traps := [⟨10, e.info.slot, false, true, e.info.pc, e.info.bits, l.va, w64 (k + bnat e.op.writes * 128)⟩] } := by
  have hfail := lsFailure_single hfl hlines hpa hdrain hgpf htr
  have hrun : queuedFaultRun s c f .ls = withdrawLs s c f := by
    rw [queuedFaultRun, hfail]
    exact congrArg (withdrawLs · c f) (logWalk_of_clean hclean)
  rw [hrun, withdrawLs, hfail, withFlight_eq]
  simp [hfl, Flight.none, releaseTag_of_no_tags hout, trapAfter10_eq]

theorem firstFailure_putf {e : CopyEnt} {adr val : Word} {k : Nat} (hop : e.op = .putf adr val) (hva : bits adr.toNat 48 16 < 0xFF)
    (htr : translateF s c f { w := true } adr.toNat .copy = .error k) : firstFailure s c f e = some (w64 adr.toNat, k, 1, true) := by
  have h56 : bits adr.toNat 56 8 = 0 := by
    rw [bits, Nat.shiftRight_eq_div_pow, shiftLeft_one] at hva ⊢
    omega
  have h48 : ¬ bits adr.toNat 48 8 = 0xFF := by
    rw [bits, Nat.shiftRight_eq_div_pow, shiftLeft_one] at hva ⊢
    omega
  have hplace : place s c f { w := true } adr.toNat .copy = .error k := by
    rw [place, if_neg (not_not_intro h56), if_neg h48, htr]
  simp only [firstFailure, hop, hplace]
  simp

theorem queuedFaultRun_putf {e : CopyEnt} {adr val : Word} {k : Nat} (hop : e.op = .putf adr val) (hfl : (s.frame c f).fl = { Flight.none with copyQ := [e] })
    (hwait : e.wait = 0) (hva : bits adr.toNat 48 16 < 0xFF) (htr : translateF s c f { w := true } adr.toNat .copy = .error k) (hk : k ≠ placeRefused)
    (hclean : ∀ w, lookup s c (s.frame c f).part (s.frame c f).asid adr.toNat .copy = .error w → w.bad = false) :
    queuedFaultRun s c f .copy = withFlight s c f { Flight.none with
      copyQ := [e], traps := [⟨10, e.info.slot, false, true, e.info.pc, e.info.bits, w64 adr.toNat, w64 (k + 16 + 128)⟩] } := by
  have hover : waitOver (s.frame c f) e.id e.wait = true := by rw [waitOver, hwait]; rfl
  have hadr : (w64 adr.toNat).toNat = adr.toNat := by rw [w64, BitVec.ofNat_toNat, BitVec.setWidth_eq]
  have hqueue : (s.frame c f).fl.copyQ = [e] := by rw [hfl]
  have htraps : (s.frame c f).fl.traps.isEmpty = true := by rw [hfl]; rfl
  rw [queuedFaultRun, copyFault]
  simp only [hqueue, htraps, hover, firstFailure_putf hop hva htr, if_neg hk, hop, Bool.not_true, Bool.false_eq_true, or_self, if_false, hadr]
  refine (congrArg (logWalk · c f .copy adr.toNat) (a₂ := withFlight s c f { Flight.none with
    copyQ := [e], traps := [⟨10, e.info.slot, false, true, e.info.pc, e.info.bits, w64 adr.toNat, w64 (k + 16 + 128)⟩] }) ?_).trans ?_
  · rw [withFlight_eq, hfl, trapAfter10_eq]
    rfl
  refine logWalk_of_clean fun w hw => ?_
  rw [withFlight, lookup_modFrame, State.frame_modFrame_same] at hw
  exact hclean w hw

/-! An access that its target refuses (R66, R361). -/

theorem accessCheck_far {part a : Nat} (w : Bool) (h : paPkg a ≠ s.pkg) : accessCheck s part a w = targetCheck s (fpidOf s part) a w := if_neg h

theorem refusal_far {n : Need} {va a k : Nat} {src : Stream} (htr : translateF s c f n va src = .ok a) (hfar : paPkg a ≠ s.pkg)
    (hcheck : targetCheck s (fpidOf s (s.frame c f).part) a n.w = some k) : refusal s c f n va src = some (w64 va, a, k) := by
  rw [refusal, htr]
  simp only [Bool.false_eq_true, if_false, accessCheck_far n.w hfar, hcheck, Option.map_some]

/-- A refused access of another package: its fault stands at the issuing context, and it is logged at its source. -/
theorem refuseAccess_far {info : OpInfo} {va : Word} {a k kind : Nat} {drop : Frame → Frame} (hfar : paPkg a ≠ s.pkg) :
    let t := refuseAccess s c f info (va, a, k) kind drop
    let d := drop (s.frame c f)
    t.frame c f = { d with fl := { d.fl with traps := d.fl.traps ++ [⟨11, info.slot, true, true, info.pc, info.bits, va, w64 (paPkg a + k * 1024)⟩] } } ∧
      t.mem = s.mem ∧ t.teasel.logSeq = s.teasel.logSeq + 1 := by
  have hlog : logRemote s (s.frame c f) c va a k kind = logEvent s 0x32 c.val
      [w64 (match (s.frame c f).task with | some t => t.launch | none => 0), (s.frame c f).ctl.taskid, va, w64 a, w64 k] := if_neg hfar
  intro t d
  refine ⟨?_, ?_, ?_⟩
  · change ((logRemote s (s.frame c f) c va a k kind).modFrame c f _).frame c f = _
    rw [hlog, State.frame_modFrame_same, logEvent_frame, trap11, Nat.shiftLeft_eq]
  · change ((logRemote s (s.frame c f) c va a k kind).modFrame c f _).mem = _
    rw [hlog]
    rfl
  · change ((logRemote s (s.frame c f) c va a k kind).modFrame c f _).teasel.logSeq = _
    rw [hlog]
    rfl

/-- A refused load or store gives back its tag and leaves its queue. -/
def dropLs (id : Nat) (r : Frame) : Frame :=
  { releaseTag r id with fl := { (releaseTag r id).fl with ls := (releaseTag r id).fl.ls.filter (·.id ≠ id) } }

/-- A refused cube operation leaves its queue. -/
def dropCube (id : Nat) (r : Frame) : Frame := { r with fl := { r.fl with cubeA := r.fl.cubeA.filter (·.id ≠ id) } }

theorem dropLs_single {r : Frame} {e : LsEnt} (hfl : r.fl = { Flight.none with ls := [e] }) (hout : r.taint.out = []) :
    (dropLs e.id r).fl = Flight.none ∧ (dropLs e.id r).regs = r.regs := by
  rw [dropLs, releaseTag_of_no_tags hout, hfl]
  simp [Flight.none]

theorem dropCube_single {r : Frame} {e : CubeEnt} (hfl : r.fl = { Flight.none with cubeA := [e] }) : (dropCube e.id r).fl = Flight.none := by
  rw [dropCube, hfl]
  simp [Flight.none]

section
variable {l : Line} {a k : Nat} (hst : l.st = .queued) (hfar : paPkg a ≠ s.pkg)
include hst hfar

/-- A load or store whose target refuses it. -/
theorem remoteFault_ls {e : LsEnt} (hfl : (s.frame c f).fl = { Flight.none with ls := [e] })
    (hlines : e.lines = [l]) (hpa : l.pa = none) (hdrain : e.op.isDrain = false) (hgpf : e.op.isGpf = false)
    (htr : translateF s c f e.op.need l.va.toNat = .ok a) (hcheck : targetCheck s (fpidOf s (s.frame c f).part) a e.op.need.w = some k) :
    remoteFault s c f e.id = refuseAccess s c f e.info (l.va, a, k) e.op.kind (dropLs e.id) := by
  have hls : (s.frame c f).fl.ls = [e] := by rw [hfl]
  have hline : linePa s c f e.op.need l = some a := by rw [linePa, hpa, htr]
  have hearlier : earlierTranslate s c f e.id = true := by
    rw [earlierTranslate, hls]
    simp [hlines, hline]
  have hva : w64 l.va.toNat = l.va := by rw [w64, BitVec.ofNat_toNat, BitVec.setWidth_eq]
  have href : refusedLs s c f e = some (l.va, a, k) := by
    rw [refusedLs, hdrain, hgpf, hearlier, hlines]
    simp [hst, refusal_far htr hfar hcheck, hva]
  have hfind : (s.frame c f).fl.ls.find? (·.id = e.id) = some e := by rw [hls]; simp
  rw [remoteFault]
  simp only [hfind, href]
  rfl

/-- A cube operation one of whose global operands is refused. -/
theorem remoteFault_cube {e : CubeEnt} (hfl : (s.frame c f).fl = { Flight.none with cubeA := [e] }) (hglob : e.glob = [l])
    (htr : translateF s c f { r := true } l.va.toNat .cube = .ok a) (hcheck : targetCheck s (fpidOf s (s.frame c f).part) a false = some k) :
    remoteFault s c f e.id = refuseAccess s c f e.info (l.va, a, k) 0 (dropCube e.id) := by
  have hva : w64 l.va.toNat = l.va := by rw [w64, BitVec.ofNat_toNat, BitVec.setWidth_eq]
  have href : operandRefused s c f e = some (l.va, a, k) := by
    rw [operandRefused, hglob]
    simp [hst, refusal_far (n := { r := true }) htr hfar hcheck, hva]
  have hls : (s.frame c f).fl.ls.find? (·.id = e.id) = none := by rw [hfl]; rfl
  have hcopy : (s.frame c f).fl.copyA.find? (·.id = e.id) = none := by rw [hfl]; rfl
  have hfind : (s.frame c f).fl.cubeA.find? (·.id = e.id) = some e := by rw [hfl]; simp
  rw [remoteFault]
  simp only [hls, hcopy, hfind, href]
  rfl

end

end

end Sys2Proof.Machine
end

section
/-! SUPPORT. The trap that stands first at a boundary (R30, R78, R104, R320, R325). -/

namespace Sys2Proof.Machine

/-! The order of the conditions found after issue (R320). -/

section
variable {s : State} {c : CubeId} {f : FrameId}

/-- A remote access fault comes first, then a translation fault. -/
theorem afterTrap_remote {t w : TrapInfo} (htraps : (s.frame c f).fl.traps = [t, w]) (ht : t.cause ≠ 11) (hw : w.cause = 11) :
    afterTrap s c f = some w := by
  simp [afterTrap, firstDue, htraps, ht, hw]

theorem afterTrap_translation {t w : TrapInfo} (htraps : (s.frame c f).fl.traps = [t, w]) (ht : t.cause = 12) (hw : w.cause = 10) :
    afterTrap s c f = some w := by
  simp [afterTrap, firstDue, htraps, ht, hw]

/-- With no trap that was found after issue, what the bundle meets comes first, then a refused addition, then the overdue trap. -/
theorem firstDue_of_no_traps (htraps : (s.frame c f).fl.traps = []) (due ceil : Option TrapInfo) :
    firstDue s c f due ceil = (due <|> ceil <|> overdue s c f) := by
  simp [firstDue, htraps]

theorem afterTrap_overdue {n g : Nat} (hpre : (s.frame c f).issue.preempt = some (n, g)) (hu : (s.frame c f).priv.lvl = false)
    (htraps : (s.frame c f).fl.traps = []) : afterTrap s c f = if n < (s.cube c).ctl.dplimit.toNat then none
      else some ⟨9, 15, false, true, (s.frame c f).issue.pc, 0, (s.cube c).ctl.dplimit.setWidth 64, w64 g⟩ := by
  rw [afterTrap, firstDue_of_no_traps htraps]
  by_cases hn : n < (s.cube c).ctl.dplimit.toNat
  · simp [overdue, hpre, hu, hn]
  · simp [overdue, hpre, hu, hn, Nat.not_lt.mp hn, plainTrap]

theorem overdue_of_no_request (hpre : (s.frame c f).issue.preempt = none) : overdue s c f = none := by
  rw [overdue, hpre]

/-- An interrupt is taken at a drain point where no trap is due (R30). -/
theorem asyncRun_of_due (hirq : (s.frame c f).issue.irq = true) (hu : (s.frame c f).priv.lvl = false) (hdrain : atDrainPoint s c f = true)
    (hnone : drainTrap s c f = none) : asyncRun s c f = s.modFrame c f fun r => { r with issue := { r.issue with irq := false } } := by
  rw [asyncRun]
  simp only [hirq, hu, hdrain, hnone, Option.isNone_none, Bool.not_false, and_self, if_true]
  rfl

/-! What is taken at a boundary (R320). -/

/-- The first due trap is entered, where it is of the kind asked for and the core runs. -/
theorem takeFirst_of_first {t : TrapInfo} {p : TrapInfo → Bool} (hfirst : boundaryFirst s c f = some t) (htrip : (s.cube c).camp.trip = none)
    (hon : (s.cube c).fab.coreOff = false) (hp : p t = true) :
    takeFirst s c f p = enterTrap (s.modFrame c f fun r => dropDue r t) c f t := by
  rw [takeFirst, hfirst]
  simp only [htrip, hon, hp, Option.isNone_none, Bool.not_false, Bool.and_self, if_true]

end

/-! The first trap of a boundary (R320). -/

/-- The machine at the boundary that a frame has reached: what has arrived and what is due has landed. -/
def atBoundary (s : State) (c : CubeId) (f : FrameId) : State := landDue (s.modFrame c f landArrived) c f

section
variable {s : State} {c : CubeId} {f : FrameId}

theorem boundaryFirst_of_halted {u : State} (hu : u = atBoundary s c f) (h : (u.frame c f).issue.halted = true) : boundaryFirst s c f = afterTrap u c f := by
  subst hu
  exact if_pos h

theorem boundaryFirst_of_bundle {u : State} (hu : u = atBoundary s c f) {x : Fetched} {b : BundleIn} (h : (u.frame c f).issue.halted = false)
    (hfetch : fetchAt u c f = .ok x) (hb : bundleIn (u.frame c f).issue.pc x.b x.next = .ok b) :
    (∀ t, judge u c f b slotMeaning = .trap t → boundaryFirst s c f = some t) ∧
    ∀ l, judge u c f b slotMeaning = .go l → boundaryFirst s c f = boundaryTrap u c f b (.go l) := by
  have hrun : boundaryFirst s c f = if (u.frame c f).issue.halted = true then afterTrap u c f
    else match fetchAt u c f with
      | .error t => some t
      | .ok x => match bundleIn (u.frame c f).issue.pc x.b x.next with
        | .error t => some t
        | .ok b => match judge u c f b slotMeaning with
          | .trap t => some t
          | v => boundaryTrap u c f b v := by
    subst hu
    rfl
  rw [hrun, if_neg (by rw [h]; decide), hfetch]
  dsimp only
  rw [hb]
  dsimp only
  exact ⟨fun t ht => by rw [ht], fun l hl => by rw [hl]⟩

end

/-- What stands at the boundary of a bundle that issues (R78, R104, R320). -/
def dueAtBundle (s : State) (c : CubeId) (f : FrameId) (b : BundleIn) : Option TrapInfo :=
  dueHere (s.frame c f) b (b.slots.filter (slotIssues (s.frame c f) b.lvl)) true <|>
    if b.dp && !(s.frame c f).priv.lvl && (s.frame c f).fl.land.isEmpty && drained s c f then (s.frame c f).fl.due.head?.map (·.info) else none
def ceilAtBundle (s : State) (c : CubeId) (f : FrameId) (b : BundleIn) : Option TrapInfo :=
  semNamed s c f (b.slots.filter (slotIssues (s.frame c f) b.lvl)) true <|>
    if b.dp && !(s.frame c f).priv.lvl && (s.frame c f).fl.land.isEmpty && drained s c f then semTrap s c f ⟨(s.frame c f).issue.pc, 0, 15, 0⟩ else none

section
variable {u : State} {c : CubeId} {f : FrameId} {b : BundleIn} (l : List (SlotIns × SlotEff)) (htraps : (u.frame c f).fl.traps = [])
include htraps

theorem boundaryTrap_go : boundaryTrap u c f b (.go l) = (dueAtBundle u c f b <|> ceilAtBundle u c f b <|> overdue u c f) :=
  firstDue_of_no_traps htraps _ _

omit htraps in
theorem dueAtBundle_of_none (hdue : (u.frame c f).fl.due = []) : dueAtBundle u c f b = none := by
  simp [dueAtBundle, dueHere, hdue]

omit htraps in
theorem ceilAtBundle_of_none (href : refusalOf u c f = none) : ceilAtBundle u c f b = none := by
  simp [ceilAtBundle, semNamed, semTrap, href]

omit htraps in
theorem refusalOf_resident (haway : (u.frame c f).away = false) : refusalOf u c f = (u.frame c f).sync.refusal := by
  simp [refusalOf, haway]

/-- With nothing due no trap stands at the boundary. -/
theorem boundaryTrap_of_none (hpre : (u.frame c f).issue.preempt = none) (hdue : (u.frame c f).fl.due = []) (haway : (u.frame c f).away = false)
    (href : (u.frame c f).sync.refusal = none) : boundaryTrap u c f b (.go l) = none := by
  rw [boundaryTrap_go l htraps, dueAtBundle_of_none hdue, ceilAtBundle_of_none (by rw [refusalOf_resident haway, href]), overdue_of_no_request hpre]
  rfl

section
variable (hdp : b.dp = true) (hu : (u.frame c f).priv.lvl = false) (hland : (u.frame c f).fl.land = []) (hdrained : drained u c f = true)
include hdp hu hland hdrained

omit htraps in
theorem drains_here : (b.dp && !(u.frame c f).priv.lvl && (u.frame c f).fl.land.isEmpty && drained u c f) = true := by
  rw [hdp, hu, hland, hdrained]
  rfl

/-- At a drain point a trap that waited for its register or signal is taken (R78). -/
theorem boundaryTrap_of_due {d : DueTrap} (hdue : (u.frame c f).fl.due = [d]) : boundaryTrap u c f b (.go l) = some d.info := by
  have hone : dueAtBundle u c f b = some d.info := by
    rw [dueAtBundle, if_pos (drains_here hdp hu hland hdrained), hdue, dueHere, hdue, List.find?_singleton]
    split <;> rfl
  rw [boundaryTrap_go l htraps, hone]
  rfl

/-- At a drain point a refused addition is taken (R104). -/
theorem boundaryTrap_of_refusal {a w : Word} (hdue : (u.frame c f).fl.due = []) (haway : (u.frame c f).away = false)
    (href : (u.frame c f).sync.refusal = some (a, w)) :
    ∃ t, boundaryTrap u c f b (.go l) = some t ∧ t.cause = 8 ∧ t.t2 = a ∧ t.t3 = w := by
  have hsem : ∀ info, ∃ t, semTrap u c f info = some t ∧ t.cause = 8 ∧ t.t2 = a ∧ t.t3 = w := fun info => by
    rw [semTrap, refusalOf_resident haway, href]
    exact ⟨_, rfl, rfl, rfl, rfl⟩
  have hceil : ∃ t, ceilAtBundle u c f b = some t ∧ t.cause = 8 ∧ t.t2 = a ∧ t.t3 = w := by
    rw [ceilAtBundle, if_pos (drains_here hdp hu hland hdrained)]
    rcases hname : semNamed u c f (b.slots.filter (slotIssues (u.frame c f) b.lvl)) true with _ | t
    · exact hsem _
    · refine ⟨t, rfl, ?_⟩
      rw [semNamed, refusalOf_resident haway, href] at hname
      obtain ⟨x, -, hx⟩ := Option.bind_eq_some_iff.mp hname
      obtain ⟨t', ht', hcause⟩ := hsem ⟨(u.frame c f).issue.pc, x.raw, x.slot.code, x.guard⟩
      rw [ht'] at hx
      exact Option.some.inj hx ▸ hcause
  obtain ⟨t, ht, hcause⟩ := hceil
  refine ⟨t, ?_, hcause⟩
  rw [boundaryTrap_go l htraps, dueAtBundle_of_none hdue, ht]
  rfl

end
end

end Sys2Proof.Machine
end

section
/-! SUPPORT. Requests of other packages, and refusals that come back (R104, R217, R361 to R363). -/

namespace Sys2Proof.Machine

section
variable {s : State} {q : RemoteReq}

/-! A request of a fabric partition of this package (R363). -/

/-- A read, a write, an atomic or an addition is no request of a span's scheduler. -/
theorem spanArriveRun_access (h : (∃ n, q.kind = .read n) ∨ (∃ b, q.kind = .write b) ∨ (∃ op sz cmp src, q.kind = .atomic op sz cmp src) ∨
    (∃ l i r m n, q.kind = .sems l i r m n) ∨ ∃ l k, q.kind = .refused l k) : spanArriveRun s q = remoteArriveRun s q := by
  rw [spanArriveRun]
  split
  · rfl
  · rcases h with ⟨n, h⟩ | ⟨b, h⟩ | ⟨op, sz, cmp, src, h⟩ | ⟨l, i, r, m, n, h⟩ | ⟨l, k, h⟩ <;> rw [h]

theorem homePa_eq (l : Nat) : homePa s l = s.pkg * 2 ^ 42 + l := by rw [homePa, Nat.shiftLeft_eq]

theorem remoteArriveRun_read {n : Nat} (hk : q.kind = .read n) (hcheck : targetCheck s q.fpid (homePa s q.local_.toNat) false = none) :
    remoteArriveRun s q = answerData s q (homePa s q.local_.toNat) (min n (64 - homePa s q.local_.toNat % 64)) := by
  simp only [remoteArriveRun, hk, hcheck]

theorem remoteArriveRun_write {b : List Byte} (hk : q.kind = .write b) (hcheck : targetCheck s q.fpid (homePa s q.local_.toNat) true = none) :
    remoteArriveRun s q = pushRemote s q (homePa s q.local_.toNat) (b.take (64 - homePa s q.local_.toNat % 64)) := by
  simp only [remoteArriveRun, hk, hcheck]

theorem remoteArriveRun_refused {b : List Byte} {k : Nat} (hk : q.kind = .write b) (hcheck : targetCheck s q.fpid (homePa s q.local_.toNat) true = some k) :
    remoteArriveRun s q = refuseRemote s q (cubeOf (paCube (homePa s q.local_.toNat))) (paLocal (homePa s q.local_.toNat)) k 1 := by
  simp only [remoteArriveRun, hk, hcheck]

/-- An atomic answers with the old value and writes the new one. -/
theorem remoteArriveRun_atomic {op : AtomOp} {sz : BitVec 2} {cmp src : Word} (hk : q.kind = .atomic op sz cmp src)
    (hcheck : targetCheck s q.fpid (homePa s q.local_.toNat) true = none) (hclean : poisoned s (homePa s q.local_.toNat) = false) :
    remoteArriveRun s q = pushRemote (answerData s q (homePa s q.local_.toNat) (1 <<< sz.toNat)) q (homePa s q.local_.toNat)
      (leBytes (1 <<< sz.toNat) (atomValue op sz.toNat (gRead s (homePa s q.local_.toNat) (1 <<< sz.toNat)) cmp.toNat src.toNat)) := by
  simp only [remoteArriveRun, hk, hcheck, hclean, Bool.false_eq_true, if_false]

theorem remoteArriveRun_sems {c : CubeId} {f : FrameId} {launch srank rank : Nat} {sem : BitVec 5} {n : BitVec 16}
    (hk : q.kind = .sems launch srank rank sem n) (hmember : remoteMember s q.fpid launch srank rank = some (.frame c f)) :
    remoteArriveRun s q = semAdd s c f sem n.toNat 4 := by
  simp only [remoteArriveRun, hk, hmember, semAddMember]

/-- An addition below the ceiling. -/
theorem semAdd_of_fits {c : CubeId} {f : FrameId} {sem : BitVec 5} {n : BitVec 16} (src : Nat) (htask : (s.frame c f).task.isSome = true)
    (haway : (s.frame c f).away = false)
    (hfits : (s.frame c f).sync.semc[sem.toFin].toNat + n.toNat ≤ (s.frame c f).sync.semx[sem.toFin].toNat) :
    semAdd s c f sem n.toNat src = s.modFrame c f fun r => { r with sync := { r.sync with
      semc := r.sync.semc.set sem.toFin (r.sync.semc[sem.toFin] + n) } } := by
  have hnone : ¬ (s.frame c f).task.isNone = true := by rw [Option.isNone_eq_false_iff.mpr htask]; decide
  have hsum : ∀ x : BitVec 16, BitVec.ofNat 16 (x.toNat + n.toNat) = x + n := fun x => by
    rw [BitVec.ofNat_add, BitVec.ofNat_toNat, BitVec.ofNat_toNat, BitVec.setWidth_eq, BitVec.setWidth_eq]
  rw [semAdd]
  dsimp only
  rw [if_neg hnone, if_neg (by rw [haway]; decide), semAddFrame]
  dsimp only
  rw [if_neg (Nat.not_lt.mpr hfits), hsum]
  rfl

/-! A request of no fabric partition of this package (R361). -/

theorem spanArriveRun_stranger (hnone : partOfFpid s q.fpid = none)
    (h : (∃ l n w v, q.kind = .spanHold l n w v) ∨ (∃ l i p a b, q.kind = .spanArrive l i p a b) ∨ (∃ k t l, q.kind = .msgGrant k t l) ∨
      ∃ k t l x, q.kind = .msgData k t l x) : spanArriveRun s q = refuseRemote s q 0 0 1 3 := by
  rw [spanArriveRun, hnone]
  have hgate : (none : Option Nat).isNone = true := rfl
  rcases h with ⟨l, n, w, v, h⟩ | ⟨l, i, p, a, b, h⟩ | ⟨k, t, l, h⟩ | ⟨k, t, l, x, h⟩ <;>
    simp only [remoteArriveRun, h, hnone, hgate, if_true]

/-- What a refusal leaves: a log entry and an answer. -/
theorem refuseRemote_keeps (c : CubeId) (l reason kind : Nat) : let t := refuseRemote s q c l reason kind
    t.mem = s.mem ∧ t.merge = s.merge ∧ t.cubes = s.cubes ∧ t.hub.recs = s.hub.recs ∧ t.teasel.logSeq = s.teasel.logSeq + 1 ∧
      t.hub.outbox = s.hub.outbox ++ [⟨s.pkg, c, q.fpid, q.srcPkg, q.local_, q.lane, q.tag, .refused (BitVec.ofNat 42 l) reason⟩] :=
  ⟨rfl, rfl, rfl, rfl, rfl, rfl⟩

/-! A refusal that comes back (R320, R361, R362). -/

theorem dropOp_traps (r : Frame) (id : Nat) : (dropOp r id).fl.traps = r.fl.traps ∧ (dropOp r id).regs = r.regs := by
  have htag : (releaseTag r id).fl.traps = r.fl.traps ∧ (releaseTag r id).regs = r.regs := by
    rw [releaseTag]
    split <;> exact ⟨rfl, rfl⟩
  exact htag

theorem dropOp_gone (r : Frame) (id : Nat) : ∀ e ∈ (dropOp r id).fl.ls ++ (dropOp r id).fl.fly, e.id ≠ id := by
  intro e he
  rcases List.mem_append.mp he with h | h
  · exact of_decide_eq_true (List.mem_filter.mp h).2
  · exact of_decide_eq_true (List.mem_filter.mp h).2

theorem mem_allFrames (c : CubeId) (f : FrameId) : (c, f) ∈ allFrames := by
  revert c f
  decide

/-- A condition that one frame alone meets finds that frame. -/
theorem find_allFrames {p : CubeId × FrameId → Bool} {c : CubeId} {f : FrameId} (hp : p (c, f) = true)
    (hone : ∀ d h, p (d, h) = true → d = c ∧ h = f) : allFrames.find? p = some (c, f) := by
  obtain ⟨⟨d, h⟩, hfind⟩ := Option.isSome_iff_exists.mp (List.find?_isSome.mpr ⟨(c, f), mem_allFrames c f, hp⟩)
  obtain ⟨rfl, rfl⟩ := hone d h (List.find?_some hfind)
  exact hfind

/-- The task is the one whose access the tag names (R361). -/
def sentBy (g : ReqTag) (t : Task) : Bool := t.part = g.part && t.launch = g.launch && t.gang = g.gang && t.rank = g.rank

/-- A refusal reaches the one frame that holds the task. -/
theorem hearRefusal_frame {c : CubeId} {f : FrameId} {g : ReqTag} (l reason : Nat) (htag : q.tag = some g)
    (hmine : (s.frame c f).task.any (sentBy g) = true)
    (hone : ∀ d h, (s.frame d h).task.any (sentBy g) = true → d = c ∧ h = f)
    (hhere : (s.frame c f).away = false ∨ g.lvl = true) : hearRefusal s q l reason =
      (logEvent s 0x32 c.val [w64 g.launch, g.taskid, g.va, w64 (q.srcPkg <<< 42 + l), w64 reason]).modFrame c f fun r => { dropOp r g.op with fl := { (dropOp r g.op).fl with
        traps := (dropOp r g.op).fl.traps ++ [trap11 ⟨g.pc, g.bits, g.slot, 0⟩ g.va (q.srcPkg <<< 42 + l) reason] } } := by
  have hfind : (allFrames.find? fun (c, f) => (s.frame c f).task.any (sentBy g)) = some (c, f) :=
    find_allFrames hmine hone
  have hback : ((s.frame c f).away && !g.lvl) = false := by
    rcases hhere with h | h <;> rw [h]
    · rfl
    · exact Bool.and_false _
  have hrun : ∀ o, allFrames.find? (fun (c, f) => (s.frame c f).task.any (sentBy g)) = some o → hearRefusal s q l reason =
      (logEvent s 0x32 o.1.val [w64 g.launch, g.taskid, g.va, w64 (q.srcPkg <<< 42 + l), w64 reason]).modFrame o.1 o.2 fun r =>
        if r.away && !g.lvl then { r with fl := { r.fl with
          heldTraps := r.fl.heldTraps ++ [trap11 ⟨g.pc, g.bits, g.slot, 0⟩ g.va (q.srcPkg <<< 42 + l) reason] } }
        else { dropOp r g.op with fl := { (dropOp r g.op).fl with
          traps := (dropOp r g.op).fl.traps ++ [trap11 ⟨g.pc, g.bits, g.slot, 0⟩ g.va (q.srcPkg <<< 42 + l) reason] } } := by
    intro o ho
    rw [hearRefusal, htag]
    change (match allFrames.find? (fun (c, f) => (s.frame c f).task.any (sentBy g)) with | some (c, f) => _ | none => _) = _
    rw [ho]
  rw [hrun _ hfind]
  rw [State.modFrame, State.modFrame, logEvent_frame, hback]
  rfl

end

end Sys2Proof.Machine
end

section
open Sys2Proof Sys2Proof.Machine

/-- Settles O40: what is found after issue becomes a due trap, and the first due trap is taken; a request of another package is
performed and answered, or refused and logged. -/
theorem faultsFoundAfterIssue : Obligations.FaultsFoundAfterIssue := by
  unfold Obligations.FaultsFoundAfterIssue
  intro s c f hpow r flies clean
  have hexec : ∀ {u v : State}, u = v → powered s u = .next v := fun huv => (powered_of_power hpow _).trans (congrArg _ huv)
  refine ⟨fun e l k hfl hout hlines hpa hdrain hgpf htr hclean => hexec (queuedFaultRun_ls hfl hout hlines hpa hdrain hgpf htr hclean),
    fun e adr val k hop hfl hwait hva htr hk hclean => hexec (queuedFaultRun_putf hop hfl hwait hva htr hk hclean), ?_, ?_, ?_,
    fun t w => afterTrap_remote, fun t w => afterTrap_translation, fun n g => afterTrap_overdue,
    fun hirq hu hdrain hnone => hexec (asyncRun_of_due hirq hu hdrain hnone), ?_, ?_, ?_⟩
  · intro e l a k hfl hout hlines hpa hst hdrain hgpf htr hfar hcheck
    have hkeep := refuseAccess_far (s := s) (c := c) (f := f) (info := e.info) (va := l.va) (k := k) (kind := e.op.kind) (drop := dropLs e.id) hfar
    obtain ⟨hframe, hmem, hlog⟩ := hkeep
    refine ⟨_, hexec (remoteFault_ls hst hfar hfl hlines hpa hdrain hgpf htr hcheck), ?_, ?_, hmem, hlog⟩
    · rw [hframe, (dropLs_single hfl hout).1]
      rfl
    · rw [hframe, (dropLs_single hfl hout).2]
  · intro e l a k hfl hglob hst htr hfar hcheck
    obtain ⟨hframe, hmem, hlog⟩ := refuseAccess_far (s := s) (c := c) (f := f) (info := e.info) (va := l.va) (k := k) (kind := 0)
      (drop := dropCube e.id) hfar
    refine ⟨_, hexec (remoteFault_cube hst hfar hfl hglob htr hcheck), ?_, ?_, hmem, hlog⟩
    · rw [hframe, dropCube_single hfl]
      rfl
    · rw [hframe]
      rfl
  · intro u v
    have hat : u = atBoundary s c f := rfl
    clear_value u
    refine ⟨?_, ?_, ?_⟩
    · intro t hfirst htrip hon enters
      have htake : ∀ {p : TrapInfo → Bool}, p t = true → takeFirst s c f p = enterTrap (s.modFrame c f fun r => dropDue r t) c f t :=
        fun hp => takeFirst_of_first hfirst htrip hon hp
      refine ⟨fun h => hexec (htake (decide_eq_true h)), fun hmem hcause => hexec (htake ?_), fun d hd hinfo => hexec (htake ?_),
        fun hcause => hexec (htake (decide_eq_true hcause)), fun h => hexec (htake (decide_eq_true h))⟩
      · refine Bool.or_eq_true_iff.mpr (Or.inl (List.any_eq_true.mpr ⟨t, hmem, ?_⟩))
        simpa using hcause
      · exact Bool.or_eq_true_iff.mpr (Or.inr (List.any_eq_true.mpr ⟨d, hd, decide_eq_true hinfo⟩))
    · exact boundaryFirst_of_halted hat
    · intro x b hrun hfetch hb
      obtain ⟨htrap, hgo⟩ := boundaryFirst_of_bundle hat hrun hfetch hb
      refine ⟨htrap, fun l hl htraps => ⟨fun hpre hdue haway href => ?_, fun hdp hu hland hdrained => ⟨fun d hdue => ?_, fun a w hdue haway href => ?_⟩⟩⟩
      · exact (hgo l hl).trans (boundaryTrap_of_none l htraps hpre hdue haway href)
      · exact (hgo l hl).trans (boundaryTrap_of_due l htraps hdp hu hland hdrained hdue)
      · obtain ⟨t, ht, hcause⟩ := boundaryTrap_of_refusal l htraps hdp hu hland hdrained hdue haway href
        exact ⟨t, (hgo l hl).trans ht, hcause⟩
  · intro q hpart a reply word
    have ha : a = homePa s q.local_.toNat := (homePa_eq _).symm
    have harrive : ∀ {u : State}, _ → remoteArriveRun s q = u → exec (.remoteRequestArrive q) s = .next u :=
      fun hk hu => hexec ((spanArriveRun_access hk).trans hu)
    refine ⟨fun n hk hcheck => harrive (.inl ⟨n, hk⟩) ?_, fun b hk hcheck => harrive (.inr (.inl ⟨b, hk⟩)) ?_, fun op sz cmp src hk hcheck hclean => ?_,
      fun b k hk hcheck => ?_, fun launch srank rank sem n hk hmember htask haway hfits => ?_⟩
    · rw [ha] at hcheck
      rw [remoteArriveRun_read hk hcheck, ← ha]
      rfl
    · rw [ha] at hcheck
      rw [remoteArriveRun_write hk hcheck, ← ha]
      rfl
    · rw [ha] at hcheck hclean
      refine harrive (.inr (.inr (.inl ⟨op, sz, cmp, src, hk⟩))) ?_
      rw [remoteArriveRun_atomic hk hcheck hclean, answerData, hclean, shiftLeft_one, ← ha]
      rfl
    · rw [ha] at hcheck
      refine ⟨_, harrive (.inr (.inl ⟨b, hk⟩)) (remoteArriveRun_refused hk hcheck), ?_⟩
      obtain ⟨hmem, hmerge, hcubes, -, hlog, hout⟩ := refuseRemote_keeps (s := s) (q := q) (cubeOf (paCube a)) (paLocal a) k 1
      rw [← ha]
      exact ⟨hmem, hmerge, hcubes, hlog, hout⟩
    · exact harrive (.inr (.inr (.inr (.inl ⟨launch, srank, rank, sem, n, hk⟩))))
        ((remoteArriveRun_sems hk hmember).trans (semAdd_of_fits 4 htask haway hfits))
  · intro q hnone hkind
    obtain ⟨hmem, hmerge, hcubes, hrecs, hlog, hout⟩ := refuseRemote_keeps (s := s) (q := q) 0 0 1 3
    exact ⟨_, hexec (spanArriveRun_stranger hnone hkind), hmem, hmerge, hcubes, hrecs, hlog, hout⟩
  · intro q g l k hk htag mine hmine hone hhere
    have hrun : spanArriveRun s q = hearRefusal s q l.toNat k := by
      rw [spanArriveRun_access (.inr (.inr (.inr (.inr ⟨l, k, hk⟩)))), remoteArriveRun, hk]
    have hheard := hrun.trans (hearRefusal_frame l.toNat k htag hmine hone hhere)
    refine ⟨_, hexec hheard, ?_⟩
    rw [State.frame_modFrame_same, logEvent_frame, (dropOp_traps _ _).1, trap11, Nat.shiftLeft_eq, Nat.shiftLeft_eq]
    exact ⟨rfl, dropOp_gone _ _, (dropOp_traps _ _).2, rfl, rfl⟩
end

section
/-! SUPPORT. What the core judges of a bundle that meets R138's conditions (R113, R119, R138, R219, R321). -/

namespace Sys2Proof.Machine

/-! A lawful bundle (R138). -/

section
variable {s : State} {x : BundleIn} {effs : List (SlotIns × SlotEff)} (h : s.lawful x effs)
include h

/-- The slots of a bundle that issue. -/
theorem lawful_issues : x.slots.filter (slotIssues s.cf x.lvl) = effs.map Prod.fst := h.2.2.2.2.1.symm

theorem lawful_mem {z : SlotIns} (hz : z ∈ x.slots.filter (slotIssues s.cf x.lvl)) : ∃ e, (z, e) ∈ effs := by
  rw [lawful_issues h] at hz
  obtain ⟨⟨y, e⟩, hp, rfl⟩ := List.mem_map.mp hz
  exact ⟨e, hp⟩

theorem lawful_span {z : SlotIns} (hz : z ∈ x.slots.filter (slotIssues s.cf x.lvl)) {k : BarKind} {bid : BitVec 4}
    (hbar : barOf z.ins = some (k, bid)) (hspan : k = .span) : taskSsize s.cf ≠ 0 := (h.2.2.2.2.2.2.1 z hz).2.2.2 k bid hbar hspan

end

/-- Slots that write different registers write none twice. -/
theorem doubleWrite_of_disjoint {r : Frame} {l : List SlotIns}
    (h : ∀ x ∈ l, ∀ y ∈ l, x.slot.code < y.slot.code → ∀ d ∈ destsOf r x.ins, d ∉ destsOf r y.ins) : doubleWrite r l = none := by
  rw [doubleWrite, List.findSome?_eq_none_iff]
  intro x hx
  rw [List.findSome?_eq_none_iff]
  intro y hy
  by_cases hlt : x.slot.code < y.slot.code
  · rw [if_pos hlt, Option.map_eq_none_iff, List.find?_eq_none]
    intro d hd hc
    exact h x hx y hy hlt d hd (List.contains_iff_mem.mp hc)
  · exact if_neg hlt

/-- With no level named twice the double write is the only cause left (R138). -/
theorem staticTrap_of_levels {r : Frame} {b : BundleIn} (hbad : b.bad = false)
    (hlvl : b.lvl.toNat < 6 ∨ ∀ w ∈ b.slots, w.first = false ∧ w.last = false) (hlevels : (b.slots.filterMap fun w => levelOf w.ins).Nodup) :
    staticTrap r b = staticTrap.dw r b r.issue.pc := by
  have hhead : ¬ (b.bad = true ∨ (6 ≤ b.lvl.toNat ∧ b.slots.any (fun x => x.first || x.last) = true)) := by
    rintro (hb | ⟨h6, hany⟩)
    · exact absurd (hbad.symm.trans hb) (by decide)
    · obtain ⟨w, hw, hfl⟩ := List.any_eq_true.mp hany
      rcases hlvl with hlt | hnone
      · omega
      · obtain ⟨hf, hl⟩ := hnone w hw
        rw [hf, hl] at hfl
        exact absurd hfl (by decide)
  have hnames : b.slots.filterMap (fun w => levelOf w.ins) =
      (b.slots.filterMap fun x => (levelOf x.ins).map fun l => (x, l)).map Prod.snd := by
    rw [List.map_filterMap]
    congr 1
    funext w
    cases levelOf w.ins <;> rfl
  rw [staticTrap, if_neg hhead]
  dsimp only
  split
  next y l z m hnamed =>
    refine if_neg fun hlm => ?_
    rw [hnames, hnamed] at hlevels
    exact absurd hlm (by simpa using hlevels)
  next => rfl

section
variable {s : State} {x : BundleIn} {effs : List (SlotIns × SlotEff)} (h : s.lawful x effs)
include h

theorem lawful_static : staticTrap s.cf x = none := by
  obtain ⟨hbad, hlvl, hlevels, hdests, -⟩ := h
  rw [staticTrap_of_levels hbad hlvl hlevels, staticTrap.dw, doubleWrite_of_disjoint hdests]

theorem lawful_waveBar : waveBar s.cf x = none := by
  rw [waveBar, List.find?_eq_none]
  intro z hz hcond
  rw [Bool.and_eq_true, Bool.and_eq_true] at hcond
  obtain ⟨⟨hbar, -⟩, hiss⟩ := hcond
  rcases hk : barOf z.ins with _ | ⟨k, bid⟩
  · rw [hk, Option.any_none] at hbar
    exact Bool.false_ne_true hbar
  · rw [hk, Option.any_some, Bool.and_eq_true] at hbar
    exact lawful_span h (List.mem_filter.mpr ⟨hz, hiss⟩) hk (of_decide_eq_true hbar.1) (of_decide_eq_true hbar.2)

theorem lawful_mismatched {z : SlotIns} (hz : z ∈ x.slots.filter (slotIssues s.cf x.lvl)) :
    mismatched x (x.slots.filter (slotIssues s.cf x.lvl)) z = false := by
  obtain ⟨-, -, -, -, -, -, hslots, -⟩ := h
  obtain ⟨hsys, hrfe, -⟩ := hslots z hz
  rw [mismatched, Bool.or_eq_false_iff, Bool.and_eq_false_iff, Bool.and_eq_false_iff]
  refine ⟨?_, ?_⟩
  · rcases hb : isSys z.ins with _ | _
    · exact Or.inl rfl
    · refine Or.inr (List.any_eq_false.mpr fun y hy => ?_)
      rw [hsys hb y hy]
      decide
  · rcases hb : isRfe z.ins with _ | _
    · exact Or.inl rfl
    · refine Or.inr (List.any_eq_false.mpr fun y hy => ?_)
      rcases hrfe hb y hy with hslot | hnop
      · simp [hslot]
      · simp [hnop]

omit h in
/-- Slots that all have an effect have these effects. -/
theorem slotEffects_of_ok {c : CubeId} {f : FrameId} {iss : List SlotIns} {m : Meaning} (hiss : iss = effs.map Prod.fst)
    (hmeant : ∀ p ∈ effs, (if mismatched x iss p.1 then .error (ctxOf s c f x p.1).illegal else m p.1.ins (ctxOf s c f x p.1) s) = Except.ok p.2) :
    slotEffects s c f x iss m = .ok effs := by
  have hres : (iss.map fun y => (y, if mismatched x iss y then .error (ctxOf s c f x y).illegal else m y.ins (ctxOf s c f x y) s)) =
      effs.map fun p => (p.1, (Except.ok p.2 : SlotRes)) := by
    conv_lhs => rw [hiss]
    rw [List.map_map]
    exact List.map_congr_left fun p hp => congrArg (Prod.mk p.1) (hiss ▸ hmeant p hp)
  rw [slotEffects]
  dsimp only
  rw [hres]
  simp [List.filterMap_map]

/-- The checks of a lawful bundle find no fault. -/
theorem lawful_checks : bundleChecks s s.cur s.curF x (x.slots.filter (slotIssues s.cf x.lvl)) slotMeaning = .ok effs := by
  have hfull : overfull s.cf (x.slots.filter (slotIssues s.cf x.lvl)) = false := h.2.2.2.2.2.2.2
  have hmeant : ∀ p ∈ effs, (if mismatched x (x.slots.filter (slotIssues s.cf x.lvl)) p.1 then
      .error (ctxOf s s.cur s.curF x p.1).illegal else slotMeaning p.1.ins (ctxOf s s.cur s.curF x p.1) s) = Except.ok p.2 := fun p hp => by
    have hmem : p.1 ∈ x.slots.filter (slotIssues s.cf x.lvl) := by
      rw [lawful_issues h]
      exact List.mem_map_of_mem hp
    rw [if_neg (by rw [lawful_mismatched h hmem]; decide)]
    exact h.2.2.2.2.2.1 p hp
  have heffs : slotEffects s s.cur s.curF x (x.slots.filter (slotIssues s.cf x.lvl)) slotMeaning = .ok effs :=
    slotEffects_of_ok (lawful_issues h) hmeant
  rw [bundleChecks, heffs]
  exact if_neg (by rw [show s.frame s.cur s.curF = s.cf from rfl, hfull]; decide)

theorem lawful_semw {z : SlotIns} (hz : z ∈ x.slots.filter (slotIssues s.cf x.lvl)) {sem : BitVec 5} {n : BitVec 16}
    (hsem : semwOf z.ins = some (sem, n)) : n.toNat ≤ (semRead s s.cur s.curF sem).2 := by
  obtain ⟨-, -, -, -, -, -, hslots, -⟩ := h
  exact ((hslots z hz).2.2.1 sem n hsem).2

end

end Sys2Proof.Machine
end

section
/-! SUPPORT. What R138 judges once no interlock holds the bundle, and at a quiet core (R103, R122, R138, R218). -/

namespace Sys2Proof.Machine

/-- What the `semw` of a bundle waits for, or its breach of the ceiling (R218). -/
def semAsk (s : State) (c : CubeId) (f : FrameId) (b : BundleIn) (iss : List SlotIns) : Option (Except TrapInfo Bool) :=
  iss.findSome? fun x => (semwOf x.ins).map fun w => semwHold s (ctxOf s c f b x) w.1 w.2.toNat

/-- What is judged of a bundle once its encoding has passed and no interlock holds it (R138). -/
def judgeFree (s : State) (c : CubeId) (f : FrameId) (b : BundleIn) (iss : List SlotIns) (m : Meaning) : Verdict :=
  match semAsk s c f b iss, holdOf s c f b iss with
  | some (.error t), _ => .trap t
  | _, some w => .stall w
  | some (.ok true), none => .stall true
  | _, none => judgeClear s c f b iss m

section
variable {s : State} {c : CubeId} {f : FrameId} {b : BundleIn} {m : Meaning}

theorem judge_of_static {t : TrapInfo} (h : staticTrap (s.frame c f) b = some t) : judge s c f b m = .trap t := by rw [judge, h]

section
variable (hstatic : staticTrap (s.frame c f) b = none) (hwave : waveBar (s.frame c f) b = none)
include hstatic hwave

/-- The interlocks come between the encoding and the rest (R122, R124, R138). -/
theorem judge_eq : judge s c f b m =
    let guards := b.slots.filterMap fun x => if x.guard = 0 then none else some (rP x.guard)
    let iss := b.slots.filter (slotIssues (s.frame c f) b.lvl)
    if busyVar (s.frame c f) guards then .stall false
    else if busyArmed (s.frame c f) guards then .bubble
    else if busyVar (s.frame c f) (usedRegs (s.frame c f) b.slots iss) then .stall false
    else if busyArmed (s.frame c f) (usedRegs (s.frame c f) b.slots iss) then .bubble
    else judgeFree s c f b iss m := by
  rw [judge, hstatic]
  dsimp only
  rw [hwave]
  rfl

theorem judge_of_free (hvar : (s.frame c f).fl.var = []) (hland : (s.frame c f).fl.land = []) :
    judge s c f b m = judgeFree s c f b (b.slots.filter (slotIssues (s.frame c f) b.lvl)) m := by
  have hv : ∀ l, ¬ busyVar (s.frame c f) l = true := fun l => by simp [busyVar, pendingVar, hvar]
  have ha : ∀ l, ¬ busyArmed (s.frame c f) l = true := fun l => by simp [busyArmed, hland]
  rw [judge_eq hstatic hwave]
  dsimp only
  rw [if_neg (hv _), if_neg (ha _), if_neg (hv _), if_neg (ha _)]

/-- A bundle that uses an armed register issues a bubble (R124). -/
theorem judge_of_armed (hvar : (s.frame c f).fl.var = []) {w : Landing} (hw : w ∈ (s.frame c f).fl.land) (harm : w.arm = true)
    (hused : (w.file, w.reg) ∈ usedRegs (s.frame c f) b.slots (b.slots.filter (slotIssues (s.frame c f) b.lvl))) :
    judge s c f b m = .bubble := by
  have hv : ∀ l, ¬ busyVar (s.frame c f) l = true := fun l => by simp [busyVar, pendingVar, hvar]
  have ha : busyArmed (s.frame c f) (usedRegs (s.frame c f) b.slots (b.slots.filter (slotIssues (s.frame c f) b.lvl))) = true :=
    List.any_eq_true.mpr ⟨_, hused, List.any_eq_true.mpr ⟨w, hw, by simp [harm]⟩⟩
  rw [judge_eq hstatic hwave]
  dsimp only
  rw [if_neg (hv _), if_neg (hv _), if_pos ha, ite_self]

end

variable {iss : List SlotIns}

/-- Where no stall stands, the slots' checks decide. -/
theorem judgeFree_of_clear (hsem : semAsk s c f b iss = none ∨ semAsk s c f b iss = some (.ok false)) (hhold : holdOf s c f b iss = none) :
    judgeFree s c f b iss m = judgeClear s c f b iss m := by
  rw [judgeFree, hhold]
  rcases hsem with h | h <;> rw [h]

theorem judgeFree_of_hold {w : Bool} (hsem : semAsk s c f b iss = none) (hhold : holdOf s c f b iss = some w) :
    judgeFree s c f b iss m = .stall w := by rw [judgeFree, hhold, hsem]

/-- With no `bar` of its own and no copy held, the bundle commits its slots' effects. -/
theorem judgeClear_of_checks {effs : List (SlotIns × SlotEff)} (hbar : ∀ z ∈ iss, barOf z.ins = none)
    (hbarred : (s.frame c f).issue.barred = false) (hchecks : bundleChecks s c f b iss m = .ok effs)
    (hcopy : ∀ z ∈ iss, ∀ a, copyOf z.ins = some a → copyHeld s (ctxOf s c f b z) a = false) : judgeClear s c f b iss m = .go effs := by
  have hask : (iss.findSome? fun x => (barOf x.ins).map fun y => (y.1, y.2, (ctxOf s c f b x).info)) = none :=
    List.findSome?_eq_none_iff.mpr fun z hz => by rw [hbar z hz]; rfl
  have hfree : ¬ (iss.any fun x => (copyOf x.ins).any (copyHeld s (ctxOf s c f b x))) = true := by
    rw [List.any_eq_true]
    rintro ⟨z, hz, h⟩
    rcases hk : copyOf z.ins with _ | a
    · rw [hk, Option.any_none] at h
      exact Bool.false_ne_true h
    · rw [hk, Option.any_some, hcopy z hz a hk] at h
      exact Bool.false_ne_true h
  rw [judgeClear, hask]
  dsimp only [Option.map_none]
  rw [if_neg (by rw [hbarred]; decide), hchecks]
  exact if_neg hfree

end

section
variable {s : State} {x : BundleIn} {effs : List (SlotIns × SlotEff)} (h : s.lawful x effs)
include h

/-- A lawful bundle that waits for a `semw` breaks no ceiling. -/
theorem semAsk_of_lawful (t : TrapInfo) : semAsk s s.cur s.curF x (x.slots.filter (slotIssues s.cf x.lvl)) ≠ some (.error t) := by
  intro hsem
  obtain ⟨z, hz, hw⟩ := List.exists_of_findSome?_eq_some hsem
  obtain ⟨⟨k, n⟩, hk, hhold⟩ := Option.map_eq_some_iff.mp hw
  have hle := lawful_semw h hz hk
  rw [semwHold] at hhold
  dsimp only at hhold
  split at hhold
  · exact nomatch hhold
  · rw [show (semRead s (ctxOf s s.cur s.curF x z).c (ctxOf s s.cur s.curF x z).f k) = semRead s s.cur s.curF k from rfl] at hhold
    rcases hsr : semRead s s.cur s.curF k with ⟨count, ceil⟩
    rw [hsr] at hhold hle
    dsimp only at hhold hle
    rw [if_neg (Nat.not_lt.mpr hle)] at hhold
    exact nomatch hhold

theorem judgeClear_of_lawful (t : TrapInfo) :
    judgeClear s s.cur s.curF x (x.slots.filter (slotIssues s.cf x.lvl)) slotMeaning ≠ .trap t := by
  rw [judgeClear, lawful_checks h]
  dsimp only
  repeat' split
  all_goals exact nofun

/-- No cause of its own keeps a lawful bundle from issuing. -/
theorem judge_of_lawful (t : TrapInfo) : judge s s.cur s.curF x slotMeaning ≠ .trap t := by
  rw [judge_eq (lawful_static h) (lawful_waveBar h)]
  dsimp only
  repeat' split
  · exact nofun
  · exact nofun
  · exact nofun
  · exact nofun
  · change judgeFree s s.cur s.curF x (x.slots.filter (slotIssues s.cf x.lvl)) slotMeaning ≠ .trap t
    rw [judgeFree]
    split
    next u hsem => exact absurd hsem (semAsk_of_lawful h u)
    next => exact nofun
    next => exact nofun
    next => exact judgeClear_of_lawful h t

end

end Sys2Proof.Machine
end

section
/-! SUPPORT. One attempt to issue a bundle at a quiet core, and its bubbles (R28, R29, R118, R124, R138). -/

namespace Sys2Proof.Machine

/-! A quiet core. -/

theorem State.quiet_parts {s : State} (h : s.quiet = true) :
    s.teasel.power = true ∧ mayIssue s s.cur s.curF = true ∧ refusalOf s s.cur s.curF = none ∧ s.cf.quiet = true := by
  simpa only [State.quiet, Bool.and_eq_true, Option.isNone_iff_eq_none, and_assoc] using h

section
variable {s : State} {c : CubeId} {f : FrameId} (hq : (s.frame c f).quiet = true)
include hq

theorem drained_quiet : drained s c f = true := by
  have hresume : (s.frame c f).fl.resume = none := by rw [quiet_fl hq]; rfl
  simp [drained, quiet_var hq, quiet_out hq, quiet_ls hq, quiet_fly hq, quiet_cubeQ hq, quiet_cubeA hq, quiet_copyQ hq, quiet_copyA hq,
    quiet_syncQ hq, quiet_msgs hq, hresume]

theorem handlerQuiet_quiet : handlerQuiet s c f = true := by
  simp [handlerQuiet, quiet_var hq, quiet_ls hq, quiet_fly hq, quiet_cubeQ hq, quiet_cubeA hq, quiet_copyQ hq, quiet_copyA hq,
    quiet_syncQ hq, quiet_msgs hq]

/-- No queue is full. -/
theorem holdOf_quiet_wait {b : BundleIn} {iss : List SlotIns} (hwait : (s.frame c f).sync.df &&& b.wait ≠ b.wait) :
    holdOf s c f b iss = some true := by
  have hfull : ¬ (iss.any fun x => entersFull (s.frame c f) x.ins) = true := by simp [entersFull_quiet hq]
  rw [holdOf]
  rw [if_neg hfull, if_pos hwait]

/-- Nothing holds a bundle whose signals are done and whose stores wait for no load. -/
theorem holdOf_quiet_none {b : BundleIn} {iss : List SlotIns} (hwait : (s.frame c f).sync.df &&& b.wait = b.wait)
    (hstore : ∀ z ∈ iss, ∀ t, storeWait (s.frame c f) ((s.frame c f).taint.pred z.guard) z.ins = some t → t &&& 0x7FFFFFFF = 0) :
    holdOf s c f b iss = none := by
  have hfull : ¬ (iss.any fun x => entersFull (s.frame c f) x.ins) = true := by simp [entersFull_quiet hq]
  have hstores : ¬ (iss.any fun x => (storeWait (s.frame c f) ((s.frame c f).taint.pred x.guard) x.ins).any fun w =>
      !waitOver (s.frame c f) (16 * (s.frame c f).issue.nid + 15) w) = true := by
    rw [List.any_eq_true]
    rintro ⟨z, hz, hany⟩
    rcases hw : storeWait (s.frame c f) ((s.frame c f).taint.pred z.guard) z.ins with _ | t
    · rw [hw, Option.any_none] at hany
      exact Bool.false_ne_true hany
    · have hover : waitOver (s.frame c f) (16 * (s.frame c f).issue.nid + 15) t = true := by
        rw [waitOver, quiet_out hq, hstore z hz t hw]
        simp
      rw [hw, Option.any_some, hover] at hany
      exact Bool.false_ne_true hany
  rw [holdOf]
  rw [if_neg hfull, if_neg (not_not_intro hwait), if_neg hstores, if_neg (by rw [drained_quiet hq]; simp), if_neg (by rw [handlerQuiet_quiet hq]; simp)]

variable (hr : refusalOf s c f = none) {b : BundleIn} {m : Meaning} {rdy : Readiness}

omit hq in
theorem attempt_of_trap {t : TrapInfo} (hj : judge s c f b m = .trap t) : attempt s c f b m rdy = enterTrap s c f t := by
  rw [attempt, hj]

include hr

/-- A bundle that stalls on its WAIT is counted as stalling (R28). -/
theorem attempt_of_wait (hj : judge s c f b m = .stall true) (hdp : b.dp = false) :
    attempt s c f b m rdy = s.modCube c fun q => { q with stallSince := q.stallSince <|> some s.now } := by
  rw [attempt, hj]
  dsimp only
  rw [boundaryTrap_quiet hq hr, hdp, Bool.false_and, Bool.false_and]
  dsimp only
  rw [if_neg Bool.false_ne_true]
  dsimp only
  rw [if_neg (by rw [forcedDue_quiet hq]; decide)]
  rfl

/-- A bundle that is clear to go commits, where nothing is taken at its drain point and no debugger stops it. -/
theorem attempt_of_go {effs : List (SlotIns × SlotEff)} (hj : judge s c f b m = .go effs) (hdrain : b.dp = true → atDrain s c f b rdy = none)
    (hdbg : dbgStop s c f effs = none) : attempt s c f b m rdy = commit s c f b effs := by
  have hstay : (if b.dp && (s.frame c f).fl.land.isEmpty && drained s c f then atDrain s c f b rdy else none) = none := by
    split
    next hcond =>
      rw [Bool.and_eq_true, Bool.and_eq_true] at hcond
      exact hdrain hcond.1.1
    next => rfl
  rw [attempt, hj]
  dsimp only
  rw [boundaryTrap_quiet hq hr]
  dsimp only
  rw [hstay]
  dsimp only
  rw [if_neg (by rw [forcedDue_quiet hq]; decide), hdbg]
  exact countSlice_quiet hq ..

end

/-- A bundle as the core judges it (R113). -/
def headed (s : State) (lit : Bool) (b : Bundle) (l : List SlotIns) : BundleIn :=
  ⟨b.dp, b.waitMask, b.lvl, decide (b.hdr.extractLsb' 12 4 ≠ 0), l, nextOf s s.cur s.curF lit⟩

section
variable {s : State} {lit : Bool} {b : Bundle} {l : List SlotIns}

theorem bundleIn_of_decode (hdec : decodeSlots b = .ok l) (pc next : Word) :
    bundleIn pc b next = .ok ⟨b.dp, b.waitMask, b.lvl, decide (b.hdr.extractLsb' 12 4 ≠ 0), l, next⟩ := by
  rw [bundleIn, hdec]
  rfl

/-- At a quiet core a bundle is attempted as it stands. -/
theorem bundleIssue_of_quiet (hq : s.quiet = true) (hdec : decodeSlots b = .ok l) : exec (.bundleIssue lit b) s =
    .next (attempt s s.cur s.curF (headed s lit b l) slotMeaning (ready slotMeaning)) := by
  obtain ⟨hpow, hmay, -, hquiet⟩ := State.quiet_parts hq
  have hland : landDue s s.cur s.curF = s := landDue_quiet hquiet
  have htry : tryBundle s s.cur s.curF b (nextOf s s.cur s.curF lit) =
      attempt s s.cur s.curF (headed s lit b l) slotMeaning (ready slotMeaning) := by
    rw [tryBundle, hland]
    rw [bundleIn_of_decode hdec]
    rfl
  refine (powered_of_power hpow _).trans ?_
  rw [if_pos hmay, htry]

end

/-! A bubble (R124). -/

section
variable {s : State} {c : CubeId} {f : FrameId}

theorem bubbleRun_of_judge {y : Fetched} {b : BundleIn} (hmay : mayIssue s c f = true) (hland : landDue s c f = s)
    (hfetch : fetchAt s c f = .ok y) (hb : bundleIn (s.frame c f).issue.pc y.b y.next = .ok b) (hj : judge s c f b slotMeaning = .bubble) :
    bubbleRun s c f = bubbleAt s c f := by
  rw [bubbleRun, if_pos hmay]
  dsimp only
  rw [hland, hfetch]
  dsimp only
  rw [hb]
  dsimp only
  rw [hj]

/-- A bubble counts, and nothing else of the task moves. -/
theorem bubbleAt_keeps : let t := bubbleAt s c f
    (t.frame c f).issue.pc = (s.frame c f).issue.pc ∧ (t.frame c f).issue.nb = (s.frame c f).issue.nb + 1 ∧ (t.frame c f).regs = (s.frame c f).regs ∧
      (t.frame c f).taint = (s.frame c f).taint ∧ (t.frame c f).fl = (s.frame c f).fl ∧ t.mem = s.mem := by
  intro t
  dsimp only [t, bubbleAt]
  rw [State.frame_modFrame_same]
  exact ⟨rfl, rfl, rfl, rfl, rfl, rfl⟩

end

end Sys2Proof.Machine
end

section
/-! SUPPORT. What a bundle's commit leaves (R93, R94, R102, R109, R120, R124). -/

namespace Sys2Proof.Machine

/-! The joined effects (R5, R93, R102, R109). -/

/-- `CTAINT` after a bundle: what replaces or clears it, the guards, what the slots join (R93, R94, R97). -/
def joinedCt (r : Frame) (l : List (SlotIns × SlotEff)) (guards : Taint) : Taint :=
  l.foldl (fun u x => u ||| x.2.ctAdd)
    ((match l.findSome? (·.2.ctSet) with | some t => t | none => if l.any (·.2.ctClr) then 0 else r.taint.ct) ||| guards)

/-- The link that a slot puts in flight (R143). -/
def linkInto (b : BundleIn) (ct : Taint) (r : Frame) (x : SlotIns × SlotEff) : Frame :=
  match x.2.link with
  | some g => r.addLanding (mkLanding r 2 g.toNat 1 (b.next.setWidth 2048) ct)
  | none => r

/-- The issue state after a bundle (R5, R109). -/
def issueAfter (r : Frame) (b : BundleIn) (l : List (SlotIns × SlotEff)) (ignored : Bool) : Issue :=
  let target := l.findSome? (·.2.taken)
  let up := fun (n : Nat) => if r.priv.lvl then n else n + 1
  { r.issue with
    pc := target.getD b.next
    from_ := if target.isSome then r.issue.pc else 0
    seq := target.isNone
    nb := r.issue.nb + 1
    nid := r.issue.nid + 1
    halted := r.issue.halted || (l.any (·.2.halts) && !r.priv.lvl)
    yielded := if r.priv.lvl then r.issue.yielded else none
    barred := false
    lflags := 0
    dbgCode := none
    dbg := stepDown r.issue.dbg
    preempt := r.issue.preempt.map fun (n, g) => (up n, if ignored then up g else g) }

section
variable (r : Frame) (b : BundleIn) (l : List (SlotIns × SlotEff)) (brcol : Bool) (guards : Taint) (ignored : Bool)

/-- Links only fly. -/
theorem foldl_linkInto (ct : Taint) : ∀ (l : List (SlotIns × SlotEff)) (r : Frame), ∃ x, l.foldl (linkInto b ct) r = { r with fl := x }
  | [], r => ⟨r.fl, rfl⟩
  | y :: l, r => by
    obtain ⟨w, hw⟩ : ∃ w, linkInto b ct r y = { r with fl := w } := by
      rw [linkInto]
      split
      · exact ⟨_, rfl⟩
      · exact ⟨r.fl, rfl⟩
    obtain ⟨x, hx⟩ := foldl_linkInto ct l (linkInto b ct r y)
    rw [hw] at hx
    exact ⟨x, by rw [List.foldl_cons, hw, hx]⟩

theorem finish_sealed : finish r b l brcol guards ignored =
    let w := l.foldl (linkInto b (joinedCt r l guards)) { r with
      taint := { r.taint with ct := joinedCt r l guards }, ctl := r.ctl.orBrcol brcol, sync := { r.sync with df := r.sync.df &&& ~~~b.wait } }
    let w := if (l.findSome? (·.2.taken)).isSome then armAll w else w
    { w with issue := issueAfter w b l ignored } := rfl

theorem finish_eq : ∃ x, finish r b l brcol guards ignored = { r with
    fl := x, taint := { r.taint with ct := joinedCt r l guards }, ctl := r.ctl.orBrcol brcol
    sync := { r.sync with df := r.sync.df &&& ~~~b.wait }, issue := issueAfter r b l ignored } := by
  obtain ⟨y, hy⟩ := foldl_linkInto b (joinedCt r l guards) l
    { r with taint := { r.taint with ct := joinedCt r l guards }, ctl := r.ctl.orBrcol brcol, sync := { r.sync with df := r.sync.df &&& ~~~b.wait } }
  rw [finish_sealed, hy]
  dsimp only
  split
  · exact ⟨_, rfl⟩
  · exact ⟨_, rfl⟩

end

/-- What is joined to a union stays in it. -/
theorem foldl_or_absorb {α : Type} (g : α → Taint) (t : Taint) : ∀ (l : List α) (u : Taint), t ||| u = u → t ||| l.foldl (fun u x => u ||| g x) u = l.foldl (fun u x => u ||| g x) u
  | [], _, h => h
  | x :: l, u, h => foldl_or_absorb g t l (u ||| g x) (by rw [← BitVec.or_assoc, h])

theorem foldl_or_mem {α : Type} (g : α → Taint) {z : α} : ∀ (l : List α) (u : Taint), z ∈ l → g z ||| l.foldl (fun u x => u ||| g x) u = l.foldl (fun u x => u ||| g x) u
  | x :: l, u, h => by
    rcases List.mem_cons.mp h with rfl | h
    · exact foldl_or_absorb g _ l _ (by dsimp only; rw [BitVec.or_comm u, ← BitVec.or_assoc, BitVec.or_self])
    · exact foldl_or_mem g l _ h

/-- Every guard of the bundle is in `CTAINT` (R93). -/
theorem joinedCt_guard (r : Frame) (l : List (SlotIns × SlotEff)) {r0 : Frame} {slots : List SlotIns} {z : SlotIns} (hz : z ∈ slots) :
    let ct := joinedCt r l (slots.foldl (fun u x => u ||| r0.taint.pred x.guard) 0)
    ct ||| r0.taint.pred z.guard = ct := by
  intro ct
  rw [BitVec.or_comm]
  refine foldl_or_absorb _ _ l _ ?_
  rw [BitVec.or_comm, BitVec.or_assoc, BitVec.or_comm _ (r0.taint.pred z.guard), foldl_or_mem (fun x : SlotIns => r0.taint.pred x.guard) slots 0 hz]

/-! Control slots (R120). -/

/-- The first value found is that of the first element that has one. -/
theorem findSome?_of_filter {α β : Type} {g : α → Option β} {p : α} {rest : List α} : ∀ {l : List α}, l.filter (fun y => (g y).isSome) = p :: rest → l.findSome? g = g p
  | [], h => nomatch h
  | y :: l, h => by
    rcases hy : g y with _ | v
    · rw [List.filter_cons_of_neg (by rw [hy]; exact Bool.false_ne_true)] at h
      rw [List.findSome?_cons, hy]
      exact findSome?_of_filter h
    · rw [List.filter_cons_of_pos (by rw [hy]; rfl)] at h
      rw [List.findSome?_cons, hy, ← (List.cons.inj h).1, hy]

section
variable {effs : List (SlotIns × SlotEff)}

theorem resolve_sub {p : SlotIns × SlotEff} (h : p ∈ (resolve effs).1) : p ∈ effs := by
  rw [resolve] at h
  split at h
  · exact (List.mem_filter.mp h).1
  · split at h
    · exact (List.mem_filter.mp h).1
    · exact h

theorem resolve_halts (h : ∃ p ∈ effs, p.2.halts = true) : resolve effs = (effs.filter fun x => x.2.taken.isNone, false) :=
  if_pos (List.any_eq_true.mpr h)

section
variable (hhalts : ∀ p ∈ effs, p.2.halts = false)
include hhalts

theorem resolve_one_taken {p : SlotIns × SlotEff} (h : effs.filter (fun x => x.2.taken.isSome) = [p]) : resolve effs = (effs, false) := by
  rw [resolve]
  rw [if_neg (by rw [List.any_eq_true]; rintro ⟨q, hq, hb⟩; exact Bool.false_ne_true ((hhalts q hq).symm.trans hb)), if_neg (by rw [h]; simp)]

theorem resolve_two_taken {p q : SlotIns × SlotEff} (h : effs.filter (fun x => x.2.taken.isSome) = [p, q]) :
    resolve effs = (effs.filter fun x => !(x.1.slot = .brb), true) := by
  rw [resolve]
  rw [if_neg (by rw [List.any_eq_true]; rintro ⟨q, hq, hb⟩; exact Bool.false_ne_true ((hhalts q hq).symm.trans hb)), if_pos (by rw [h]; simp)]

/-- Of two taken branches the one in BRA is taken. -/
theorem taken_of_two {p q : SlotIns × SlotEff} (h : effs.filter (fun x => x.2.taken.isSome) = [p, q]) (hp : p.1.slot = .bra) (hq : q.1.slot = .brb) :
    (resolve effs).1.findSome? (·.2.taken) = p.2.taken := by
  have hleft : (effs.filter fun x => !(x.1.slot = .brb)).filter (fun x => x.2.taken.isSome) = [p] := by
    rw [List.filter_comm, h]
    simp [hp, hq]
  rw [resolve_two_taken hhalts h]
  exact findSome?_of_filter hleft

theorem taken_of_one {p : SlotIns × SlotEff} (h : effs.filter (fun x => x.2.taken.isSome) = [p]) :
    (resolve effs).1.findSome? (·.2.taken) = p.2.taken := by
  rw [resolve_one_taken hhalts h]
  exact findSome?_of_filter h

end

theorem taken_of_none (h : ∀ p ∈ effs, p.2.taken = none) : (resolve effs).1.findSome? (·.2.taken) = none :=
  List.findSome?_eq_none_iff.mpr fun p hp => h p (resolve_sub hp)

/-- Beside a `halt` no branch is taken. -/
theorem taken_of_halts (h : ∃ p ∈ effs, p.2.halts = true) : (resolve effs).1.findSome? (·.2.taken) = none := by
  rw [resolve_halts h]
  exact List.findSome?_eq_none_iff.mpr fun p hp => Option.isNone_iff_eq_none.mp (List.mem_filter.mp hp).2

end

/-! The commit. -/

/-- The state once the slots have acted. -/
def acted (s : State) (c : CubeId) (f : FrameId) (effs : List (SlotIns × SlotEff)) : State :=
  (storesLast (s.frame c f) (resolve effs).1).foldl (fun s p => p.2.act s) s

/-- The guards of a bundle (R93). -/
def guardsOf (r : Frame) (slots : List SlotIns) : Taint := slots.foldl (fun u x => u ||| r.taint.pred x.guard) 0

/-- A bundle without `sys`, `rfe` or a handler's `halt` leaves its slots' effects and what they join. -/
theorem commit_frame {s : State} {c : CubeId} {f : FrameId} {b : BundleIn} {effs : List (SlotIns × SlotEff)}
    (h : ∀ p ∈ effs, p.2.sys = none ∧ p.2.rfe = false ∧ (p.2.halts = true → (s.frame c f).priv.lvl = false)) :
    (commit s c f b effs).frame c f = finish ((acted s c f effs).frame c f) b (resolve effs).1 (resolve effs).2
      (guardsOf (s.frame c f) b.slots) (b.dp && !(s.frame c f).fl.land.isEmpty) := by
  have hsys : (resolve effs).1.findSome? (·.2.sys) = none :=
    List.findSome?_eq_none_iff.mpr fun p hp => (h p (resolve_sub hp)).1
  have hrfe : ¬ (resolve effs).1.any (·.2.rfe) = true := by
    rw [List.any_eq_true]
    rintro ⟨p, hp, hb⟩
    exact Bool.false_ne_true ((h p (resolve_sub hp)).2.1.symm.trans hb)
  have hhalt : ¬ ((s.frame c f).priv.lvl = true ∧ (resolve effs).1.any (·.2.halts) = true) := by
    rintro ⟨hlvl, hany⟩
    obtain ⟨p, hp, hb⟩ := List.any_eq_true.mp hany
    exact Bool.false_ne_true (((h p (resolve_sub hp)).2.2 hb).symm.trans hlvl)
  have hrun : commit s c f b effs = ((acted s c f effs).modFrame c f fun r => finish r b (resolve effs).1 (resolve effs).2
      (guardsOf (s.frame c f) b.slots) (b.dp && !(s.frame c f).fl.land.isEmpty)).modCube c fun q => { q with stallSince := none } := by
    rw [commit]
    dsimp only
    rw [hsys]
    dsimp only
    rw [if_neg hrfe, if_neg hhalt]
    rfl
  rw [hrun]
  change (State.modCube _ c _).frame c f = _
  rw [State.frame, State.cube_modCube_same]
  exact State.frame_modFrame_same _ c f _

end Sys2Proof.Machine
end

section
/-! SUPPORT. What is taken at a drain point (R28, R30, R34, R36, R154, R320). -/

namespace Sys2Proof.Machine

/-! The turn of a core (R28). -/

/-- What a core runs, since when, and since when it stalls. -/
def Cube.turn (q : Cube) : FrameId × Nat × Option Nat := (q.running, q.runSince, q.stallSince)

theorem modCube_turn {s : State} {c : CubeId} {g : Cube → Cube} (h : (g (s.cube c)).turn = (s.cube c).turn) :
    ((s.modCube c g).cube c).turn = (s.cube c).turn := by rw [State.cube_modCube_same, h]

theorem setFrame_turn (s : State) (c : CubeId) (f : FrameId) (r : Frame) : ((s.setFrame c f r).cube c).turn = (s.cube c).turn := modCube_turn rfl

theorem modFrame_turn (s : State) (c : CubeId) (f : FrameId) (g : Frame → Frame) : ((s.modFrame c f g).cube c).turn = (s.cube c).turn :=
  setFrame_turn ..

theorem modHub_turn (s : State) (c : CubeId) (g : Hub → Hub) : ((s.modHub g).cube c).turn = (s.cube c).turn := rfl

theorem repin_turn (s : State) (c : CubeId) (f : FrameId) : ((repin s c f).cube c).turn = (s.cube c).turn := by
  unfold repin
  dsimp only
  rw [modHub_turn, modFrame_turn]

theorem loadFrame_turn {s s' : State} {c : CubeId} {f : FrameId} (hload : loadFrame s c f = some s') : (s'.cube c).turn = (s.cube c).turn := by
  unfold loadFrame at hload
  dsimp only at hload
  split at hload
  · exact absurd hload (by simp)
  · rw [← Option.some.inj hload, retime, modCube_turn rfl, repin_turn, setFrame_turn]

theorem askLeave_turn (s : State) (c : CubeId) (f : FrameId) (base : Nat) : ((askLeave s c f base).cube c).turn = (s.cube c).turn := by
  unfold askLeave
  dsimp only
  split
  · rfl
  · exact modCube_turn rfl

theorem failGang_turn (s : State) (c d : CubeId) (f : FrameId) (cause : Nat) (t2 : Word) : ((failGang s c f cause t2).cube d).turn = (s.cube d).turn := by
  unfold failGang
  dsimp only
  split
  · split
    · rw [tellSpan_keeps (fun u => (u.cube d).turn) fun _ _ => rfl]
      rfl
    · rfl
  · rfl

theorem handlerFault_turn (s : State) (c : CubeId) (f : FrameId) (cause : Nat) (t2 : Word) :
    ((handlerFault s c f cause t2).cube c).turn = (s.cube c).turn := by
  unfold handlerFault
  exact (modFrame_turn ..).trans (failGang_turn ..)

/-- A core that turns runs the other resident from now on. -/
theorem switchCore_turn (s : State) (c : CubeId) : ((switchCore s c).cube c).turn = (otherF (s.cube c).running, s.now, none) := by
  have hturn : (((s.modCube c fun q => { q with running := otherF (s.cube c).running, runSince := s.now, stallSince := none }).modFrame c
      (otherF (s.cube c).running) fun r => { r with issue := { r.issue with slice := none } }).cube c).turn = (otherF (s.cube c).running, s.now, none) := by
    rw [modFrame_turn, State.cube_modCube_same]
    rfl
  unfold switchCore
  dsimp only
  split
  · split
    next s' hload => rw [askLeave_turn, loadFrame_turn hload, hturn]
    next => rw [handlerFault_turn, hturn]
  · exact hturn

theorem switchCore_modFrame (s : State) (c : CubeId) (f : FrameId) (g : Frame → Frame) : let t := switchCore (s.modFrame c f g) c
    (t.cube c).running = otherF (s.cube c).running ∧ (t.cube c).runSince = s.now ∧ (t.cube c).stallSince = none := by
  have hruns : ((s.modFrame c f g).cube c).running = (s.cube c).running := congrArg Prod.fst (modFrame_turn s c f g)
  have hturn := switchCore_turn (s.modFrame c f g) c
  rw [hruns, Cube.turn, Prod.mk.injEq, Prod.mk.injEq] at hturn
  exact hturn

/-! What is taken (R30, R320). -/

section
variable {s : State} {c : CubeId} {f : FrameId} {b : BundleIn} {rdy : Readiness}

theorem atDrain_handler (hlvl : (s.frame c f).priv.lvl = true) : atDrain s c f b rdy = none := by
  rw [atDrain]
  dsimp only
  rw [if_pos hlvl]

section
variable (hlvl : (s.frame c f).priv.lvl = false)
include hlvl

theorem atDrain_failed (hfail : gangFailed s (s.frame c f) = true) :
    atDrain s c f b rdy = some (s.modFrame c f fun r => { r with issue := { r.issue with stopped := true } }) := by
  rw [atDrain]
  dsimp only
  rw [if_neg (by rw [hlvl]; decide), if_pos hfail]
  rfl

variable (hfail : gangFailed s (s.frame c f) = false)
include hfail

theorem atDrain_withdrawn (hwith : withdrawalDue (s.cube c) (s.frame c f) = true) : atDrain s c f b rdy = some (withdraw s c f) := by
  rw [atDrain]
  dsimp only
  rw [if_neg (by rw [hlvl]; decide), if_neg (by rw [hfail]; decide), if_pos hwith]

variable (hwith : withdrawalDue (s.cube c) (s.frame c f) = false)
include hwith

theorem atDrain_trap {t : TrapInfo} (htrap : drainTrap s c f = some t) :
    atDrain s c f b rdy = some (enterTrap (s.modFrame c f fun r => dropDue r t) c f t) := by
  rw [atDrain]
  dsimp only
  rw [if_neg (by rw [hlvl]; decide), if_neg (by rw [hfail]; decide), if_neg (by rw [hwith]; decide), htrap]
  rfl

variable (htrap : drainTrap s c f = none)
include htrap

theorem atDrain_preempted (hpre : (s.frame c f).issue.preempt.isSome = true) : atDrain s c f b rdy = some (savePreempted s c f) := by
  rw [atDrain]
  dsimp only
  rw [if_neg (by rw [hlvl]; decide), if_neg (by rw [hfail]; decide), if_neg (by rw [hwith]; decide), htrap]
  exact if_pos hpre

variable (hpre : (s.frame c f).issue.preempt = none)
include hpre

theorem atDrain_interrupted (hirq : (s.frame c f).issue.irq = true) :
    atDrain s c f b rdy = some (s.modFrame c f fun r => { r with issue := { r.issue with irq := false } }) := by
  rw [atDrain]
  dsimp only
  rw [if_neg (by rw [hlvl]; decide), if_neg (by rw [hfail]; decide), if_neg (by rw [hwith]; decide), htrap]
  dsimp only
  rw [if_neg (by rw [hpre]; decide), if_pos hirq]
  rfl

/-- Whether the bundle at the PC asks for a switch, and has not been switched for yet (R154). -/
def yields (r : Frame) (b : BundleIn) : Bool := r.issue.yielded ≠ some r.issue.pc && b.slots.any fun x => isYield x.ins && slotIssues r b.lvl x

/-- A stall of 512 cycles (R28). -/
def longStall (s : State) (c : CubeId) : Bool := match (s.cube c).stallSince with | some t => decide (512 ≤ s.now - t) | none => false

variable (hirq : (s.frame c f).issue.irq = false)
include hirq

theorem atDrain_switches : atDrain s c f b rdy =
    if (yields (s.frame c f) b = true ∨ longStall s c = true ∨ (s.frame c f).issue.slice.isSome = true) ∧ rdy s c (otherF f) = true then
      some (switchCore (s.modFrame c f fun r => { r with issue := { r.issue with
        yielded := if yields (s.frame c f) b then some (s.frame c f).issue.pc else r.issue.yielded, slice := none } }) c)
    else none := by
  rw [atDrain]
  dsimp only
  rw [if_neg (by rw [hlvl]; decide), if_neg (by rw [hfail]; decide), if_neg (by rw [hwith]; decide), htrap]
  dsimp only
  rw [if_neg (by rw [hpre]; decide), if_neg (by rw [hirq]; decide)]
  rfl

end
end

/-- At a quiet core no trap waits for a drain point. -/
theorem drainTrap_quiet {s : State} {c : CubeId} {f : FrameId} (hq : (s.frame c f).quiet = true) (hr : refusalOf s c f = none) :
    drainTrap s c f = none := by
  have hsem : ∀ i, semTrap s c f i = none := fun i => by simp [semTrap, hr]
  rw [drainTrap, firstDue_quiet hq, hsem, quiet_due hq]
  rfl

section
variable {s : State} {x : BundleIn} {effs : List (SlotIns × SlotEff)}

theorem yields_iff (h : s.lawful x effs) :
    yields s.cf x = true ↔ s.cf.issue.yielded ≠ some s.cf.issue.pc ∧ ∃ p ∈ effs, isYield p.1.ins = true := by
  rw [yields, Bool.and_eq_true, decide_eq_true_eq, List.any_eq_true]
  refine and_congr_right fun _ => ⟨?_, ?_⟩
  · rintro ⟨z, hz, hcond⟩
    rw [Bool.and_eq_true] at hcond
    obtain ⟨e, he⟩ := lawful_mem h (List.mem_filter.mpr ⟨hz, hcond.2⟩)
    exact ⟨_, he, hcond.1⟩
  · rintro ⟨p, hp, hy⟩
    have hz : p.1 ∈ x.slots.filter (slotIssues s.cf x.lvl) := by
      rw [lawful_issues h]
      exact List.mem_map_of_mem hp
    obtain ⟨hmem, hiss⟩ := List.mem_filter.mp hz
    exact ⟨p.1, hmem, by rw [hy, hiss]; rfl⟩

theorem longStall_iff {c : CubeId} : longStall s c = true ↔ ∃ t, (s.cube c).stallSince = some t ∧ 512 ≤ s.now - t := by
  rw [longStall]
  rcases (s.cube c).stallSince with _ | t
  · exact ⟨nofun, nofun⟩
  · exact decide_eq_true_iff.trans ⟨fun h => ⟨t, rfl, h⟩, fun ⟨_, ht, h⟩ => Option.some.inj ht ▸ h⟩

/-- Where a bundle meets R138, the drain point takes what is due there. -/
theorem drainPointRun_of_lawful {y : Fetched} (hmay : mayIssue s s.cur s.curF = true) (hdrain : atDrainPoint s s.cur s.curF = true)
    (hfetch : fetchAt s s.cur s.curF = .ok y) (hb : bundleIn s.cf.issue.pc y.b y.next = .ok x) (h : s.lawful x effs) :
    drainPointRun s s.cur s.curF = (atDrain s s.cur s.curF x (ready slotMeaning)).getD s := by
  have hb' : bundleIn (s.frame s.cur s.curF).issue.pc y.b y.next = .ok x := hb
  rw [drainPointRun, if_pos ⟨hmay, hdrain⟩, hfetch]
  dsimp only
  rw [hb']
  dsimp only
  split
  next t hj => exact absurd hj (judge_of_lawful h t)
  next => rcases atDrain s s.cur s.curF x (ready slotMeaning) <;> rfl

end

end Sys2Proof.Machine
end

section
/-! SUPPORT. Lists that hold, beside what matters, only elements that do not. -/

namespace Sys2Proof.Machine

/-- A list that surrounds another by elements of a kind. -/
def Padded {α : Type} (p : α → Prop) (l m : List α) : Prop := ∃ a b, (∀ y ∈ a, p y) ∧ (∀ y ∈ b, p y) ∧ l = a ++ m ++ b

namespace Padded

variable {α β : Type} {p : α → Prop} {l m : List α} (h : Padded p l m)
include h

theorem findSome? {g : α → Option β} (hg : ∀ y, p y → g y = none) : l.findSome? g = m.findSome? g := by
  obtain ⟨a, b, ha, hb, rfl⟩ := h
  rw [List.findSome?_append, List.findSome?_append, List.findSome?_eq_none_iff.mpr fun y hy => hg y (ha y hy),
    List.findSome?_eq_none_iff.mpr fun y hy => hg y (hb y hy)]
  simp

theorem filter_eq {q : α → Bool} (hq : ∀ y, p y → q y = false) : l.filter q = m.filter q := by
  obtain ⟨a, b, ha, hb, rfl⟩ := h
  have hnone : ∀ k : List α, (∀ y ∈ k, p y) → k.filter q = [] := fun k hk => List.filter_eq_nil_iff.mpr fun y hy => by simp [hq y (hk y hy)]
  rw [List.filter_append, List.filter_append, hnone a ha, hnone b hb]
  simp

theorem find? {q : α → Bool} (hq : ∀ y, p y → q y = false) : l.find? q = m.find? q := by
  rw [← List.head?_filter, ← List.head?_filter, h.filter_eq hq]

theorem any {q : α → Bool} (hq : ∀ y, p y → q y = false) : l.any q = m.any q := by
  obtain ⟨a, b, ha, hb, rfl⟩ := h
  have hnone : ∀ k : List α, (∀ y ∈ k, p y) → k.any q = false := fun k hk => List.any_eq_false.mpr fun y hy => by simp [hq y (hk y hy)]
  rw [List.any_append, List.any_append, hnone a ha, hnone b hb]
  simp

theorem filterMap_eq {g : α → Option β} (hg : ∀ y, p y → g y = none) : l.filterMap g = m.filterMap g := by
  obtain ⟨a, b, ha, hb, rfl⟩ := h
  rw [List.filterMap_append, List.filterMap_append, List.filterMap_eq_nil_iff.mpr fun y hy => hg y (ha y hy),
    List.filterMap_eq_nil_iff.mpr fun y hy => hg y (hb y hy)]
  simp

theorem foldl {g : β → α → β} (hg : ∀ u y, p y → g u y = u) (u : β) : l.foldl g u = m.foldl g u := by
  have hidle : ∀ (a : List α), (∀ y ∈ a, p y) → ∀ u, a.foldl g u = u := by
    intro a
    induction a with
    | nil => exact fun _ u => rfl
    | cons y a ih => exact fun ha u => by rw [List.foldl_cons, hg u y (ha y List.mem_cons_self), ih fun w hw => ha w (List.mem_cons_of_mem y hw)]
  obtain ⟨a, b, ha, hb, rfl⟩ := h
  rw [List.foldl_append, List.foldl_append, hidle a ha, hidle b hb]

theorem filter (q : α → Bool) : Padded p (l.filter q) (m.filter q) := by
  obtain ⟨a, b, ha, hb, rfl⟩ := h
  exact ⟨a.filter q, b.filter q, fun y hy => ha y (List.mem_filter.mp hy).1, fun y hy => hb y (List.mem_filter.mp hy).1,
    by rw [List.filter_append, List.filter_append]⟩

theorem filterMap {q : β → Prop} {g : α → Option β} (hg : ∀ y, p y → ∀ x, g y = some x → q x) : Padded q (l.filterMap g) (m.filterMap g) := by
  have hkind : ∀ a : List α, (∀ y ∈ a, p y) → ∀ x ∈ a.filterMap g, q x := fun a ha x hx => by
    obtain ⟨y, hy, hyx⟩ := List.mem_filterMap.mp hx
    exact hg y (ha y hy) x hyx
  obtain ⟨a, b, ha, hb, rfl⟩ := h
  exact ⟨a.filterMap g, b.filterMap g, hkind a ha, hkind b hb, by rw [List.filterMap_append, List.filterMap_append]⟩

theorem map {q : β → Prop} {g : α → β} (hg : ∀ y, p y → q (g y)) : Padded q (l.map g) (m.map g) := by
  have hkind : ∀ a : List α, (∀ y ∈ a, p y) → ∀ x ∈ a.map g, q x := fun a ha x hx => by
    obtain ⟨y, hy, rfl⟩ := List.mem_map.mp hx
    exact hg y (ha y hy)
  obtain ⟨a, b, ha, hb, rfl⟩ := h
  exact ⟨a.map g, b.map g, hkind a ha, hkind b hb, by rw [List.map_append, List.map_append]⟩

end Padded

/-- An element whose fellows are all of a kind. -/
theorem padded_of_mem {α : Type} {p : α → Prop} {z : α} {l : List α} (hz : z ∈ l) (hnodup : l.Nodup) (h : ∀ y ∈ l, y ≠ z → p y) : Padded p l [z] := by
  obtain ⟨a, b, rfl⟩ := List.append_of_mem hz
  rw [List.nodup_append] at hnodup
  obtain ⟨-, hb, hab⟩ := hnodup
  refine ⟨a, b, fun y hy => h y (List.mem_append_left _ hy) (hab y hy z List.mem_cons_self), fun y hy => ?_, by simp⟩
  exact h y (List.mem_append_right _ (List.mem_cons_of_mem z hy)) fun hyz => (List.nodup_cons.mp hb).1 (hyz ▸ hy)

end Sys2Proof.Machine
end

section
/-! SUPPORT. One slot among `nop`s is judged as that slot alone (R113, R118, R138). -/

namespace Sys2Proof.Machine

/-- A slot that holds an unguarded `nop`. -/
def Idle (y : SlotIns) : Prop := y.ins = .nop ∧ y.guard = 0 ∧ y.first = false ∧ y.last = false

/-- The same with the effect of a `nop`: none. -/
def IdleEff (p : SlotIns × SlotEff) : Prop := Idle p.1 ∧ p.2 = {}

/-- The bundle at the PC as one slot alone and as that slot among `nop`s. -/
structure Lone (s : State) (c : CubeId) (f : FrameId) (i : Instr) (z : SlotIns) (b : BundleIn) : Prop where
  quiet  : (s.frame c f).quiet = true
  slot   : soloSlot i = some z
  dp     : b.dp = false
  wait   : b.wait = 0
  lvl    : b.lvl = 0
  bad    : b.bad = false
  next   : b.next = (soloBundle s i).next
  padded : Padded Idle b.slots [z]

/-- Two verdicts that differ in idle slots at most. -/
def Alike : Verdict → Verdict → Prop
  | .go l, .go m => Padded IdleEff l m
  | v, w => v = w

theorem judge_of_wave {s : State} {c : CubeId} {f : FrameId} {b : BundleIn} {m : Meaning} {x : SlotIns} (hstatic : staticTrap (s.frame c f) b = none)
    (h : waveBar (s.frame c f) b = some x) : judge s c f b m = .trap (slotTrap (s.frame c f).issue.pc x 15 0 0) := by
  rw [judge, hstatic]
  dsimp only
  rw [h]

theorem slotIssues_idle {r : Frame} {lv : BitVec 3} {y : SlotIns} (hy : Idle y) : slotIssues r lv y = true :=
  slotIssues_solo r y hy.2.1 hy.2.2.2 hy.2.2.1 lv

section
variable {s : State} {c : CubeId} {f : FrameId} {i : Instr} {z : SlotIns} {b : BundleIn} (h : Lone s c f i z b)
include h

theorem Lone.idle_or {y : SlotIns} (hy : y ∈ b.slots) : Idle y ∨ y = z := by
  obtain ⟨a, e, ha, he, heq⟩ := h.padded
  rw [heq, List.mem_append, List.mem_append, List.mem_singleton] at hy
  rcases hy with (hy | hy) | hy
  · exact Or.inl (ha y hy)
  · exact Or.inr hy
  · exact Or.inl (he y hy)

theorem Lone.all_issue (r : Frame) : b.slots.filter (slotIssues r b.lvl) = b.slots := by
  obtain ⟨hg, hl, hf, -⟩ := soloSlot_fields h.slot
  refine List.filter_eq_self.mpr fun y hy => ?_
  rcases h.idle_or hy with hy | rfl
  · exact slotIssues_idle hy
  · exact slotIssues_solo r y hg hl hf _

theorem Lone.solo_issue (r : Frame) : (soloBundle s i).slots.filter (slotIssues r (soloBundle s i).lvl) = [z] := by
  obtain ⟨hg, hl, hf, -⟩ := soloSlot_fields h.slot
  rw [soloBundle_slots s h.slot]
  exact List.filter_eq_self.mpr fun y hy => by rw [List.mem_singleton.mp hy]; exact slotIssues_solo r z hg hl hf _

theorem Lone.static (r : Frame) : staticTrap r b = none := by
  have hlevels : b.slots.filterMap (fun w => levelOf w.ins) = (levelOf z.ins).toList := by
    rw [h.padded.filterMap_eq (fun y hy => by rw [hy.1]; rfl)]
    rcases hlev : levelOf z.ins <;> simp [hlev]
  have hdests : ∀ x ∈ b.slots, ∀ y ∈ b.slots, x.slot.code < y.slot.code → ∀ d ∈ destsOf r x.ins, d ∉ destsOf r y.ins := by
    intro x hx y hy hlt d hdx hdy
    rcases h.idle_or hx with hidle | rfl
    · rw [hidle.1] at hdx
      exact nomatch hdx
    · rcases h.idle_or hy with hidle | rfl
      · rw [hidle.1] at hdy
        exact nomatch hdy
      · exact Nat.lt_irrefl _ hlt
  rw [staticTrap_of_levels h.bad (Or.inl (by rw [h.lvl]; decide)) (by rw [hlevels]; cases levelOf z.ins <;> simp), staticTrap.dw,
    doubleWrite_of_disjoint hdests]

theorem Lone.waveBar (r : Frame) : waveBar r b = waveBar r (soloBundle s i) := by
  rw [Machine.waveBar, Machine.waveBar, soloBundle_slots s h.slot, h.lvl]
  exact h.padded.find? fun y hy => by rw [hy.1]; rfl

theorem Lone.ctx : ctxOf s c f b z = ctxOf s c f (soloBundle s i) z := by rw [ctxOf, ctxOf, h.next]

theorem Lone.semAsk : semAsk s c f b b.slots = semAsk s c f (soloBundle s i) [z] := by
  rw [Machine.semAsk, Machine.semAsk, h.padded.findSome? fun y hy => by rw [hy.1]; rfl]
  rw [List.findSome?_cons, List.findSome?_cons, h.ctx, List.findSome?_nil, List.findSome?_nil]

theorem Lone.holdOf : holdOf s c f b b.slots = holdOf s c f (soloBundle s i) [z] := by
  have hfull : (b.slots.any fun x => entersFull (s.frame c f) x.ins) = [z].any fun x => entersFull (s.frame c f) x.ins :=
    h.padded.any fun y hy => by rw [hy.1]; rfl
  have hstore : (b.slots.any fun x => (storeWait (s.frame c f) ((s.frame c f).taint.pred x.guard) x.ins).any fun w =>
      !waitOver (s.frame c f) (16 * (s.frame c f).issue.nid + 15) w) = [z].any fun x =>
      (storeWait (s.frame c f) ((s.frame c f).taint.pred x.guard) x.ins).any fun w => !waitOver (s.frame c f) (16 * (s.frame c f).issue.nid + 15) w :=
    h.padded.any fun y hy => by rw [hy.1]; rfl
  have hleave : (b.slots.any fun x => leavesS x.ins) = [z].any fun x => leavesS x.ins := h.padded.any fun y hy => by rw [hy.1]; rfl
  rw [Machine.holdOf, Machine.holdOf]
  rw [hfull, hstore, hleave, h.wait, h.dp]
  rfl

/-! The slots' effects. -/

theorem Lone.overfull : overfull (s.frame c f) b.slots = overfull (s.frame c f) [z] := by
  rw [Machine.overfull, Machine.overfull, h.padded.foldl fun u y hy => by rw [hy.1]; rfl]

end

/-- What a slot means, or why it may not stand there (R273, R274). -/
def meantBy (s : State) (c : CubeId) (f : FrameId) (b : BundleIn) (iss : List SlotIns) (m : Meaning) (x : SlotIns) : SlotRes :=
  if mismatched b iss x then .error (ctxOf s c f b x).illegal else m x.ins (ctxOf s c f b x) s

/-- The effects of the slots, or the first fault. -/
def gathered (res : List (SlotIns × SlotRes)) : Except TrapInfo (List (SlotIns × SlotEff)) :=
  let bad := res.filterMap fun x => match x.2 with | .error t => some t | .ok _ => none
  match (bad.find? (·.cause = 15)) <|> bad.head? with
  | some t => .error t
  | none => .ok (res.filterMap fun x => match x.2 with | .ok e => some (x.1, e) | .error _ => none)

theorem slotEffects_eq (s : State) (c : CubeId) (f : FrameId) (b : BundleIn) (iss : List SlotIns) (m : Meaning) :
    slotEffects s c f b iss m = gathered (iss.map fun x => (x, meantBy s c f b iss m x)) := rfl

/-- Results that differ in idle slots at most. -/
def AlikeEffs : Except TrapInfo (List (SlotIns × SlotEff)) → Except TrapInfo (List (SlotIns × SlotEff)) → Prop
  | .ok l, .ok m => Padded IdleEff l m
  | .error t, .error u => t = u
  | _, _ => False

/-- The verdict on the checks of a bundle, by whether a copy is held. -/
def checkVerdict (e : Except TrapInfo (List (SlotIns × SlotEff))) (held : Bool) (w : List (SlotIns × SlotEff) → Verdict) : Verdict :=
  match e with
  | .error t => .trap t
  | .ok l => if held then .stall false else w l

/-- The verdict on a bundle that no stall holds, by its `bar`, its checks and its copies. -/
def clearVerdict (ask : Option ((BarKind × BitVec 4 × OpInfo) × Option Bool)) (e : Except TrapInfo (List (SlotIns × SlotEff))) (held : Bool) : Verdict :=
  match ask with
  | some (_, some false) => .stall true
  | some ((k, bid, info), some true) => checkVerdict e held fun _ => .arrive k bid info
  | _ => checkVerdict e held .go

theorem checkVerdict_alike {e e' : Except TrapInfo (List (SlotIns × SlotEff))} (h : AlikeEffs e e') (held : Bool)
    {w : List (SlotIns × SlotEff) → Verdict} (hw : ∀ l m, Padded IdleEff l m → Alike (w l) (w m)) :
    Alike (checkVerdict e held w) (checkVerdict e' held w) := by
  rcases e with t | l <;> rcases e' with u | m
  · exact congrArg Verdict.trap h
  · exact h.elim
  · exact h.elim
  · cases held
    · exact hw l m h
    · rfl

theorem clearVerdict_alike {e e' : Except TrapInfo (List (SlotIns × SlotEff))} (h : AlikeEffs e e') (ask : Option ((BarKind × BitVec 4 × OpInfo) × Option Bool))
    (held : Bool) : Alike (clearVerdict ask e held) (clearVerdict ask e' held) := by
  rcases ask with _ | ⟨⟨k, bid, info⟩, _ | _ | _⟩
  · exact checkVerdict_alike h held fun l m hlm => hlm
  · exact checkVerdict_alike h held fun l m hlm => hlm
  · rfl
  · exact checkVerdict_alike h held fun l m hlm => rfl

theorem gathered_padded {l m : List (SlotIns × SlotRes)} (h : Padded (fun p => Idle p.1 ∧ p.2 = .ok {}) l m) : AlikeEffs (gathered l) (gathered m) := by
  have hbad : (l.filterMap fun x => match x.2 with | .error t => some t | .ok _ => none) =
      m.filterMap fun x => match x.2 with | .error t => some t | .ok _ => none := h.filterMap_eq fun y hy => by rw [hy.2]
  have hok : Padded IdleEff (l.filterMap fun x => match x.2 with | .ok e => some (x.1, e) | .error _ => none)
      (m.filterMap fun x => match x.2 with | .ok e => some (x.1, e) | .error _ => none) := h.filterMap fun y hy x hx => by
    rw [hy.2] at hx
    obtain rfl := Option.some.inj hx
    exact ⟨hy.1, rfl⟩
  rw [gathered, gathered]
  rw [hbad]
  split
  · rfl
  · exact hok

section
variable {s : State} {c : CubeId} {f : FrameId} {i : Instr} {z : SlotIns} {b : BundleIn} (h : Lone s c f i z b)
include h

theorem Lone.mismatched : mismatched b b.slots z = mismatched (soloBundle s i) [z] z := by
  rw [Machine.mismatched, Machine.mismatched, soloBundle_slots s h.slot, h.padded.any fun y hy => by rw [hy.1]; rfl,
    h.padded.any fun y hy => by rw [hy.1]; simp]

theorem Lone.meantBy : meantBy s c f b b.slots slotMeaning z = meantBy s c f (soloBundle s i) [z] (fun _ => slotMeaning i) z := by
  rw [Machine.meantBy, Machine.meantBy, h.mismatched, h.ctx, (soloSlot_fields h.slot).2.2.2]

theorem Lone.effects : AlikeEffs (slotEffects s c f b b.slots slotMeaning) (slotEffects s c f (soloBundle s i) [z] fun _ => slotMeaning i) := by
  have hidle : ∀ y, Idle y → Machine.meantBy s c f b b.slots slotMeaning y = .ok {} := fun y hy => by
    rw [Machine.meantBy, Machine.mismatched, hy.1]
    rfl
  have hmap : Padded (fun p : SlotIns × SlotRes => Idle p.1 ∧ p.2 = .ok {}) _ _ :=
    h.padded.map (g := fun x => (x, Machine.meantBy s c f b b.slots slotMeaning x)) fun y hy => ⟨hy, hidle y hy⟩
  rw [slotEffects_eq, slotEffects_eq]
  rw [List.map_singleton, h.meantBy] at hmap
  exact gathered_padded hmap

theorem Lone.checks : AlikeEffs (bundleChecks s c f b b.slots slotMeaning) (bundleChecks s c f (soloBundle s i) [z] fun _ => slotMeaning i) := by
  have heffs := h.effects
  rw [bundleChecks, bundleChecks, h.overfull]
  rcases hl : slotEffects s c f b b.slots slotMeaning with t | l <;>
    rcases hm : slotEffects s c f (soloBundle s i) [z] fun _ => slotMeaning i with u | m <;> rw [hl, hm] at heffs
  · exact congrArg (fun t : TrapInfo => if t.cause ≠ 15 ∧ Machine.overfull (s.frame c f) [z] = true then _ else t) heffs
  · exact heffs.elim
  · exact heffs.elim
  · dsimp only
    split
    · rfl
    · exact heffs

omit h in
/-- What the checks come to (R106, R138). -/
theorem judgeClear_eq {iss : List SlotIns} {m : Meaning} (hbarred : (s.frame c f).issue.barred = false) : judgeClear s c f b iss m =
    clearVerdict ((iss.findSome? fun x => (barOf x.ins).map fun y => (y.1, y.2, (ctxOf s c f b x).info)).map fun y => (y, barState s c f y.1 y.2.1))
      (bundleChecks s c f b iss m) (iss.any fun x => (copyOf x.ins).any (copyHeld s (ctxOf s c f b x))) := by
  rw [judgeClear]
  rw [if_neg (by rw [hbarred]; decide)]
  generalize (iss.findSome? fun x => (barOf x.ins).map fun y => (y.1, y.2, (ctxOf s c f b x).info)).map (fun y => (y, barState s c f y.1 y.2.1)) = ask
  rcases ask with _ | ⟨⟨k, bid, info⟩, _ | _ | _⟩ <;> rfl

theorem Lone.clear : Alike (judgeClear s c f b b.slots slotMeaning) (judgeClear s c f (soloBundle s i) [z] fun _ => slotMeaning i) := by
  have hchecks := h.checks
  have hask : (b.slots.findSome? fun x => (barOf x.ins).map fun y => (y.1, y.2, (ctxOf s c f b x).info)) =
      [z].findSome? fun x => (barOf x.ins).map fun y => (y.1, y.2, (ctxOf s c f (soloBundle s i) x).info) := by
    rw [h.padded.findSome? fun y hy => by rw [hy.1]; rfl]
    rw [List.findSome?_cons, List.findSome?_cons, h.ctx, List.findSome?_nil, List.findSome?_nil]
  have hcopy : (b.slots.any fun x => (copyOf x.ins).any (copyHeld s (ctxOf s c f b x))) =
      [z].any fun x => (copyOf x.ins).any (copyHeld s (ctxOf s c f (soloBundle s i) x)) := by
    rw [h.padded.any fun y hy => by rw [hy.1]; rfl]
    rw [List.any_cons, List.any_cons, h.ctx, List.any_nil, List.any_nil]
  rw [judgeClear_eq (quiet_barred h.quiet), judgeClear_eq (quiet_barred h.quiet), hask, hcopy]
  exact clearVerdict_alike hchecks _ _

theorem Lone.judge : Alike (judge s c f b slotMeaning) (judge s c f (soloBundle s i) fun _ => slotMeaning i) := by
  have hsolo := staticTrap_solo s (s.frame c f) h.slot
  have hwave := h.waveBar (s.frame c f)
  rcases hw : Machine.waveBar (s.frame c f) (soloBundle s i) with _ | x
  · rw [judge_of_free (h.static _) (hwave.trans hw) (quiet_var h.quiet) (quiet_land h.quiet),
      judge_of_free hsolo hw (quiet_var h.quiet) (quiet_land h.quiet), h.all_issue, h.solo_issue, judgeFree, judgeFree, h.semAsk, h.holdOf]
    split
    · rfl
    · rfl
    · rfl
    · exact h.clear
  · rw [judge_of_wave (h.static _) (hwave.trans hw), judge_of_wave hsolo hw]
    rfl

end

end Sys2Proof.Machine
end

section
/-! SUPPORT. One slot among `nop`s issues as that slot alone (R113, R118, R138). -/

namespace Sys2Proof.Machine

/-! Idle slots leave nothing behind. -/

section
variable {l m : List (SlotIns × SlotEff)} (h : Padded IdleEff l m)
include h

theorem resolve_padded : Padded IdleEff (resolve l).1 (resolve m).1 ∧ (resolve l).2 = (resolve m).2 := by
  have hhalts : (l.any fun x => x.2.halts) = m.any fun x => x.2.halts := h.any fun y hy => by rw [hy.2]
  have htaken : (l.filter fun x => x.2.taken.isSome) = m.filter fun x => x.2.taken.isSome := h.filter_eq fun y hy => by rw [hy.2]; rfl
  rw [resolve, resolve, hhalts, htaken]
  split
  · exact ⟨h.filter _, rfl⟩
  · split
    · exact ⟨h.filter _, rfl⟩
    · exact ⟨h, rfl⟩

theorem acts_padded (r : Frame) (s : State) : (storesLast r l).foldl (fun s p => p.2.act s) s = (storesLast r m).foldl (fun s p => p.2.act s) s := by
  have hact : ∀ (u : State) (y : SlotIns × SlotEff), IdleEff y → y.2.act u = u := fun u y hy => by rw [hy.2]; rfl
  rw [storesLast, storesLast, List.foldl_append, List.foldl_append, (h.filter _).foldl hact, (h.filter _).foldl hact]

theorem joinedCt_padded (r : Frame) (guards : Taint) : joinedCt r l guards = joinedCt r m guards := by
  rw [joinedCt, joinedCt, h.findSome? fun y hy => by rw [hy.2], h.any fun y hy => by rw [hy.2],
    h.foldl fun u y hy => by rw [hy.2]; exact BitVec.or_zero]

section
variable {b b' : BundleIn} (hnext : b.next = b'.next) (hwait : b.wait = b'.wait)
include hnext

theorem issueAfter_padded (r : Frame) (ignored : Bool) : issueAfter r b l ignored = issueAfter r b' m ignored := by
  rw [issueAfter, issueAfter, h.findSome? fun y hy => by rw [hy.2], h.any fun y hy => by rw [hy.2], hnext]

include hwait

theorem finish_padded (r : Frame) (brcol : Bool) (guards : Taint) (ignored : Bool) :
    finish r b l brcol guards ignored = finish r b' m brcol guards ignored := by
  have hlinks : ∀ ct r, l.foldl (linkInto b ct) r = m.foldl (linkInto b' ct) r := fun ct r => by
    have hb : linkInto b ct = linkInto b' ct := by
      funext r x
      rw [linkInto, linkInto, hnext]
    rw [hb]
    exact h.foldl (fun u y hy => by rw [linkInto, hy.2]) r
  have htaken : l.findSome? (·.2.taken) = m.findSome? (·.2.taken) := h.findSome? fun y hy => by rw [hy.2]
  rw [finish_sealed, finish_sealed, joinedCt_padded h, hlinks, htaken, hwait]
  dsimp only
  rw [issueAfter_padded h hnext]

/-- Bundles that differ in idle slots leave the same state. -/
theorem commit_padded {s : State} {c : CubeId} {f : FrameId} (hdp : b.dp = b'.dp)
    (hguards : guardsOf (s.frame c f) b.slots = guardsOf (s.frame c f) b'.slots) : commit s c f b l = commit s c f b' m := by
  obtain ⟨hpad, hbrcol⟩ := resolve_padded h
  have hfin : ∀ brcol guards ignored, (fun r => finish r b (resolve l).1 brcol guards ignored) = fun r => finish r b' (resolve m).1 brcol guards ignored :=
    fun brcol guards ignored => funext fun r => finish_padded hpad hnext hwait r brcol guards ignored
  have hsys : (resolve l).1.findSome? (·.2.sys) = (resolve m).1.findSome? (·.2.sys) := hpad.findSome? fun y hy => by rw [hy.2]
  have hfind : (resolve l).1.find? (·.2.sys.isSome) = (resolve m).1.find? (·.2.sys.isSome) := hpad.find? fun y hy => by rw [hy.2]; rfl
  have hrfe : (resolve l).1.any (·.2.rfe) = (resolve m).1.any (·.2.rfe) := hpad.any fun y hy => by rw [hy.2]
  have hhalts : (resolve l).1.any (·.2.halts) = (resolve m).1.any (·.2.halts) := hpad.any fun y hy => by rw [hy.2]
  have hguards' : b.slots.foldl (fun u x => u ||| (s.frame c f).taint.pred x.guard) 0 = b'.slots.foldl (fun u x => u ||| (s.frame c f).taint.pred x.guard) 0 := hguards
  rw [commit, commit]
  dsimp only
  rw [acts_padded hpad, hbrcol, hguards', hdp, hfin, hsys, hfind, hrfe, hhalts, hnext]

end
end

/-! One attempt to issue. -/

/-- What an attempt comes to at a quiet core, by its verdict. -/
def outcome (s : State) (c : CubeId) (f : FrameId) (b : BundleIn) : Verdict → State
  | .trap t => enterTrap s c f t
  | .bubble => bubbleAt s c f
  | .stall w => if w then s.modCube c fun q => { q with stallSince := q.stallSince <|> some s.now } else s
  | .arrive k bid info => barArrive s c f k bid info
  | .go effs =>
    match dbgStop s c f effs with
    | some code => s.modFrame c f fun r => { r with issue := { r.issue with dbg := .halted, dbgCode := some code } }
    | none => commit s c f b effs

theorem attempt_eq_outcome {s : State} {c : CubeId} {f : FrameId} {b : BundleIn} {m : Meaning} {rdy : Readiness} (hq : (s.frame c f).quiet = true)
    (hr : refusalOf s c f = none) (hdp : b.dp = false) : attempt s c f b m rdy = outcome s c f b (judge s c f b m) := by
  have hforced : ¬ forcedDue rdy s c f = true := by rw [forcedDue_quiet hq]; decide
  rw [attempt]
  dsimp only
  rcases judge s c f b m with t | _ | w | ⟨k, bid, info⟩ | effs
  · rfl
  all_goals
    dsimp only
    rw [boundaryTrap_quiet hq hr, hdp, Bool.false_and, Bool.false_and]
    dsimp only
    rw [if_neg Bool.false_ne_true]
    dsimp only
    rw [if_neg hforced]
  · exact countSlice_quiet hq ..
  · rfl
  · rfl
  · rw [outcome]
    rcases dbgStop s c f effs with _ | code
    · exact countSlice_quiet hq ..
    · rfl

theorem alike_cases {v w : Verdict} (h : Alike v w) : (∃ l m, v = .go l ∧ w = .go m ∧ Padded IdleEff l m) ∨ (v = w ∧ ∀ l, v ≠ .go l) := by
  rcases v with t | _ | u | ⟨k, bid, info⟩ | l
  · exact Or.inr ⟨h, nofun⟩
  · exact Or.inr ⟨h, nofun⟩
  · exact Or.inr ⟨h, nofun⟩
  · exact Or.inr ⟨h, nofun⟩
  · rcases w with t | _ | u | ⟨k, bid, info⟩ | m
    · exact nomatch (show Verdict.go l = _ from h)
    · exact nomatch (show Verdict.go l = _ from h)
    · exact nomatch (show Verdict.go l = _ from h)
    · exact nomatch (show Verdict.go l = _ from h)
    · exact Or.inl ⟨l, m, rfl, rfl, h⟩

/-- Only a commit looks at the bundle. -/
theorem outcome_congr {s : State} {c : CubeId} {f : FrameId} {b b' : BundleIn} {v : Verdict} (h : ∀ l, v ≠ .go l) : outcome s c f b v = outcome s c f b' v := by
  rcases v with t | _ | u | ⟨k, bid, info⟩ | l
  · rfl
  · rfl
  · rfl
  · rfl
  · exact absurd rfl (h l)

section
variable {s : State} {c : CubeId} {f : FrameId} {i : Instr} {z : SlotIns} {b : BundleIn} (h : Lone s c f i z b)
include h

theorem Lone.guards (r : Frame) : guardsOf r b.slots = guardsOf r (soloBundle s i).slots := by
  rw [guardsOf, guardsOf, soloBundle_slots s h.slot]
  exact h.padded.foldl (fun u y hy => by rw [hy.2.1]; exact BitVec.or_zero) 0

theorem Lone.attempt (hr : refusalOf s c f = none) (rdy rdy' : Readiness) :
    attempt s c f b slotMeaning rdy = attempt s c f (soloBundle s i) (fun _ => slotMeaning i) rdy' := by
  have halike := h.judge
  rw [attempt_eq_outcome h.quiet hr h.dp, attempt_eq_outcome h.quiet hr rfl]
  rcases alike_cases halike with ⟨l, m, hl, hm, hpad⟩ | ⟨heq, hgo⟩
  · have hdbg : dbgStop s c f l = dbgStop s c f m := by
      rw [dbgStop, dbgStop, hpad.findSome? fun y hy => by rw [hy.1.1]; rfl]
    rw [hl, hm, outcome, outcome, hdbg, commit_padded hpad h.next h.wait h.dp (h.guards _)]
  · rw [heq]
    exact outcome_congr fun l hl => hgo l (heq.trans hl)

end

theorem slotOf_slot {n : Nat} {k : Slot} {w : BitVec n} {r : Except Reject Instr} {x : SlotIns} (h : slotOf k w r = .ok x) : x.slot = k := by
  rcases r with e | i
  · exact nomatch h
  · rw [← Except.ok.inj h]

theorem except_bind_ok {ε α β : Type} {x : Except ε α} {g : α → Except ε β} {r : β} (h : (x >>= g) = .ok r) : ∃ a, x = .ok a ∧ g a = .ok r := by
  rcases x with e | a
  · exact nomatch h
  · exact ⟨a, rfl, h⟩

/-- The nine slots of a bundle stand in order. -/
theorem decodeSlots_slots {b : Bundle} {l : List SlotIns} (h : decodeSlots b = .ok l) :
    l.map (·.slot) = [.bra, .brb, .x, .y, .a, .va, .vb, .ls, .cc] := by
  obtain ⟨s0, h0, h⟩ := except_bind_ok h
  obtain ⟨s1, h1, h⟩ := except_bind_ok h
  obtain ⟨s2, h2, h⟩ := except_bind_ok h
  obtain ⟨s3, h3, h⟩ := except_bind_ok h
  obtain ⟨s4, h4, h⟩ := except_bind_ok h
  obtain ⟨s5, h5, h⟩ := except_bind_ok h
  obtain ⟨s6, h6, h⟩ := except_bind_ok h
  obtain ⟨s7, h7, h⟩ := except_bind_ok h
  obtain ⟨s8, h8, h⟩ := except_bind_ok h
  rw [← Except.ok.inj h]
  simp only [List.map_cons, List.map_nil, slotOf_slot h0, slotOf_slot h1, slotOf_slot h2, slotOf_slot h3, slotOf_slot h4, slotOf_slot h5,
    slotOf_slot h6, slotOf_slot h7, slotOf_slot h8]

end Sys2Proof.Machine
end

section
/-! SUPPORT. A bundle at a quiet core: it commits, stands for its one slot, traps or stalls (R28, R94, R102, R113, R118 to R120, R138). -/

namespace Sys2Proof.Machine

section
variable {s : State} {x : BundleIn} {effs : List (SlotIns × SlotEff)} (h : s.lawful x effs) (hquiet : s.cf.quiet = true)
include h hquiet

/-- A `semw` whose count is there holds nothing back (R218). -/
theorem semAsk_of_counts (hcount : ∀ z ∈ x.slots.filter (slotIssues s.cf x.lvl), ∀ k n, semwOf z.ins = some (k, n) → n.toNat ≤ (semRead s s.cur s.curF k).1) :
    semAsk s s.cur s.curF x (x.slots.filter (slotIssues s.cf x.lvl)) = none ∨
      semAsk s s.cur s.curF x (x.slots.filter (slotIssues s.cf x.lvl)) = some (.ok false) := by
  rcases hsem : semAsk s s.cur s.curF x (x.slots.filter (slotIssues s.cf x.lvl)) with _ | v
  · exact Or.inl rfl
  · obtain ⟨z, hz, hw⟩ := List.exists_of_findSome?_eq_some hsem
    obtain ⟨⟨k, n⟩, hk, hhold⟩ := Option.map_eq_some_iff.mp hw
    have hsync : (ctxOf s s.cur s.curF x z).r.fl.syncQ = [] := quiet_syncQ hquiet
    have hopen : semwHold s (ctxOf s s.cur s.curF x z) k n.toNat = .ok false := by
      rw [semwHold, hsync, if_neg (by exact Bool.false_ne_true)]
      dsimp only
      exact (if_neg (Nat.not_lt.mpr (lawful_semw h hz hk))).trans (congrArg Except.ok (decide_eq_false (Nat.not_lt.mpr (hcount z hz k n hk))))
    exact Or.inr (congrArg some (hhold.symm.trans hopen))

theorem judge_of_quiet : judge s s.cur s.curF x slotMeaning =
    judgeFree s s.cur s.curF x (x.slots.filter (slotIssues s.cf x.lvl)) slotMeaning :=
  judge_of_free (lawful_static h) (lawful_waveBar h) (quiet_var hquiet) (quiet_land hquiet)

/-- A bundle that meets R138 and waits for nothing is clear to go. -/
theorem judge_of_quiet_go (hwait : s.cf.sync.df &&& x.wait = x.wait)
    (hbar : ∀ z ∈ x.slots.filter (slotIssues s.cf x.lvl), barOf z.ins = none)
    (hcount : ∀ z ∈ x.slots.filter (slotIssues s.cf x.lvl), ∀ k n, semwOf z.ins = some (k, n) → n.toNat ≤ (semRead s s.cur s.curF k).1)
    (hstore : ∀ z ∈ x.slots.filter (slotIssues s.cf x.lvl), ∀ t, storeWait s.cf (s.cf.taint.pred z.guard) z.ins = some t → t &&& 0x7FFFFFFF = 0)
    (hcopy : ∀ z ∈ x.slots.filter (slotIssues s.cf x.lvl), ∀ a, copyOf z.ins = some a → copyHeld s (ctxOf s s.cur s.curF x z) a = false) :
    judge s s.cur s.curF x slotMeaning = .go effs :=
  (judge_of_quiet h hquiet).trans ((judgeFree_of_clear (semAsk_of_counts h hquiet hcount) (holdOf_quiet_none hquiet hwait hstore)).trans
    (judgeClear_of_checks hbar (quiet_barred hquiet) (lawful_checks h) hcopy))

/-- A WAIT whose signal is not done stalls. -/
theorem judge_of_quiet_wait (hwait : s.cf.sync.df &&& x.wait ≠ x.wait)
    (hsem : ∀ z ∈ x.slots.filter (slotIssues s.cf x.lvl), semwOf z.ins = none) : judge s s.cur s.curF x slotMeaning = .stall true := by
  have hask : semAsk s s.cur s.curF x (x.slots.filter (slotIssues s.cf x.lvl)) = none :=
    List.findSome?_eq_none_iff.mpr fun z hz => by rw [hsem z hz]; rfl
  exact (judge_of_quiet h hquiet).trans (judgeFree_of_hold hask (holdOf_quiet_wait hquiet hwait))

omit hquiet in
theorem dbgStop_of_none (hdbg : ∀ z ∈ x.slots.filter (slotIssues s.cf x.lvl),
    (s.cube s.cur).dbgAttached = true → (s.cube s.cur).dbgEvents = true → dbgOf z.ins = none) : dbgStop s s.cur s.curF effs = none := by
  rw [dbgStop]
  split
  next hcond =>
    refine List.findSome?_eq_none_iff.mpr fun p hp => ?_
    have hz : p.1 ∈ x.slots.filter (slotIssues s.cf x.lvl) := by
      rw [lawful_issues h]
      exact List.mem_map_of_mem hp
    exact hdbg p.1 hz hcond.1 hcond.2.1
  next => rfl

/-- Nothing is taken at the drain point of a bundle at a quiet core (R30). -/
theorem atDrain_quiet (hr : refusalOf s s.cur s.curF = none) (rdy : Readiness) (hdp : s.cf.priv.lvl = true ∨ (gangFailed s s.cf = false ∧
    withdrawalDue (s.cube s.cur) s.cf = false ∧ s.cf.issue.irq = false ∧ (s.cube s.cur).stallSince = none ∧
    ∀ z ∈ x.slots.filter (slotIssues s.cf x.lvl), isYield z.ins = false)) : atDrain s s.cur s.curF x rdy = none := by
  rcases hlvl : s.cf.priv.lvl
  · obtain ⟨hfail, hwith, hirq, hstall, hyield⟩ := hdp.resolve_left (by rw [hlvl]; decide)
    have hyields : ¬ yields s.cf x = true := fun hy => by
      obtain ⟨-, p, hp, hyp⟩ := (yields_iff h).mp hy
      have hz : p.1 ∈ x.slots.filter (slotIssues s.cf x.lvl) := by
        rw [lawful_issues h]
        exact List.mem_map_of_mem hp
      exact Bool.false_ne_true ((hyield p.1 hz).symm.trans hyp)
    have hslow : ¬ longStall s s.cur = true := fun hs => by
      obtain ⟨t, ht, -⟩ := longStall_iff.mp hs
      exact nomatch hstall.symm.trans ht
    have hslice : ¬ s.cf.issue.slice.isSome = true := by rw [quiet_slice hquiet]; decide
    refine (atDrain_switches hlvl hfail hwith (drainTrap_quiet hquiet hr) (quiet_preempt hquiet) hirq).trans (if_neg ?_)
    rintro ⟨hy | hs | hl, -⟩
    · exact hyields hy
    · exact hslow hs
    · exact hslice hl
  · exact atDrain_handler hlvl

end

/-- What the commit of a bundle without `sys`, `rfe` or a handler's `halt` leaves. -/
theorem commit_leaves {s : State} {c : CubeId} {f : FrameId} {b : BundleIn} {effs : List (SlotIns × SlotEff)}
    (h : ∀ p ∈ effs, p.2.sys = none ∧ p.2.rfe = false ∧ (p.2.halts = true → (s.frame c f).priv.lvl = false)) :
    let u := (acted s c f effs).frame c f
    let k := (commit s c f b effs).frame c f
    k.issue.nb = u.issue.nb + 1 ∧ k.sync.df = u.sync.df &&& ~~~b.wait ∧ k.regs = u.regs ∧ k.bufs = u.bufs ∧
    k.task = u.task ∧ k.priv = u.priv ∧ (∀ z ∈ b.slots, k.taint.ct ||| (s.frame c f).taint.pred z.guard = k.taint.ct) ∧
    ((∃ p ∈ effs, p.2.halts = true ∧ p.2.taken = none) → k.issue.pc = b.next ∧ (u.priv.lvl = false → k.issue.halted = true)) ∧
    ((∀ p ∈ effs, p.2.taken = none) → k.issue.pc = b.next) ∧
    ((∀ p ∈ effs, p.2.halts = false) → ∀ p g, p.2.taken = some g →
      (effs.filter (fun y => y.2.taken.isSome) = [p] → k.issue.pc = g) ∧
      (∀ q, effs.filter (fun y => y.2.taken.isSome) = [p, q] → p.1.slot = .bra → q.1.slot = .brb →
        k.issue.pc = g ∧ k.ctl.cstat.getLsbD 0 = true)) := by
  intro u k
  obtain ⟨y, hy⟩ := finish_eq u b (resolve effs).1 (resolve effs).2 (guardsOf (s.frame c f) b.slots) (b.dp && !(s.frame c f).fl.land.isEmpty)
  have hk : k = _ := (commit_frame h).trans hy
  have hpc : k.issue.pc = ((resolve effs).1.findSome? (·.2.taken)).getD b.next := congrArg (·.issue.pc) hk
  have hhalted : k.issue.halted = (u.issue.halted || ((resolve effs).1.any (·.2.halts) && !u.priv.lvl)) := congrArg (·.issue.halted) hk
  refine ⟨congrArg (·.issue.nb) hk, congrArg (·.sync.df) hk, congrArg (·.regs) hk, congrArg (·.bufs) hk, congrArg (·.task) hk, congrArg (·.priv) hk,
    fun z hz => ?_, ?_, fun hnone => ?_, fun hhalts p g hp => ⟨fun hone => ?_, fun q htwo hbra hbrb => ⟨?_, ?_⟩⟩⟩
  · rw [show k.taint.ct = joinedCt u (resolve effs).1 (guardsOf (s.frame c f) b.slots) from congrArg (·.taint.ct) hk]
    exact joinedCt_guard u (resolve effs).1 hz
  · rintro ⟨p, hp, hph, hpt⟩
    have hany : (resolve effs).1.any (·.2.halts) = true := by
      rw [resolve_halts ⟨p, hp, hph⟩]
      exact List.any_eq_true.mpr ⟨p, List.mem_filter.mpr ⟨hp, by rw [hpt]; rfl⟩, hph⟩
    refine ⟨by rw [hpc, taken_of_halts ⟨p, hp, hph⟩]; rfl, fun hlvl => ?_⟩
    rw [hhalted, hany, hlvl]
    exact Bool.or_true _
  · rw [hpc, taken_of_none hnone]
    rfl
  · rw [hpc, taken_of_one hhalts hone, hp]
    rfl
  · rw [hpc, taken_of_two hhalts htwo hbra hbrb, hp]
    rfl
  · have hcstat : k.ctl.cstat = (u.ctl.orBrcol (resolve effs).2).cstat := congrArg (·.ctl.cstat) hk
    rw [hcstat, resolve_two_taken hhalts htwo, Ctl.orBrcol]
    simp

/-! The traps before any slot (R113, R119). -/

theorem staticTrap_of_bad {r : Frame} {b : BundleIn} (h : b.bad = true) : staticTrap r b = some ⟨2, 15, false, false, r.issue.pc, 0, 0, 0⟩ :=
  if_pos (Or.inl h)

theorem doubleWrite_some {r : Frame} {l : List SlotIns} {y z : SlotIns} {d : RegName} (h : doubleWrite r l = some (y, z, d)) :
    y.slot.code < z.slot.code ∧ d ∈ destsOf r y.ins ∧ d ∈ destsOf r z.ins := by
  obtain ⟨y', -, hy⟩ := List.exists_of_findSome?_eq_some h
  obtain ⟨z', -, hz⟩ := List.exists_of_findSome?_eq_some hy
  split at hz
  next hlt =>
    obtain ⟨d', hd, heq⟩ := Option.map_eq_some_iff.mp hz
    cases heq
    exact ⟨hlt, List.mem_of_find?_eq_some hd, List.contains_iff_mem.mp (List.find?_some hd)⟩
  next => exact nomatch hz

theorem staticTrap_of_doubleWrite {r : Frame} {b : BundleIn} {y z : SlotIns} {d : RegName} (hbad : b.bad = false)
    (hlvl : b.lvl.toNat < 6 ∨ ∀ w ∈ b.slots, w.first = false ∧ w.last = false) (hlevels : (b.slots.filterMap fun w => levelOf w.ins).Nodup)
    (h : doubleWrite r b.slots = some (y, z, d)) : staticTrap r b =
      some ⟨4, y.slot.code, false, false, r.issue.pc, y.raw, w64 (d.2 + (min d.1 5) * 2 ^ 9 + z.slot.code * 2 ^ 12), 0⟩ := by
  rw [staticTrap_of_levels hbad hlvl hlevels, staticTrap.dw, h]
  dsimp only
  rw [Nat.shiftLeft_eq, Nat.shiftLeft_eq]
  rfl

/-! One slot (R118). -/

/-- A slot instruction of the model is that slot alone; an event has no encoding. -/
theorem exec_eq_solo (s : State) {i : Instr} {z : SlotIns} (h : soloSlot i = some z) : exec i s = solo s i (slotMeaning i) := by
  cases i
  all_goals try rfl
  all_goals exact nomatch h

theorem exec_of_quiet {s : State} {i : Instr} {z : SlotIns} (hq : s.quiet = true) (hwf : i.wf = true) (h : soloSlot i = some z) :
    exec i s = .next (attempt s s.cur s.curF (soloBundle s i) (fun _ => slotMeaning i) fun _ _ _ => false) := by
  obtain ⟨hpow, hmay, -, hquiet⟩ := State.quiet_parts hq
  have hland : landDue s s.cur s.curF = s := landDue_quiet hquiet
  rw [exec_eq_solo s h, solo, if_neg (by rw [hpow]; decide), if_neg (by rw [hmay]; decide), if_pos hwf, hland]

/-- A bundle of one slot among `nop`s issues as that slot. -/
theorem bundleIssue_of_lone {s : State} {lit : Bool} {b : Bundle} {l : List SlotIns} {i : Instr} {z : SlotIns} (hdec : decodeSlots b = .ok l)
    (hq : s.quiet = true) (hwf : i.wf = true) (hslot : soloSlot i = some z) (hz : z ∈ l) (hhdr : b.hdr = 0) (hnext : nextOf s s.cur s.curF lit = s.nextPc)
    (hidle : ∀ y ∈ l, y ≠ z → Idle y) : exec (.bundleIssue lit b) s = exec i s := by
  obtain ⟨-, -, hr, hquiet⟩ := State.quiet_parts hq
  have hnodup : l.Nodup := List.Nodup.of_map (·.slot) (by rw [decodeSlots_slots hdec]; decide)
  have hlone : Lone s s.cur s.curF i z (headed s lit b l) :=
    { quiet := hquiet, slot := hslot, next := hnext, padded := padded_of_mem hz hnodup hidle
      dp := by rw [headed, Bundle.dp, hhdr]; rfl
      wait := by rw [headed, Bundle.waitMask, hhdr]; rfl
      lvl := by rw [headed, Bundle.lvl, hhdr]; rfl
      bad := by rw [headed, hhdr]; rfl }
  rw [bundleIssue_of_quiet hq hdec, exec_of_quiet hq hwf hslot, hlone.attempt hr]

end Sys2Proof.Machine
end

section
open Sys2Proof Sys2Proof.Machine

/-- Settles O37: at a quiet core a bundle commits, stands for its one slot, traps or stalls as its checks say, and an armed register
makes a bubble; a drain point takes the first thing due in R320's order. -/
theorem bundlesAndDrainPoints : Obligations.BundlesAndDrainPoints := by
  unfold Obligations.BundlesAndDrainPoints
  refine ⟨fun s lit b l hdec => ?_, fun s y x effs hpow hmay hlvl hdrain hfetch hb hlaw => ?_⟩
  · intro r pc next x iss
    have hissue : s.quiet = true → exec (.bundleIssue lit b) s = .next (attempt s s.cur s.curF x slotMeaning (ready slotMeaning)) :=
      fun hq => bundleIssue_of_quiet hq hdec
    have htrap : ∀ t, s.quiet = true → staticTrap r x = some t → exec (.bundleIssue lit b) s = .next (enterTrap s s.cur s.curF t) :=
      fun t hq ht => (hissue hq).trans (congrArg _ (attempt_of_trap (judge_of_static ht)))
    refine ⟨fun effs hq hlaw hwait hslots hdp => ⟨?_, commit_leaves⟩, ?_, ?_, ?_, ?_, ?_⟩
    · obtain ⟨-, -, hr, hquiet⟩ := State.quiet_parts hq
      have hgo : judge s s.cur s.curF x slotMeaning = .go effs := judge_of_quiet_go hlaw hquiet hwait (fun z hz => (hslots z hz).1)
        (fun z hz => (hslots z hz).2.1) (fun z hz => (hslots z hz).2.2.1) fun z hz => (hslots z hz).2.2.2.1
      have hdbg : dbgStop s s.cur s.curF effs = none := dbgStop_of_none hlaw fun z hz => (hslots z hz).2.2.2.2
      exact (hissue hq).trans (congrArg _ (attempt_of_go hquiet hr hgo (fun hb => atDrain_quiet hlaw hquiet hr _ (hdp hb)) hdbg))
    · exact fun i z hq hwf hslot hz hhdr hnext hidle => bundleIssue_of_lone hdec hq hwf hslot hz hhdr hnext hidle
    · exact fun hbad hq => htrap _ hq (staticTrap_of_bad (decide_eq_true hbad))
    · intro y z d hbad hq hlvl hlevels hdw
      obtain ⟨hlt, hy, hz⟩ := doubleWrite_some hdw
      exact ⟨hlt, hy, hz, htrap _ hq (staticTrap_of_doubleWrite (b := x) (decide_eq_false (not_not_intro hbad)) hlvl hlevels hdw)⟩
    · intro effs hq hlaw hwait hdp hslots
      obtain ⟨-, -, hr, hquiet⟩ := State.quiet_parts hq
      have hstall : judge s s.cur s.curF x slotMeaning = .stall true := judge_of_quiet_wait hlaw hquiet hwait fun z hz => (hslots z hz).2
      exact (hissue hq).trans (congrArg _ (attempt_of_wait hquiet hr hstall hdp))
    · intro effs w hpow hmay hfetch hlaw hvar hbar hlater hw harm hused
      have hland : landDue s s.cur s.curF = s := landDue_of_none_due fun y hy => Nat.not_le.mpr (hlater y hy)
      have hjudge : judge s s.cur s.curF x slotMeaning = .bubble := judge_of_armed (lawful_static hlaw) (lawful_waveBar hlaw) hvar hw harm hused
      have hrun : bubbleRun s s.cur s.curF = bubbleAt s s.cur s.curF := bubbleRun_of_judge hmay hland hfetch (bundleIn_of_decode hdec ..) hjudge
      exact ⟨_, (powered_of_power hpow _).trans (congrArg _ hrun), bubbleAt_keeps⟩
  · intro q wish slow due
    have hrun := drainPointRun_of_lawful hmay hdrain hfetch hb hlaw
    have htake : ∀ {t : State}, atDrain s s.cur s.curF x (ready slotMeaning) = some t → exec .drainPoint s = .next t := fun ht =>
      (powered_of_power hpow _).trans (congrArg _ (hrun.trans (by rw [ht]; rfl)))
    have hwants : due ↔ yields s.cf x = true ∨ longStall s s.cur = true ∨ s.cf.issue.slice.isSome = true :=
      or_congr (yields_iff hlaw).symm (or_congr_left longStall_iff.symm)
    refine ⟨fun hfail => htake (atDrain_failed hlvl hfail), fun hfail => ⟨fun hwith => htake (atDrain_withdrawn hlvl hfail hwith), fun hwith =>
      ⟨fun t ht => htake (atDrain_trap hlvl hfail hwith ht), fun hnone => ⟨fun hpre => htake (atDrain_preempted hlvl hfail hwith hnone hpre),
        fun hpre hirq => htake (atDrain_interrupted hlvl hfail hwith hnone hpre hirq), fun hpre hirq => ⟨fun hdue hready => ?_, fun hstay => ?_⟩⟩⟩⟩⟩
    · exact ⟨_, htake ((atDrain_switches hlvl hfail hwith hnone hpre hirq).trans (if_pos ⟨hwants.mp hdue, hready⟩)), switchCore_modFrame ..⟩
    · have hnothing : atDrain s s.cur s.curF x (ready slotMeaning) = none := by
        refine (atDrain_switches hlvl hfail hwith hnone hpre hirq).trans (if_neg fun hcond => ?_)
        rcases hstay with hdue | hready
        · exact hdue (hwants.mpr hcond.1)
        · exact Bool.false_ne_true (hready.symm.trans hcond.2)
      exact (powered_of_power hpow _).trans (congrArg _ (hrun.trans (by rw [hnothing]; rfl)))
end

section
/-! SUPPORT. Results that land: one of fixed latency, and one of variable latency (R61, R63, R78, R89, R121 to R123, R144). -/

namespace Sys2Proof.Machine

/-! A result of fixed latency, as its frame sees it. -/

theorem Ctl.orIdz_getLsbD (k : Ctl) (b : Bool) : (k.orIdz b).cstat.getLsbD 1 = (k.cstat.getLsbD 1 || b) := by
  cases b <;> simp [Ctl.orIdz]

theorem addFmtErr_toNat (q : Cube) (n : Nat) : (addFmtErr q n).ctl.fmterr.toNat = min (q.ctl.fmterr.toNat + n) 0xFFFFFFFF := by
  rw [addFmtErr, satAdd32, BitVec.toNat_ofNat]
  exact Nat.mod_eq_of_lt (by omega)

section
variable (r : Frame) (l : Landing)

/-- A result of any file leaves what is in flight and the PC, and its flags join the status. -/
theorem landOne_status : (landOne r l).fl = r.fl ∧ (landOne r l).issue.pc = r.issue.pc ∧ (landOne r l).ctl.fstat = r.ctl.fstat ||| l.flags ∧
    (landOne r l).ctl.cstat = ((r.ctl.orFlags l.flags).orIdz l.idz).cstat := by
  unfold landOne
  dsimp only
  split <;> exact ⟨rfl, rfl, rfl, rfl⟩

theorem landOne_register (h : l.file < 5) : (landOne r l).regs = r.regs.wr l.file l.reg l.val ∧
    (landOne r l).taint = r.taint.wr l.file l.reg (liveTaint r l.taint) ∧ (landOne r l).ctl.fmt = r.ctl.fmt ∧ (landOne r l).ctl.fid = r.ctl.fid := by
  unfold landOne
  dsimp only
  split
  next hfile => exact absurd (hfile ▸ h) (by decide)
  next hfile => exact absurd (hfile ▸ h) (by decide)
  next => exact ⟨rfl, rfl, rfl, rfl⟩

theorem landOne_format (h : l.file = 5) : (landOne r l).ctl.fmt = l.val.setWidth 16 &&& fmtMask ∧ (landOne r l).regs = r.regs := by
  rw [landOne, h]
  exact ⟨rfl, rfl⟩

theorem landOne_fidelity (h : l.file = 6) : (landOne r l).ctl.fid = l.val.setWidth 6 ∧ (landOne r l).regs = r.regs := by
  rw [landOne, h]
  exact ⟨rfl, rfl⟩

end

/-! The one result of a frame, at its landing bundle. -/

/-- The frame once its fixed-latency results have left flight. -/
def Frame.landed (r : Frame) : Frame := { r with fl := { r.fl with land := [] } }

section
variable {s : State} {c : CubeId} {f : FrameId} {l : Landing}

theorem landDue_of_single (hland : (s.frame c f).fl.land = [l]) (hdue : l.due ≤ (s.frame c f).issue.nb) :
    landDue s c f = landIn c f (s.modFrame c f Frame.landed) l := by
  simp [landDue, hland, hdue, State.modFrame, Frame.landed]

theorem landIn_frame (hpoison : l.poison = none) : (landIn c f s l).frame c f = landOne (s.frame c f) l := by
  rw [landIn, hpoison]
  dsimp only
  rw [State.frame_modCube_same]
  exact State.frame_modFrame_same ..

theorem landIn_fmterr (hpoison : l.poison = none) :
    ((landIn c f s l).cube c).ctl.fmterr.toNat = min ((s.cube c).ctl.fmterr.toNat + l.inc) 0xFFFFFFFF := by
  rw [landIn, hpoison]
  dsimp only
  rw [State.cube_modCube_same, addFmtErr_toNat, State.modFrame, State.setFrame, State.cube_modCube_same]
  rfl

theorem landIn_mem (hpoison : l.poison = none) : (landIn c f s l).mem = s.mem := by
  rw [landIn, hpoison]
  rfl

/-- A poisoned result leaves its register, and its trap is due (R78). -/
theorem landDue_of_poisoned {line : Nat} {info : OpInfo} (hland : (s.frame c f).fl.land = [l]) (hdue : l.due ≤ (s.frame c f).issue.nb)
    (hpoison : l.poison = some (line, info)) :
    landDue s c f = s.modFrame c f fun r => { r with fl := { r.fl with land := [], traps := r.fl.traps ++ [poisonTrap info line] } } := by
  rw [landDue_of_single hland hdue, landIn, hpoison]
  exact State.modFrame_modFrame ..

end

/-! A result of variable latency. -/

section
variable {r : Frame} {x : VarRes} {v : VReg} {fl : BitVec 5}

theorem landArrived_of_single (hvar : r.fl.var = [x]) : landArrived r = landVar r x := by
  rw [landArrived, hvar]
  rfl

theorem landVar_of_absent (hval : x.val = none) : landVar r x = r := by
  rw [landVar, hval]

theorem filter_var_of_single (hvar : r.fl.var = [x]) : r.fl.var.filter (fun y => decide (y.id ≠ x.id)) = [] := by
  simp [hvar]

theorem landArrived_of_poisoned {line : Nat} (hvar : r.fl.var = [x]) (hval : x.val = some (v, fl, some line)) :
    landArrived r = { r with fl := { r.fl with var := [], due := r.fl.due ++ [⟨poisonTrap x.info line, some (x.file, x.reg), 63⟩] } } := by
  rw [landArrived_of_single hvar, landVar, hval]
  dsimp only
  rw [filter_var_of_single hvar]

theorem landArrived_of_value (hvar : r.fl.var = [x]) (hval : x.val = some (v, fl, none)) :
    (landArrived r).fl = { r.fl with var := [] } ∧ (landArrived r).regs = r.regs.wr x.file x.reg v ∧
    (landArrived r).ctl.fstat = r.ctl.fstat ||| fl ∧
    (landArrived r).taint = r.taint.wr x.file x.reg (match r.taint.out.find? (·.1 = x.id) with | some (_, g) => 1#32 <<< g | none => 0) := by
  rw [landArrived_of_single hvar, landVar, hval]
  dsimp only
  rw [filter_var_of_single hvar]
  exact ⟨rfl, rfl, rfl, rfl⟩

end

end Sys2Proof.Machine
end

section
open Sys2Proof Sys2Proof.Machine

/-- Settles O35: a due result lands by `landOne`, a poisoned one leaves the frame but for its trap, and a result of variable latency
lands by `landVar`. -/
theorem resultsLand : Obligations.ResultsLand := by
  unfold Obligations.ResultsLand
  intro s l hpow hland c d
  have hland' : (s.frame s.cur s.curF).fl.land = [l] := hland
  have hfixed : exec .resultLand s = .next (landDue s s.cur s.curF) := powered_of_power hpow _
  have hvariable : exec .variableResultLand s = .next (s.modCf landArrived) := powered_of_power hpow _
  refine ⟨fun hdue hpoison => ⟨_, hfixed, ?_⟩, fun hdue line info hpoison => ?_, fun hlater => ?_, fun x hvar hval => ?_,
    fun x v fl line hvar hval => ?_, fun x v fl hvar hval => ⟨_, hvariable, ?_⟩⟩
  · have hframe : (landDue s s.cur s.curF).frame s.cur s.curF = landOne s.cf.landed l := by
      rw [landDue_of_single hland' hdue, landIn_frame hpoison, State.frame_modFrame_same]
      rfl
    obtain ⟨hfl, hpc, hfstat, hcstat⟩ := landOne_status s.cf.landed l
    dsimp only
    rw [hframe]
    refine ⟨hfl, ?_, hpc, hfstat, ?_, ?_, landOne_register s.cf.landed l, landOne_format s.cf.landed l, landOne_fidelity s.cf.landed l⟩
    · rw [landDue_of_single hland' hdue, landIn_mem hpoison]
      rfl
    · rw [hcstat, Ctl.orIdz_getLsbD]
      rfl
    · rw [landDue_of_single hland' hdue, landIn_fmterr hpoison, State.modFrame, State.setFrame, State.cube_modCube_same]
      rfl
  · rw [hfixed, landDue_of_poisoned hland' hdue hpoison]
    rfl
  · rw [hfixed, landDue_of_none_due fun y hy => ?_]
    rw [hland', List.mem_singleton] at hy
    exact hy ▸ Nat.not_le.mpr hlater
  · rw [hvariable, State.modCf, modFrame_self s _ _ _ ((landArrived_of_single hvar).trans (landVar_of_absent hval))]
  · exact hvariable.trans (congrArg _ (modFrame_congr s _ _ _ _ (landArrived_of_poisoned hvar hval)))
  · have hframe : (s.modCf landArrived).frame s.cur s.curF = landArrived s.cf := State.frame_modFrame_same ..
    obtain ⟨hfl, hregs, hfstat, htaint⟩ := landArrived_of_value hvar hval
    dsimp only
    rw [hframe]
    exact ⟨hfl, hregs, hfstat, rfl, htaint⟩
end

section
/-! SUPPORT. Writes of control registers: what `crw` does where it is allowed, and its trap where it is not (R61, R144, R272, R311 to
R315). -/

namespace Sys2Proof.Machine

/-! A slot at a quiet core changes the running frame, or the machine, as it stands. -/

theorem State.issued_congr {s : State} {g h : Frame → Frame} (heq : g s.cf = h s.cf) : s.issued g = s.issued h :=
  congrArg (fun t : State => t.modCube s.cur fun q => { q with stallSince := none })
    (modFrame_congr s s.cur s.curF _ _ (congrArg (advanced s.nextPc 0 true) heq))

theorem State.acted_congr {s : State} {g h : State → State} (heq : g s = h s) : s.acted g = s.acted h := by
  rw [State.acted, heq, State.acted]

/-- A slot that acts on cubes and leaves every frame: the machine after it. -/
theorem solo_acts_of_frames {s : State} {i : Instr} {x : SlotIns} {m : Ctx → State → SlotRes} {act : State → State} (hq : s.quiet = true)
    (hw : i.wf = true) (h : soloSlot i = some x) (hp : plain s.cf i = true) (hm : m (s.ctx i) s = .ok { act := act })
    (hframe : (act s).frame s.cur s.curF = s.cf) : solo s i m = .next (s.acted act) := by
  obtain ⟨-, -, -, hquiet⟩ := State.quiet_parts hq
  exact solo_acts s hq hw h hp hm ⟨rfl, rfl, rfl, rfl, rfl, rfl, rfl, rfl⟩
    ((congrArg (·.issue.preempt) hframe).trans (quiet_preempt hquiet)) ((congrArg (·.issue.slice) hframe).trans (quiet_slice hquiet))

/-! `crw` by what its register allows (R311). -/

/-- A cube whose control registers a write has changed. -/
def Cube.modCtl (g : CubeCtl → CubeCtl) (q : Cube) : Cube := { q with ctl := g q.ctl }

section
variable {s : State} {x : Reg} {n : BitVec 12}

theorem slotCrw_of_none {k : Ctx} (h : crnWrite k.r n.toNat (k.rd .x x) = none) : slotCrw x n k s = .error (k.illegal (n.setWidth 64)) := by
  rw [slotCrw, h]

theorem slotCrw_of_some {k : Ctx} {g : Frame → Frame} {u : Cube → Cube} (h : crnWrite k.r n.toNat (k.rd .x x) = some (g, u)) :
    slotCrw x n k s = .ok { act := fun t => (t.modFrame k.c k.f g).modCube k.c u } := by
  rw [slotCrw, h]

variable (hq : s.quiet = true)
include hq

/-- A write that is not allowed is an illegal operation. -/
theorem exec_crw_of_none (h : crnWrite s.cf n.toNat (s.reg .x x) = none) :
    exec (.crw x n) s = .next (s.traps (.crw x n) 15 (n.setWidth 64)) :=
  solo_trap s hq rfl rfl rfl (slotCrw_of_none h)

/-- A write of a register of the frame. -/
theorem exec_crw_of_frame {g : Frame → Frame} (h : crnWrite s.cf n.toNat (s.reg .x x) = some (g, id)) (hg : ∀ r, (g r).issue = r.issue) :
    exec (.crw x n) s = .next (s.issued g) :=
  solo_frameOnly s g hq rfl rfl rfl (slotCrw_of_some h) ⟨rfl, rfl, rfl, rfl, rfl, rfl, rfl, rfl⟩ (funext fun _ => modCube_self rfl) hg

/-- A write of a register of the cube. -/
theorem exec_crw_of_cube {g : CubeCtl → CubeCtl} (h : crnWrite s.cf n.toNat (s.reg .x x) = some (id, Cube.modCtl g)) :
    exec (.crw x n) s = .next (s.acted fun u => u.modCube s.cur (Cube.modCtl g)) := by
  have hself : s.modFrame s.cur s.curF id = s := modFrame_self s _ _ _ rfl
  have hact : (s.modFrame s.cur s.curF id).modCube s.cur (Cube.modCtl g) = s.modCube s.cur (Cube.modCtl g) :=
    congrArg (·.modCube s.cur (Cube.modCtl g)) hself
  have hframe : (s.modCube s.cur (Cube.modCtl g)).frame s.cur s.curF = s.cf := State.frame_modCube_same ..
  exact (solo_acts_of_frames hq rfl rfl rfl (slotCrw_of_some h) ((congrArg (·.frame s.cur s.curF) hact).trans hframe)).trans
    (congrArg _ (State.acted_congr hact))

/-- A write of a register of the cube that has a range: outside it an illegal operation. -/
theorem exec_crw_of_range {g : CubeCtl → CubeCtl} {p : Prop} [Decidable p]
    (h : crnWrite s.cf n.toNat (s.reg .x x) = if p then some (id, Cube.modCtl g) else none) :
    if p then exec (.crw x n) s = .next (s.acted fun u => u.modCube s.cur (Cube.modCtl g))
    else exec (.crw x n) s = .next (s.traps (.crw x n) 15 (n.setWidth 64)) := by
  split
  next hin => exact exec_crw_of_cube hq (h.trans (if_pos hin))
  next hout => exact exec_crw_of_none hq (h.trans (if_neg hout))

end

/-! What each register allows (R311). -/

/-- The registers that no level writes. -/
theorem crnWrite_readOnly (r : Frame) (v : Word) : ∀ n : BitVec 12,
    n ∈ [0x000, 0x001, 0x002, 0x008, 0x009, 0x00C, 0x010, 0x102, 0x103, 0x104, 0x105, 0x106, 0x107, 0x300] → crnWrite r n.toNat v = none := by
  simp [crnWrite]

section
variable {r : Frame}

/-- The registers that level S alone writes. -/
theorem crnWrite_levelU (h : r.priv.lvl = false) (v : Word) : ∀ n : BitVec 12,
    n ∈ [0x00D, 0x00E, 0x00F, 0x100, 0x101, 0x108, 0x109, 0x10A, 0x200, 0x201, 0x210, 0x211, 0x212, 0x213, 0x214, 0x040] →
    crnWrite r n.toNat v = none := by
  simp [crnWrite, h]

end

section
variable (r : Frame) (v : Word)

theorem crnWrite_fstat : crnWrite r 0x00A v = some (fun r => { r with ctl := writeFstat r.ctl r.issue.lflags v }, id) := rfl
theorem crnWrite_cstat : crnWrite r 0x00B v = some (fun r => { r with ctl := writeCstat r.ctl r.issue.lflags v }, id) := rfl

end

/-! At level S. -/

section
variable {r : Frame} (h : r.priv.lvl = true) (v : Word)
include h

theorem crnWrite_ctaint : crnWrite r 0x00D v = some (withCt (v.setWidth 32), id) := if_pos h
theorem crnWrite_accform : crnWrite r 0x00F v = some (fun r => { r with ctl := { r.ctl with form := v.setWidth 32 } }, id) := if_pos h
theorem crnWrite_priv : crnWrite r 0x100 v = some (fun r => { r with priv := { r.priv with
    disp := if bits v.toNat 8 2 = 3 then r.priv.disp else BitVec.ofNat 2 (bits v.toNat 8 2) } }, id) := if_pos h
theorem crnWrite_priv_of_reserved (hres : bits v.toNat 8 2 = 3) : crnWrite r 0x100 v = some (id, id) :=
  (crnWrite_priv h v).trans (by simp only [hres, if_true]; rfl)
theorem crnWrite_priv_of_ne (hres : bits v.toNat 8 2 ≠ 3) :
    crnWrite r 0x100 v = some (fun r => { r with priv := { r.priv with disp := BitVec.ofNat 2 (bits v.toNat 8 2) } }, id) :=
  (crnWrite_priv h v).trans (by simp only [hres, if_false])
theorem crnWrite_ctxptr :
    crnWrite r 0x108 v = some (fun r => { r with priv := { r.priv with ctxptr := w64 (4096 * bits v.toNat 12 30) } }, id) := by
  rw [Nat.mul_comm]
  exact (if_pos h).trans (by rw [Nat.shiftLeft_eq])
theorem crnWrite_ctxva :
    crnWrite r 0x109 v = some (fun r => { r with priv := { r.priv with ctxva := w64 (bits v.toNat 0 56) } }, id) := if_pos h

omit h in
/-- What is allowed at level S alone, within a range. -/
theorem allowed_levelS {lvl ok : Bool} {p : Prop} [Decidable p] (h : lvl = true) (hok : ok = true ↔ p) (e : CrwEff) :
    (if lvl && ok then e else none) = if p then e else none :=
  if_congr (by rw [h, Bool.true_and, hok]) rfl rfl

theorem crnWrite_fmterr : crnWrite r 0x00E v = some (id, Cube.modCtl fun k => { k with fmterr := v.setWidth 32 }) :=
  if_pos ((Bool.and_true _).trans h)
theorem crnWrite_tvec : crnWrite r 0x101 v = some (id, Cube.modCtl fun k => { k with tvec := w64 (64 * bits v.toNat 6 50) }) := by
  rw [Nat.mul_comm]
  exact (if_pos ((Bool.and_true _).trans h)).trans (by rw [Nat.shiftLeft_eq]; rfl)
theorem crnWrite_dplimit :
    crnWrite r 0x10A v = some (id, Cube.modCtl fun k => { k with dplimit := if bits v.toNat 0 32 = 0 then 1 else v.setWidth 32 }) :=
  if_pos ((Bool.and_true _).trans h)
theorem crnWrite_floor : crnWrite r 0x200 v =
    if bits v.toNat 0 10 ≤ 828 then some (id, Cube.modCtl fun k => { k with floor := bits v.toNat 0 10 }) else none :=
  allowed_levelS h decide_eq_true_iff _
theorem crnWrite_ramp : crnWrite r 0x201 v = some (id, Cube.modCtl fun k => { k with ramp := bits v.toNat 0 16 }) :=
  if_pos ((Bool.and_true _).trans h)
theorem crnWrite_unsched : crnWrite r 0x210 v = if bits v.toNat 0 15 % 64 = 0 ∧ bits v.toNat 0 15 ≤ 16384 then
    some (id, Cube.modCtl fun k => { k with unsched := bits v.toNat 0 15 }) else none :=
  allowed_levelS h (by simp) _
theorem crnWrite_grantq :
    crnWrite r 0x211 v = if bits v.toNat 0 19 % 4096 = 0 ∧ 4096 ≤ bits v.toNat 0 19 ∧ bits v.toNat 0 19 ≤ 262144 then
      some (id, Cube.modCtl fun k => { k with grantq := bits v.toNat 0 19 }) else none :=
  allowed_levelS h (by simp [and_assoc]) _
theorem crnWrite_grantmax : crnWrite r 0x212 v = if 1 ≤ bits v.toNat 0 6 ∧ bits v.toNat 0 6 ≤ 32 then
    some (id, Cube.modCtl fun k => { k with grantmax := bits v.toNat 0 6 }) else none :=
  allowed_levelS h (by simp) _
theorem crnWrite_tokexp : crnWrite r 0x213 v = if 1 ≤ bits v.toNat 0 10 ∧ bits v.toNat 0 10 ≤ 1000 then
    some (id, Cube.modCtl fun k => { k with tokexp := bits v.toNat 0 10 }) else none :=
  allowed_levelS h (by simp) _
theorem crnWrite_orphto : crnWrite r 0x214 v = if 100 ≤ bits v.toNat 0 20 ∧ bits v.toNat 0 20 ≤ 1000000 then
    some (id, Cube.modCtl fun k => { k with orphto := bits v.toNat 0 20 }) else none :=
  allowed_levelS h (by simp) _

/-- A counter of `BEC`, of which every fourth number is no register of its own. -/
theorem crnWrite_bec {i : Nat} (hi : i < 32) : crnWrite r (BitVec.ofNat 12 (0x40 + i)).toNat v = some (id, Cube.modCtl fun k =>
    if i % 4 = 3 then k else { k with bec := k.bec.set (i % 32) (v.setWidth 32) (Nat.mod_lt _ (by decide)) }) := by
  have hn : (BitVec.ofNat 12 (0x40 + i)).toNat = 0x40 + i := by
    rw [BitVec.toNat_ofNat]
    omega
  have hmod : (0x40 + i) % 4 = i % 4 := by omega
  rw [hn, crnWrite]
  split
  all_goals try omega
  simp only [h, hmod, Nat.add_sub_cancel_left, Bool.and_true, if_true]
  rfl
theorem crnWrite_bec_of_unnamed {i : Nat} (hi : i < 32) (hname : i % 4 = 3) :
    crnWrite r (BitVec.ofNat 12 (0x40 + i)).toNat v = some (id, Cube.modCtl id) :=
  (crnWrite_bec h v hi).trans (by simp only [hname, if_true]; rfl)
theorem crnWrite_bec_of_named {i : Nat} (hi : i < 32) (hname : i % 4 ≠ 3) : crnWrite r (BitVec.ofNat 12 (0x40 + i)).toNat v =
    some (id, Cube.modCtl fun k => { k with bec := k.bec.set (i % 32) (v.setWidth 32) (Nat.mod_lt _ (by decide)) }) :=
  (crnWrite_bec h v hi).trans (by simp only [hname, if_false])

end

end Sys2Proof.Machine
end

section
/-! SUPPORT. Invalidation of TLB entries: which entries `tlbi` drops, in which cubes, and that nothing else of the machine changes (R275,
R359). -/

namespace Sys2Proof.Machine

/-! A cube after an invalidation. -/

/-- Of a first level or the last, an invalidation leaves the entries it does not name. -/
theorem mem_tlbDrop {l : Tlb → List TlbEnt} (hl : l = Tlb.last ∨ ∃ src, l = fun x => x.first src) {q : Cube} {p : TlbEnt → Bool} {e : TlbEnt} :
    e ∈ l (tlbDrop q p).tlb ↔ e ∈ l q.tlb ∧ ¬ p e = true := by
  rcases hl with rfl | ⟨src, rfl⟩
  · simp [tlbDrop]
  · cases src <;> simp [tlbDrop, Tlb.first]

/-- The entries an invalidation names: a page under the task's own identifier, an identifier, or all of the partition. -/
theorem tlbiHits_iff {kind part : Nat} {asid : BitVec 16} {w : Word} {e : TlbEnt} : tlbiHits kind part asid w e = true ↔ e.part = part ∧
    (kind % 4 = 0 → e.asid = asid ∧ e.page = (w.toNat % 2 ^ 56) / 2 ^ e.lg) ∧ (kind % 4 = 1 → e.asid = w.setWidth 16) := by
  unfold tlbiHits
  split
  next hkind => simp [hkind, TlbEnt.hits, bits, Nat.shiftRight_eq_div_pow, and_assoc]
  next hkind => simp [hkind]
  next hpage hasid =>
    rw [decide_eq_true_iff]
    exact ⟨fun hpart => ⟨hpart, fun h => (hpage h).elim, fun h => (hasid h).elim⟩, And.left⟩

/-! The cubes that an invalidation reaches. -/

/-- This cube, or every cube of the partition. -/
def tlbiCubes (s : State) (c : CubeId) (kind part : Nat) : List CubeId :=
  if kind < 4 then [c]
  else match partOf s part with
    | some d => allCubes.filter fun c => d.cubes.getLsbD c.val
    | none => [c]

theorem tlbiCubes_nodup (s : State) (c : CubeId) (kind part : Nat) : (tlbiCubes s c kind part).Nodup := by
  unfold tlbiCubes
  split
  next => exact List.nodup_singleton c
  next =>
    split
    next => exact List.Nodup.filter _ (by decide)
    next => exact List.nodup_singleton c

theorem mem_tlbiCubes {s : State} {c d : CubeId} {kind part : Nat} : d ∈ tlbiCubes s c kind part ↔
    if kind < 4 then d = c else match partOf s part with | some p => p.cubes.getLsbD d.val = true | none => d = c := by
  unfold tlbiCubes
  split
  next => exact List.mem_singleton
  next =>
    cases partOf s part with
    | some p => simp [mem_allCubes]
    | none => exact List.mem_singleton

/-- Every cube reached drops the entries named. -/
def dropIn (p : TlbEnt → Bool) (s : State) (l : List CubeId) : State := l.foldl (fun s c => s.modCube c fun q => tlbDrop q p) s

section
variable (p : TlbEnt → Bool) (s : State) (l : List CubeId)

/-- What no cube's invalidation changes, that of a list does not change. -/
theorem dropIn_keeps {α : Type} (g : State → α) (h : ∀ s c, g (s.modCube c fun q => tlbDrop q p) = g s) : g (dropIn p s l) = g s :=
  foldl_keeps g h l s

theorem dropIn_frame (c : CubeId) (f : FrameId) : (dropIn p s l).frame c f = s.frame c f := by
  refine dropIn_keeps p s l (fun t => t.frame c f) fun t d => ?_
  rw [State.frame, State.cube_modCube]
  split
  next hc => exact hc ▸ rfl
  next => rfl

theorem dropIn_cube (hl : l.Nodup) (c : CubeId) : (dropIn p s l).cube c = if c ∈ l then tlbDrop (s.cube c) p else s.cube c :=
  cube_foldl_modCube (fun q => tlbDrop q p) c l s hl

variable {p s l} in
theorem mem_dropIn {g : Tlb → List TlbEnt} (hg : g = Tlb.last ∨ ∃ src, g = fun x => x.first src) (hl : l.Nodup) {c : CubeId} {e : TlbEnt} :
    e ∈ g ((dropIn p s l).cube c).tlb ↔ e ∈ g (s.cube c).tlb ∧ ¬ (p e = true ∧ c ∈ l) := by
  rw [dropIn_cube p s l hl]
  split
  next hc => simp only [mem_tlbDrop hg, hc, and_true]
  next hc => simp only [hc, and_false, not_false_eq_true, and_true]

end

/-! The slot. -/

section
variable {kind : BitVec 3} {adr : Reg} {s : State}

theorem slotTlbi_illegal {k : Ctx} (h : k.r.priv.lvl = false ∨ (kind.toNat % 4 = 1 ∧ bits (k.rd .a adr).toNat 16 48 ≠ 0)) :
    slotTlbi kind adr k s = .error k.illegal := by
  cases hlvl : k.r.priv.lvl with
  | false => simp [slotTlbi, hlvl]
  | true =>
    have hasid := h.resolve_left (by simp [hlvl])
    simp [slotTlbi, hlvl, hasid]

/-- The identifiers of a task's own space are those of the task (R359). -/
theorem slotTlbi_legal {k : Ctx} {t : Task} (hlvl : k.r.priv.lvl = true) (hasid : kind.toNat % 4 = 1 → bits (k.rd .a adr).toNat 16 48 = 0)
    (htask : k.r.task = some t) : slotTlbi kind adr k s = .ok
      { act := fun u => dropIn (tlbiHits kind.toNat t.part t.asid (k.rd .a adr)) u (tlbiCubes u k.c kind.toNat t.part) } := by
  have hpart : k.r.part = t.part := by rw [Frame.part, htask]
  have hlegal : ¬ (kind.toNat % 4 = 1 ∧ bits (k.rd .a adr).toNat 16 48 ≠ 0) := fun h => h.2 (hasid h.1)
  simp only [slotTlbi, hlvl, Bool.not_true, Bool.false_eq_true, if_false, if_neg hlegal, htask, hpart]
  refine congrArg (fun act => (.ok { act := act } : SlotRes)) (funext fun u => ?_)
  unfold dropIn tlbiCubes
  split
  next => rfl
  next => cases partOf u t.part <;> rfl

end

/-! The machine after the bundle. -/

/-- A cube after a bundle in sequence of its running frame (R5, R109). -/
def issuedCube (s : State) (q : Cube) : Cube :=
  { q.setFrame s.curF (advanced s.nextPc 0 true (q.frame s.curF)) with stallSince := none }

theorem State.acted_cube (s : State) (act : State → State) (c : CubeId) :
    (s.acted act).cube c = if c = s.cur then issuedCube s ((act s).cube c) else (act s).cube c := by
  rw [State.acted, State.cube_modCube, State.modFrame, State.setFrame, State.cube_modCube_same, State.cube_modCube]
  split
  next hc => subst hc; rfl
  next => rfl

theorem State.acted_tlb (s : State) (act : State → State) (c : CubeId) : ((s.acted act).cube c).tlb = ((act s).cube c).tlb := by
  rw [State.acted_cube]
  split <;> rfl

/-- Where the act changes nothing of a cube but its TLBs, the bundle leaves it as one that does nothing, but for its TLBs. -/
theorem State.acted_cube_but_tlb {s : State} {act : State → State} {c : CubeId} (t : Tlb)
    (h : { (act s).cube c with tlb := t } = { s.cube c with tlb := t }) :
    { (s.acted act).cube c with tlb := t } = { (s.issued id).cube c with tlb := t } := by
  rw [show s.issued id = s.acted id from rfl, State.acted_cube, State.acted_cube]
  split
  next => exact congrArg (issuedCube s) h
  next => exact h

end Sys2Proof.Machine
end

section
open Sys2Proof Sys2Proof.Machine

/-- Settles O31: a `crw` does what `crnWrite` allows of its register, and a `tlbi` drops what `tlbiHits` names in the cubes of
`tlbiCubes`. -/
theorem controlWritesAndInvalidation : Obligations.ControlWritesAndInvalidation := by
  unfold Obligations.ControlWritesAndInvalidation
  refine ⟨fun s x hq => ?_, fun s kind adr t hq hwf htask => ?_⟩
  · intro v w onFrame onCube refused
    have hframe : ∀ n {g}, crnWrite s.cf n.toNat v = some (g, id) → (∀ r, (g r).issue = r.issue) → onFrame n g := fun _ _ => exec_crw_of_frame hq
    have hcube : ∀ n {g}, crnWrite s.cf n.toNat v = some (id, Cube.modCtl g) → onCube n g := fun _ _ => exec_crw_of_cube hq
    have hrange : ∀ n {g} {p : Prop} [Decidable p], crnWrite s.cf n.toNat v = (if p then some (id, Cube.modCtl g) else none) →
        if p then onCube n g else refused n := fun _ _ _ _ => exec_crw_of_range hq
    refine ⟨fun hland => ⟨?_, ?_⟩, fun n hn => exec_crw_of_none hq (crnWrite_readOnly s.cf v n hn),
      fun hlvl n hn => exec_crw_of_none hq (crnWrite_levelU hlvl v n hn), fun hlvl => ?_⟩
    · exact (hframe 0x00A (crnWrite_fstat s.cf v) fun _ => rfl).trans (congrArg _ (State.issued_congr (by simp [hland, writeFstat])))
    · exact (hframe 0x00B (crnWrite_cstat s.cf v) fun _ => rfl).trans (congrArg _ (State.issued_congr (by simp [hland, writeCstat])))
    exact ⟨hframe 0x00D (crnWrite_ctaint hlvl v) fun _ => rfl, hcube 0x00E (crnWrite_fmterr hlvl v),
      hframe 0x00F (crnWrite_accform hlvl v) fun _ => rfl, fun hres => hframe 0x100 (crnWrite_priv_of_reserved hlvl v hres) fun _ => rfl,
      fun hres => hframe 0x100 (crnWrite_priv_of_ne hlvl v hres) fun _ => rfl, hcube 0x101 (crnWrite_tvec hlvl v),
      hframe 0x108 (crnWrite_ctxptr hlvl v) fun _ => rfl, hframe 0x109 (crnWrite_ctxva hlvl v) fun _ => rfl,
      hcube 0x10A (crnWrite_dplimit hlvl v), fun i hi hname => hcube _ (crnWrite_bec_of_unnamed hlvl v hi hname),
      fun i hi hname => hcube _ (crnWrite_bec_of_named hlvl v hi hname), hrange 0x200 (crnWrite_floor hlvl v), hcube 0x201 (crnWrite_ramp hlvl v),
      hrange 0x210 (crnWrite_unsched hlvl v), hrange 0x211 (crnWrite_grantq hlvl v), hrange 0x212 (crnWrite_grantmax hlvl v),
      hrange 0x213 (crnWrite_tokexp hlvl v), hrange 0x214 (crnWrite_orphto hlvl v)⟩
  · intro w named
    have hkeeps := @dropIn_keeps (tlbiHits kind.toNat t.part t.asid w) s (tlbiCubes s s.cur kind.toNat t.part)
    have hplain : plain s.cf (.tlbi kind adr) = true := rfl
    refine ⟨fun hbad => solo_trap s hq hwf rfl hplain (slotTlbi_illegal hbad), fun hlvl hasid => ⟨_, solo_acts_of_frames hq hwf rfl hplain
      (slotTlbi_legal hlvl hasid htask) (dropIn_frame ..), fun c l hl e => ?_, hkeeps State.mem fun _ _ => rfl, hkeeps State.poison fun _ _ => rfl,
      hkeeps State.merge fun _ _ => rfl, hkeeps State.hub fun _ _ => rfl, hkeeps State.teasel fun _ _ => rfl, fun c => State.acted_cube_but_tlb _ ?_⟩⟩
    · rw [State.acted_tlb]
      exact (mem_dropIn hl (tlbiCubes_nodup ..)).trans (and_congr_right' (not_congr (and_congr tlbiHits_iff mem_tlbiCubes)))
    · rw [dropIn_cube _ _ _ (tlbiCubes_nodup ..)]
      split <;> rfl
end

section
/-! SUPPORT. Global memory with its poison, as one part of the machine, and all that leaves it as it is (R65, R76). -/

namespace Sys2Proof.Machine

/-- Global memory and the poison of its lines (R65, R76). -/
def State.memory (s : State) : List Host.Cell × FMap Bool := (s.mem, s.poison)

@[simp] theorem memory_mk (mem poison merge nextMid cubes hub teasel pkg cur now fresh agenda) :
    (State.mk mem poison merge nextMid cubes hub teasel pkg cur now fresh agenda).memory = (mem, poison) := (rfl)
@[simp] theorem memory_eta (s : State) : (s.mem, s.poison) = s.memory := (rfl)

@[simp] theorem memory_foldl {α : Type} {g : State → α → State} (h : ∀ s x, (g s x).memory = s.memory) (l : List α) (s : State) :
    (l.foldl g s).memory = s.memory :=
  foldl_keeps State.memory h l s

section
variable {s : State} {c : CubeId} {f : FrameId} {fn : Fin 4} {k : Rec} {z : Fin 8}
  {a n id i part launch gang gi msgid pkg src reason code line : Nat}

/-! Parts of the machine. -/

@[simp] theorem State.memory_setCube {q : Cube} : (s.setCube c q).memory = s.memory := (rfl)
@[simp] theorem State.memory_modCube {g : Cube → Cube} : (s.modCube c g).memory = s.memory := (rfl)
@[simp] theorem State.memory_setFrame {r : Frame} : (s.setFrame c f r).memory = s.memory := (rfl)
@[simp] theorem State.memory_modFrame {g : Frame → Frame} : (s.modFrame c f g).memory = s.memory := (rfl)
@[simp] theorem State.memory_modCf {g : Frame → Frame} : (s.modCf g).memory = s.memory := (rfl)
@[simp] theorem State.memory_modHub {g : Hub → Hub} : (s.modHub g).memory = s.memory := (rfl)
@[simp] theorem State.memory_modTeasel {g : Teasel → Teasel} : (s.modTeasel g).memory = s.memory := (rfl)
@[simp] theorem memory_logEvent {cube : Nat} {payload : List Word} : (logEvent s code cube payload).memory = s.memory := (rfl)
@[simp] theorem memory_modRec {g : Rec → Rec} : (modRec s part id g).memory = s.memory := (rfl)
@[simp] theorem memory_modGang {g : Gang → Gang} : (modGang s part id i g).memory = s.memory := (rfl)

/-! Signals, phases and the records of the hub (R102 to R106). -/

@[simp] theorem memory_takePhase {k : BarKind} {bid ph : Nat} {m : Nat × Nat} : (takePhase s part launch gang k bid ph m).memory = s.memory := (rfl)
@[simp] theorem memory_arrive {k : BarKind} {bid ph : Nat} {m : Nat × Nat} : (arrive s part launch gang k bid ph m).memory = s.memory := (rfl)
@[simp] theorem memory_post {q : RemoteReq} : (post s q).memory = s.memory := (rfl)
@[simp] theorem memory_postHeld : (postHeld s).memory = s.memory := (rfl)
@[simp] theorem memory_sendFar {lane : Nat} {m : RemoteKind} {tag : Option ReqTag} : (sendFar s part c pkg lane m tag).memory = s.memory := (rfl)

@[simp] theorem memory_wire {info : OpInfo} {op : Nat} {va : Word} {m : RemoteKind} : (wire s c f a info op va m).memory = s.memory := by
  simp only [wire]
  split <;> simp

@[simp] theorem memory_tellSpan {m : RemoteKind} {tag : Option ReqTag} : (tellSpan s part c k m tag).memory = s.memory := by simp [tellSpan]

@[simp] theorem memory_arriveAll {info : OpInfo} {op : Nat} {k : BarKind} {bid ph : Nat} : (arriveAll s c f info op k bid ph).memory = s.memory := by
  simp only [arriveAll]
  (repeat' split) <;> simp

@[simp] theorem memory_engineArrive {info : OpInfo} {op : Nat} {b : Option (Nat × Nat)} : (engineArrive s c f info op b).memory = s.memory := by
  simp only [engineArrive]
  split <;> simp

/-! Walks (R356, R358). -/

@[simp] theorem memory_logFail {c : Nat} {asid : BitVec 16} {va : Nat} {w : Except WalkFail TlbEnt} :
    (logFail s c part asid va w).memory = s.memory := by
  simp only [logFail]
  (repeat' split) <;> simp

@[simp] theorem memory_logWalk {src : Stream} {va : Nat} : (logWalk s c f src va).memory = s.memory := by simp [logWalk]

/-! Accesses of global memory (R83 to R91). -/

@[simp] theorem memory_lineReq {e : LsEnt} {l : Line} : (lineReq s c f e l a).memory = s.memory := by
  simp only [lineReq]
  (repeat' split) <;> simp

@[simp] theorem memory_sendLs {e : LsEnt} : (sendLs s c f e i).memory = s.memory := by
  simp only [sendLs]
  (repeat' split) <;> simp

@[simp] theorem memory_pushMerge {w : MergeW} : (pushMerge s w).memory = s.memory := (rfl)

@[simp] theorem memory_acceptWrite : (acceptWrite s c f id line).memory = s.memory := by
  simp only [acceptWrite]
  (repeat' split) <;> simp

@[simp] theorem memory_performAtom : (performAtom s c f id).memory = s.memory := by
  simp only [performAtom]
  (repeat' split) <;> simp

@[simp] theorem memory_loadPerform : (loadPerform s c f id).memory = s.memory := by
  simp only [loadPerform]
  (repeat' split) <;> simp

@[simp] theorem memory_withdrawLs : (withdrawLs s c f).memory = s.memory := by
  simp only [withdrawLs]
  split <;> simp

@[simp] theorem memory_logRemote {r : Frame} {va : Word} {pa kind : Nat} : (logRemote s r c va pa reason kind).memory = s.memory := by
  simp only [logRemote]
  (repeat' split) <;> simp

@[simp] theorem memory_refuseAccess {info : OpInfo} {x : Word × Nat × Nat} {kind : Nat} {drop : Frame → Frame} :
    (refuseAccess s c f info x kind drop).memory = s.memory := by simp [refuseAccess]

/-! Cube operations (R228 to R246). -/

@[simp] theorem memory_implicitLeave {nl : Nat} : (implicitLeave s c f nl).memory = s.memory := by
  simp only [implicitLeave]
  split <;> simp

@[simp] theorem memory_railsMove {m : BitVec 8} {fid : BitVec 6} : (railsMove s c m fid).memory = s.memory := (rfl)
@[simp] theorem memory_touchLayers {m : BitVec 8} : (touchLayers s c m).memory = s.memory := (rfl)
@[simp] theorem memory_wakeLayers {l : List Nat} : (wakeLayers s c l).memory = s.memory := (rfl)

@[simp] theorem memory_cubeStart : (cubeStart s c f).memory = s.memory := by
  simp only [cubeStart]
  (repeat' split) <;> simp

@[simp] theorem memory_cubeFetch : (cubeFetch s c f id i).memory = s.memory := by
  simp only [cubeFetch]
  (repeat' split) <;> simp

@[simp] theorem memory_cubeFetchAll : (cubeFetchAll s c f id).memory = s.memory := by
  simp only [cubeFetchAll]
  split <;> simp

@[simp] theorem memory_cubeLeave {e : CubeEnt} : (cubeLeave s c f e).memory = s.memory := (rfl)
@[simp] theorem memory_cubeEnd {e : CubeEnt} {sig : BitVec 6} {t : TrapInfo} : (cubeEnd s c f e sig t).memory = s.memory := (rfl)
@[simp] theorem memory_cubePoisoned {e : CubeEnt} {sig : BitVec 6} : (cubePoisoned s c f e sig line).memory = s.memory := (rfl)

@[simp] theorem memory_cubeOperandFault : (cubeOperandFault s c f id).memory = s.memory := by
  simp only [cubeOperandFault]
  (repeat' split) <;> simp

/-! Copies and near-memory commands (R252 to R268). -/

@[simp] theorem memory_wakePlace {p : Place} : (wakePlace s c p).memory = s.memory := by
  simp only [wakePlace]
  split <;> simp

@[simp] theorem memory_sendPutf {e : CopyEnt} {adr val : Word} : (sendPutf s c f e adr val).memory = s.memory := by
  simp only [sendPutf]
  (repeat' split) <;> simp

@[simp] theorem memory_wirePlace {e : CopyEnt} {p : Place} {va : Nat} {g : Nat → Nat × RemoteKind} :
    (wirePlace s c f e p va g).memory = s.memory := by
  simp only [wirePlace]
  split <;> simp

@[simp] theorem memory_copyRead {w : Nat} : (copyRead s c f id w).memory = s.memory := by
  simp only [copyRead]
  (repeat' split) <;> simp

@[simp] theorem memory_writeStatus {recA : BitVec 32} {off : Nat} {v : Word} : (writeStatus s c f recA off v).memory = s.memory := (rfl)

@[simp] theorem memory_copyStart : (copyStart s c f).memory = s.memory := by
  simp only [copyStart]
  (repeat' split) <;> simp

@[simp] theorem memory_nmcReturn : (nmcReturn s c f id).memory = s.memory := by
  simp only [nmcReturn]
  (repeat' split) <;> simp

/-! Messages (R256 to R263, R367 to R369). -/

@[simp] theorem memory_setMsg {g : MsgAct → MsgAct} : (setMsg s c f msgid g).memory = s.memory := (rfl)
@[simp] theorem memory_dropMsg : (dropMsg s c f msgid).memory = s.memory := (rfl)

@[simp] theorem memory_sendMsend {e : CopyEnt} {rc : List Word} {cls : BitVec 2} : (sendMsend s c f e rc cls msgid).memory = s.memory := by
  simp only [sendMsend]
  (repeat' split) <;> simp

@[simp] theorem memory_sendNmc {e : CopyEnt} {rc : List Word} : (sendNmc s c f e rc).memory = s.memory := by
  simp only [sendNmc]
  split <;> simp

@[simp] theorem memory_sourceRead {m : MsgAct} : (sourceRead s c f m).memory = s.memory := (rfl)
@[simp] theorem memory_addReq {q : YReq} : (addReq s c q).memory = s.memory := (rfl)
@[simp] theorem memory_modReq {g : YReq → YReq} : (modReq s c n g).memory = s.memory := (rfl)
@[simp] theorem memory_dropReq : (dropReq s c n).memory = s.memory := (rfl)
@[simp] theorem memory_retime : (retime s c).memory = s.memory := (rfl)
@[simp] theorem memory_openHere {rc : CubeId} {q : YReq} {sent pre : Nat} : (openHere s rc q sent pre).memory = s.memory := (rfl)
@[simp] theorem memory_reopen {rc : CubeId} {q : YReq} {sent : Nat} : (reopen s rc q sent).memory = s.memory := (rfl)

@[simp] theorem memory_tellSender {q : YReq} {bytes : Nat} : (tellSender s c q code bytes).memory = s.memory := by
  simp only [tellSender]
  (repeat' split) <;> simp

@[simp] theorem memory_logLine {m : MsgAct} : (logLine s c f m i).memory = s.memory := by
  simp only [logLine]
  (repeat' split) <;> simp

@[simp] theorem memory_farHeader {t : Machine.Task} {m : MsgAct} {lane : Nat} : (farHeader s c f t m pkg lane).memory = s.memory := by
  simp only [farHeader]
  split <;> simp

@[simp] theorem memory_leaveFar {t : Machine.Task} {m : MsgAct} {lane : Nat} : (leaveFar s c f t m pkg lane).memory = s.memory := by
  simp only [leaveFar]
  (repeat' split) <;> simp

@[simp] theorem memory_answer {q : RemoteReq} {at_ : CubeId} {m : RemoteKind} : (answer s q at_ m).memory = s.memory := (rfl)
@[simp] theorem memory_refuseRemote {q : RemoteReq} {at_ : CubeId} {l kind : Nat} : (refuseRemote s q at_ l reason kind).memory = s.memory := (rfl)

@[simp] theorem memory_grantRun : (grantRun s c).memory = s.memory := by
  simp only [grantRun]
  (repeat' split) <;> simp

@[simp] theorem memory_lineDone {q : YReq} {num : Nat} : (lineDone s c q num i).memory = s.memory := (rfl)

@[simp] theorem memory_expireRun {tok : Nat} : (expireRun s c tok).memory = s.memory := by
  simp only [expireRun]
  (repeat' split) <;> simp

@[simp] theorem memory_reRequestRun {asked : Nat → Bool} : (reRequestRun s c n asked).memory = s.memory := by
  simp only [reRequestRun]
  (repeat' split) <;> simp

@[simp] theorem memory_logOrphan {cube bytes : Nat} : (logOrphan s c f pkg cube msgid bytes).memory = s.memory := (rfl)
@[simp] theorem memory_closeReq {rc : CubeId} : (closeReq s rc n).memory = s.memory := (rfl)

@[simp] theorem memory_sendFarLine {m : MsgAct} : (sendFarLine s c f m i).memory = s.memory := by
  simp only [sendFarLine]
  (repeat' split) <;> simp

@[simp] theorem memory_pushRemote {q : RemoteReq} {b : List Byte} : (pushRemote s q a b).memory = s.memory := (rfl)
@[simp] theorem memory_answerData {q : RemoteReq} : (answerData s q a n).memory = s.memory := (rfl)

@[simp] theorem memory_senderHears {q : RemoteReq} : (senderHears s q).memory = s.memory := by
  simp only [senderHears]
  (repeat' split) <;> simp

@[simp] theorem memory_hearRefusal {q : RemoteReq} {l : Nat} : (hearRefusal s q l reason).memory = s.memory := by
  simp only [hearRefusal]
  (repeat' split) <;> simp

@[simp] theorem memory_remoteFault : (remoteFault s c f id).memory = s.memory := by
  simp only [remoteFault]
  (repeat' split) <;> simp

/-! Context blocks (R324 to R330). -/

@[simp] theorem memory_landIn {l : Landing} : (landIn c f s l).memory = s.memory := by
  simp only [landIn]
  split <;> simp

@[simp] theorem memory_landDue : (landDue s c f).memory = s.memory := by simp [landDue]
@[simp] theorem memory_repin : (repin s c f).memory = s.memory := (rfl)

/-! The fetch (R110). -/

@[simp] theorem memory_logFetch {t : TrapInfo} : (logFetch s c f t).memory = s.memory := by
  simp only [logFetch]
  (repeat' split) <;> simp

/-! Quiesce, traps and the return (R318, R319). -/

@[simp] theorem memory_popSync : (popSync s c f).memory = s.memory := (rfl)

@[simp] theorem memory_failGang {cause : Nat} {t2 : Word} : (failGang s c f cause t2).memory = s.memory := by
  simp only [failGang]
  (repeat' split) <;> simp

@[simp] theorem memory_handlerFault {cause : Nat} {t2 : Word} : (handlerFault s c f cause t2).memory = s.memory := by simp [handlerFault]

@[simp] theorem memory_askLeave {base : Nat} : (askLeave s c f base).memory = s.memory := by
  simp only [askLeave]
  split <;> simp

theorem memory_of_loadFrame {s t : State} {c : CubeId} {f : FrameId} (h : loadFrame s c f = some t) : t.memory = s.memory := by
  unfold loadFrame at h
  dsimp only at h
  split at h
  next => cases h
  next =>
    cases h
    simp

@[simp] theorem memory_returnTrap (s : State) (c : CubeId) (f : FrameId) : (returnTrap s c f).memory = s.memory := by
  simp only [returnTrap]
  split
  next => simp
  next =>
    split
    next h => simp [memory_of_loadFrame h]
    next => simp

@[simp] theorem memory_requestPreempt : (requestPreempt s part launch gang).memory = s.memory := by simp [requestPreempt]

@[simp] theorem memory_preemptGang : (preemptGang s part launch gang).memory = s.memory := by
  simp only [preemptGang]
  split <;> simp

@[simp] theorem memory_haltS : (haltS s c f).memory = s.memory := by
  simp only [haltS]
  (repeat' split) <;> simp

@[simp] theorem memory_freeFrame {park : Bool} : (freeFrame s c f park).memory = s.memory := (rfl)

@[simp] theorem memory_settlePreempted : (settlePreempted s part launch gang).memory = s.memory := by
  simp only [settlePreempted]
  (repeat' split) <;> simp

@[simp] theorem memory_asyncRun : (asyncRun s c f).memory = s.memory := by
  simp only [asyncRun]
  split <;> simp

@[simp] theorem memory_copyFault : (copyFault s c f).memory = s.memory := by
  simp only [copyFault]
  (repeat' split) <;> simp

@[simp] theorem memory_queuedFaultRun {src : Stream} : (queuedFaultRun s c f src).memory = s.memory := by
  simp only [queuedFaultRun]
  (repeat' split) <;> simp

@[simp] theorem memory_pageWalkRun {src : Stream} {va : Word} : (pageWalkRun s c f src va).memory = s.memory := by
  simp only [pageWalkRun]
  split <;> simp

/-! The issue of a bundle (R28 to R36, R118 to R124). -/

@[simp] theorem memory_bubbleAt : (bubbleAt s c f).memory = s.memory := (rfl)

@[simp] theorem memory_barArrive {k : BarKind} {bid : BitVec 4} {info : OpInfo} : (barArrive s c f k bid info).memory = s.memory := by
  simp only [barArrive]
  split <;> simp

@[simp] theorem memory_switchCore (s : State) (c : CubeId) : (switchCore s c).memory = s.memory := by
  simp only [switchCore]
  split
  next =>
    split
    next h => simp [memory_of_loadFrame h]
    next => simp
  next => simp

@[simp] theorem memory_residentSwitchRun {m : Meaning} : (residentSwitchRun m s c).memory = s.memory := by
  simp only [residentSwitchRun]
  (repeat' split) <;> simp

@[simp] theorem memory_stallSwitchRun {m : Meaning} : (stallSwitchRun m s c).memory = s.memory := by
  simp only [stallSwitchRun]
  (repeat' split) <;> simp

@[simp] theorem memory_sliceExpiryRun : (sliceExpiryRun s c).memory = s.memory := by
  simp only [sliceExpiryRun]
  split <;> simp

@[simp] theorem memory_withdraw : (withdraw s c f).memory = s.memory := by
  simp only [withdraw]
  split <;> simp

@[simp] theorem memory_countSlice (s : State) (c : CubeId) (f : FrameId) (rdy : Readiness) (s' : State) :
    (countSlice s c f rdy s').memory = s'.memory := by
  simp only [countSlice]
  split <;> simp

/-! Stores to the faces (R99, R199). -/

@[simp] theorem memory_faceStore {k : Ctx} {b : List Byte} : (faceStore k a b s).memory = s.memory := (rfl)
@[simp] theorem memory_storeFaces {k : Ctx} {l : List (Nat × List Byte)} : (storeFaces k l s).memory = s.memory := by simp [storeFaces]
@[simp] theorem memory_storeFace {k : Ctx} {b : List Byte} : (storeFace k a b s).memory = s.memory := (rfl)

/-! Engine operations that queue (R237). -/

@[simp] theorem memory_takeBar {k : Ctx} {bar : Option (BarKind × Nat)} : (takeBar k bar s).memory = s.memory := by
  simp only [takeBar]
  split <;> simp

/-! Submission (R337). -/

@[simp] theorem memory_modQueue {q : Nat} {g : Queue → Queue} : (modQueue s q g).memory = s.memory := (rfl)
@[simp] theorem memory_modPart {p : Nat} {g : Machine.Part → Machine.Part} : (modPart s p g).memory = s.memory := (rfl)

@[simp] theorem memory_joinV {q : Nat} : (joinV s q).memory = s.memory := by
  simp only [joinV]
  split <;> simp

@[simp] theorem memory_acceptRec {ws : List Word} : (acceptRec s part ws id).memory = s.memory := by
  simp only [acceptRec]
  (repeat' split) <;> simp

@[simp] theorem memory_submit (s : State) (part : Nat) (ws : List Word) (byTask : Bool) : (submit s part ws byTask).1.memory = s.memory := by
  simp only [submit]
  (repeat' split) <;> simp

@[simp] theorem memory_windowWriteRun {q off : Nat} {v : Word} : (windowWriteRun s fn q off v).memory = s.memory := by
  simp only [windowWriteRun]
  (repeat' split) <;> simp

@[simp] theorem memory_windowSubmitRun (s : State) (fn : Fin 4) (q : Nat) : (windowSubmitRun s fn q).memory = s.memory := by
  simp only [windowSubmitRun]
  split <;> simp

/-! Tasks, gangs, records and the schedulers (R333 to R352). -/

@[simp] theorem memory_seatTask {x : Seat} : (seatTask s k x).memory = s.memory := (rfl)
@[simp] theorem memory_dropResv : (dropResv s part id gi).memory = s.memory := (rfl)

@[simp] theorem memory_leaveQueue : (leaveQueue s k).memory = s.memory := by
  simp only [leaveQueue]
  split <;> simp

@[simp] theorem memory_admitGang {l : List Seat} : (admitGang s k gi l).memory = s.memory := by simp [admitGang]
@[simp] theorem memory_advanceV : (advanceV s k n).memory = s.memory := (rfl)

@[simp] theorem memory_returnTask (s : State) (k : Rec) (c : CubeId) (f : FrameId) (p : Parked) : (returnTask s k c f p).memory = s.memory := by
  unfold returnTask
  dsimp only
  split
  next h => simp [memory_of_loadFrame h]
  next => simp

@[simp] theorem memory_returnGang (s : State) (k : Rec) (g : Gang) : (returnGang s k g).memory = s.memory := by
  simp only [returnGang, memory_dropResv, memory_modGang]
  refine memory_foldl (fun s x => ?_) _ _
  (repeat' split) <;> simp

@[simp] theorem memory_openResv {cubes : List Nat} : (openResv s k gi cubes).memory = s.memory := by
  simp only [openResv]
  split <;> simp

@[simp] theorem memory_askAll (s : State) (l : List Victim) (enough : State → Bool) : (askAll s l enough).memory = s.memory :=
  memory_foldl (fun s v => by split <;> simp) _ _

@[simp] theorem memory_askVictims : (askVictims s k gi).memory = s.memory := by simp [askVictims]

@[simp] theorem memory_askBack {g : Gang} : (askBack s k g).memory = s.memory := by
  simp only [askBack]
  split <;> simp

@[simp] theorem memory_giveHold (s : State) (k : Rec) : (giveHold s k).2.memory = s.memory := by
  simp only [giveHold]
  (repeat' split) <;> simp

theorem memory_of_giveHold {s t : State} {b : Bool} (h : giveHold s k = (b, t)) : t.memory = s.memory :=
  (congrArg (fun x => x.2.memory) h).symm.trans (memory_giveHold s k)

@[simp] theorem memory_dropHold : (dropHold s part id).memory = s.memory := (rfl)
@[simp] theorem memory_releaseHolds : (releaseHolds s k).memory = s.memory := (rfl)

@[simp] theorem memory_admitHeld : (admitHeld s k).memory = s.memory := by
  simp only [admitHeld]
  (repeat' split) <;> simp

@[simp] theorem memory_serveHold (s : State) (k : Rec) : (serveHold s k).memory = s.memory := by
  simp only [serveHold]
  split
  next => split <;> (rename_i h; simp [memory_of_giveHold h])
  next => rfl

@[simp] theorem memory_decideSpan (s : State) (k : Rec) : (decideSpan s k).2.memory = s.memory := by
  simp only [decideSpan]
  (repeat' split) <;> simp

@[simp] theorem memory_decideOffer (s : State) (first : Bool) (o : Offer) : (decideOffer s first o).2.memory = s.memory := by
  simp only [decideOffer]
  (repeat' split) <;> simp

theorem memory_of_decideOffer {s t : State} {first : Bool} {o : Offer} {x : Fare} (h : decideOffer s first o = (x, t)) :
    t.memory = s.memory :=
  (congrArg (fun x => x.2.memory) h).symm.trans (memory_decideOffer s first o)

@[simp] theorem memory_decideFrom (l : List (Nat × Ratio × Nat × Offer)) (s : State) (first waited : Bool) :
    (decideFrom s first waited l).memory = s.memory := by
  induction l generalizing s first waited with
  | nil => rfl
  | cons o l ih =>
    unfold decideFrom
    split
    next => exact ih ..
    next =>
      split
      next h => exact (ih ..).trans (memory_of_decideOffer h)
      next h => exact (ih ..).trans (memory_of_decideOffer h)
      next h => exact memory_of_decideOffer h

@[simp] theorem memory_schedulingRun : (schedulingRun s part).memory = s.memory := by simp [schedulingRun]

@[simp] theorem memory_headAgingRun {q : Nat} : (headAgingRun s q).memory = s.memory := by
  simp only [headAgingRun]
  split <;> simp

@[simp] theorem memory_reservationMatureRun : (reservationMatureRun s c).memory = s.memory := by
  simp only [reservationMatureRun]
  (repeat' split) <;> simp

@[simp] theorem memory_cancelRest : (cancelRest s k).memory = s.memory := by
  simp only [cancelRest]
  split <;> simp

@[simp] theorem memory_turnCores (s : State) : (turnCores s).memory = s.memory :=
  memory_foldl (fun s c => by dsimp only; split <;> simp) _ _

@[simp] theorem memory_tidySpan : (tidySpan s part id).memory = s.memory := by
  simp only [tidySpan]
  (repeat' split) <;> simp

@[simp] theorem memory_landHalted : (landHalted s c f).memory = s.memory := by simp [landHalted]

@[simp] theorem memory_taskCompleteRun : (taskCompleteRun s c f).memory = s.memory := by
  simp only [taskCompleteRun]
  (repeat' split) <;> simp

@[simp] theorem memory_gangFailureRun (s : State) (part launch gang : Nat) : (gangFailureRun s part launch gang).memory = s.memory := by
  simp only [gangFailureRun]
  split
  next => rfl
  next => exact memory_foldl (fun s x => by (repeat' split) <;> simp) _ _

@[simp] theorem memory_barrierPhaseRun {kind : BarKind} {bid : BitVec 4} : (barrierPhaseRun s part launch gang kind bid).memory = s.memory := by
  simp only [barrierPhaseRun]
  (repeat' split) <;> simp

@[simp] theorem memory_preemptionRequestRun : (preemptionRequestRun s part launch gang).memory = s.memory := by
  simp only [preemptionRequestRun]
  (repeat' split) <;> simp

@[simp] theorem memory_spanHoldRun (s : State) (part launch pkg : Nat) : (spanHoldRun s part launch pkg).memory = s.memory := by
  simp only [spanHoldRun]
  split
  next => rfl
  next k _ =>
    obtain ⟨b, t, hx⟩ : ∃ b t, giveHold s k = (b, t) := ⟨_, _, rfl⟩
    simp only [hx]
    cases b <;> dsimp only <;> (repeat' split) <;> simp [memory_of_giveHold hx]

@[simp] theorem memory_spanTimeoutRun : (spanTimeoutRun s part launch).memory = s.memory := by
  simp only [spanTimeoutRun]
  (repeat' split) <;> simp

/-! Power, layers and failures (R374 to R389). -/

@[simp] theorem memory_modCamp {g : Campion → Campion} : (modCamp s c g).memory = s.memory := (rfl)
@[simp] theorem memory_campionTickRun {amps temp : Nat} : (campionTickRun s c amps temp).memory = s.memory := (rfl)
@[simp] theorem memory_fastComparatorRun {amps : Nat} : (fastComparatorRun s c amps).memory = s.memory := (rfl)
@[simp] theorem memory_lReportRun : (lReportRun s c).memory = s.memory := (rfl)

@[simp] theorem memory_thermalTripRun {temp : Nat} : (thermalTripRun s c temp).memory = s.memory := by
  simp only [thermalTripRun]
  split <;> simp

@[simp] theorem memory_thermalResumeRun {temp : Nat} : (thermalResumeRun s c temp).memory = s.memory := (rfl)

@[simp] theorem memory_leaveGrantRun : (leaveGrantRun s c).memory = s.memory := by
  simp only [leaveGrantRun]
  (repeat' split) <;> simp

@[simp] theorem memory_leaveExpiryRun : (leaveExpiryRun s c f).memory = s.memory := (rfl)

@[simp] theorem memory_railTrimRun {pass : List Nat} : (railTrimRun s c pass).memory = s.memory := by
  simp only [railTrimRun]
  split <;> simp

@[simp] theorem memory_modPow {g : LayerPow → LayerPow} : (modPow s c z g).memory = s.memory := (rfl)
@[simp] theorem memory_railRiseRun : (railRiseRun s c z).memory = s.memory := (rfl)
@[simp] theorem memory_layerGateRun : (layerGateRun s c z).memory = s.memory := (rfl)
@[simp] theorem memory_layerRetentionRun : (layerRetentionRun s c z).memory = s.memory := (rfl)

@[simp] theorem memory_layerWakeRun : (layerWakeRun s c z).memory = s.memory := by
  simp only [layerWakeRun]
  split <;> simp

@[simp] theorem memory_ivrRun {group : Fin 16} {rail : Fin 4} : (ivrRun s c z group rail).memory = s.memory := by
  simp only [ivrRun]
  (repeat' split) <;> simp

@[simp] theorem memory_modWear {g : Wear → Wear} : (modWear s c g).memory = s.memory := (rfl)

@[simp] theorem memory_faceError {z face off : Nat} {bad : Bool} : (faceError s c z face off bad).memory = s.memory := by
  simp only [faceError]
  (repeat' split) <;> simp

@[simp] theorem memory_retireBus : (retireBus s c z).memory = s.memory := by
  simp only [retireBus]
  split <;> simp

@[simp] theorem memory_losePort {port : BitVec 4} : (losePort s c f port).memory = s.memory := by simp [losePort]

@[simp] theorem memory_portFailureRun {port newPort : BitVec 4} : (portFailureRun s c port newPort).memory = s.memory := by
  simp only [portFailureRun]
  (repeat' split) <;> simp

@[simp] theorem memory_telemetryRun {values : List Word} : (telemetryRun s values).memory = s.memory := by
  simp only [telemetryRun]
  split <;> simp

@[simp] theorem memory_monitorSampleRun {m : Fin 8} {v : Nat} : (monitorSampleRun s c m v).memory = s.memory := (rfl)

@[simp] theorem memory_watchdogRun : (watchdogRun s).memory = s.memory := by
  simp only [watchdogRun]
  split <;> simp

/-! Teasel and the debugger (R391 to R402). -/

@[simp] theorem memory_applyDescs (s : State) (l : List Desc) : (applyDescs s l).memory = s.memory := by
  simp only [applyDescs, memory_postHeld]
  refine (memory_foldl (fun s c => ?_) _ _).trans (State.memory_modHub ..)
  split <;> simp

@[simp] theorem memory_intoRecovery : (intoRecovery s).memory = s.memory := (rfl)

@[simp] theorem memory_bootOn (s : State) (i : BootInput) : (bootOn s i).memory = s.memory :=
  bootOn_keeps State.memory (fun _ _ _ => rfl) (fun _ _ _ _ => rfl) (fun _ _ _ _ => rfl) (fun _ _ => rfl) s i

@[simp] theorem memory_reply {status : Nat} {l : List (Nat × List Byte)} : (reply s fn status l).memory = s.memory := (rfl)
@[simp] theorem memory_done {l : List (Nat × List Byte)} : (done s fn l).memory = s.memory := (rfl)
@[simp] theorem memory_refuse : (refuse s fn reason).memory = s.memory := (rfl)

@[simp] theorem memory_command {fn : Fin 4} {who : Who} {code : Nat} {acts : Nat → Bool} {fields : List (Nat × Nat)} {named : Bool}
    {body : State → Head → State} (h : ∀ s x, (body s x).memory = s.memory) (s : State) :
    (command s fn who code acts fields named body).memory = s.memory := by
  simp only [command]
  (repeat' split) <;> simp [h]

@[simp] theorem memory_unknownRun : (unknownRun s fn).memory = s.memory := by
  simp only [unknownRun]
  split <;> simp

@[simp] theorem memory_descriptorsRun : (descriptorsRun s fn).memory = s.memory := by
  unfold descriptorsRun
  refine memory_command (fun s h => ?_) s
  dsimp only
  (repeat' split) <;> simp

@[simp] theorem memory_limitsRun : (limitsRun s fn).memory = s.memory := by
  unfold limitsRun
  refine memory_command (fun s h => ?_) s
  dsimp only
  (repeat' split) <;> simp

@[simp] theorem memory_monConfigureRun : (monConfigureRun s fn).memory = s.memory := by
  unfold monConfigureRun
  refine memory_command (fun s h => ?_) s
  dsimp only
  (repeat' split) <;> simp

@[simp] theorem memory_monReadRun : (monReadRun s fn).memory = s.memory := by
  unfold monReadRun
  refine memory_command (fun s h => ?_) s
  dsimp only
  (repeat' split) <;> simp

@[simp] theorem memory_copyFirmware : (copyFirmware s).memory = s.memory := (rfl)

@[simp] theorem memory_firmwareRun : (firmwareRun s fn).memory = s.memory := by
  unfold firmwareRun
  split
  next => simp
  next =>
    refine memory_command (fun s h => ?_) s
    dsimp only
    (repeat' split) <;> simp

@[simp] theorem memory_quoteRun : (quoteRun s fn).memory = s.memory :=
  memory_command (fun s h => by simp) s

@[simp] theorem memory_dbgCommand {fn : Fin 4} {acts : Nat → Bool} {fields : List (Nat × Nat)} {attach : Bool}
    {body : State → Head → CubeId → State} (h : ∀ s x c, (body s x c).memory = s.memory) (s : State) :
    (dbgCommand s fn acts fields attach body).memory = s.memory := by
  unfold dbgCommand
  refine memory_command (fun s x => ?_) s
  (repeat' split) <;> simp [h]

@[simp] theorem memory_attachRun : (attachRun s fn).memory = s.memory := by
  unfold attachRun
  refine memory_dbgCommand (fun s h c => ?_) s
  split <;> simp

@[simp] theorem memory_detachRun : (detachRun s fn).memory = s.memory := by simp [detachRun]
@[simp] theorem memory_eventsRun {on : Bool} : (eventsRun s fn on).memory = s.memory := by simp [eventsRun]

@[simp] theorem memory_onTask {s : State} {fn : Fin 4} {c : CubeId} {body : FrameId → State} (h : ∀ f, (body f).memory = s.memory) :
    (onTask s fn c body).memory = s.memory := by
  simp only [onTask]
  (repeat' split) <;> simp [h]

@[simp] theorem memory_setDbg {d : DbgRun} : (setDbg s c f d).memory = s.memory := (rfl)
@[simp] theorem memory_haltRun : (haltRun s fn).memory = s.memory := by simp [haltRun]

@[simp] theorem memory_stepRun : (stepRun s fn).memory = s.memory := by
  unfold stepRun
  refine memory_dbgCommand (fun s h c => ?_) s
  dsimp only
  split <;> simp

@[simp] theorem memory_resumeRun : (resumeRun s fn).memory = s.memory := by simp [resumeRun]

@[simp] theorem memory_stepDoneRun : (stepDoneRun s c f).memory = s.memory := by
  simp only [stepDoneRun]
  split <;> simp

@[simp] theorem memory_logDbg {r : Frame} {va : Nat} : (logDbg s c r va n).memory = s.memory := by
  simp only [logDbg]
  (repeat' split) <;> simp

@[simp] theorem memory_dbgAccess {fn : Fin 4} {act : Nat} {fields : List (Nat × Nat)}
    {body : State → CubeId → FrameId → Nat → Nat → Nat → State} (h : ∀ s c f a b n, (body s c f a b n).memory = s.memory) (s : State) :
    (dbgAccess s fn act fields body).memory = s.memory := by
  unfold dbgAccess
  refine memory_dbgCommand (fun s x c => ?_) s
  dsimp only
  (repeat' split) <;> simp [h]

@[simp] theorem memory_dbgReadRun : (dbgReadRun s fn).memory = s.memory := by
  unfold dbgReadRun
  refine memory_dbgAccess (fun s c f a b n => ?_) s
  dsimp only
  (repeat' split) <;> simp

/-! Events. -/

@[simp] theorem memory_withdrawalRun : (withdrawalRun s c f).memory = s.memory := by
  simp only [withdrawalRun]
  split <;> simp

end

end Sys2Proof.Machine
end

section
/-! SUPPORT. What writes global memory, and that it keeps the canonical form (R65, R76, R77, R84). -/

namespace Sys2Proof.Machine

/-- Global memory and poison in canonical form (R65, R76). -/
def Canonical (m : List Host.Cell × FMap Bool) : Prop := Memory.wf m.1 ∧ fwf false m.2 = true

theorem canonical_foldl {α : Type} {g : State → α → State} {l : List α} {s : State} (h : Canonical s.memory)
    (hg : ∀ s x, Canonical s.memory → Canonical (g s x).memory) : Canonical (l.foldl g s).memory := by
  induction l generalizing s with
  | nil => exact h
  | cons x l ih => exact ih (hg s x h)

section
variable {s : State} {c : CubeId} {f : FrameId} {fn : Fin 4} {k : Rec} {z : Fin 8}
  {a n id i part launch gang gi msgid pkg src reason code line : Nat} (h : Canonical s.memory)
include h

/-! Parts of the machine. -/

omit h in
@[simp] theorem canonical_reset : Canonical State.reset.memory := ⟨rfl, rfl⟩

@[simp] theorem canonical_gWrite {l : List Byte} : Canonical (gWrite s a l).memory := memWf_gWrite s a l h
@[simp] theorem canonical_gWriteVal {v : Nat} : Canonical (gWriteVal s a n v).memory := by simp [gWriteVal, h]
@[simp] theorem canonical_setPoison {b : Bool} : Canonical (setPoison s a b).memory := memWf_setPoison s a b h
@[simp] theorem canonical_clearFull : Canonical (clearFull s a n).memory := memWf_clearFull s a n h

/-! Signals, phases and the records of the hub (R102 to R106). -/

@[simp] theorem canonical_semAddBlock {base n src : Nat} {sem : BitVec 5} : Canonical (semAddBlock s base sem n src).memory := by
  simp only [semAddBlock]
  split
  next =>
    split
    next => exact h
    next => exact canonical_gWriteVal (canonical_gWriteVal (canonical_gWriteVal h))
  next => exact canonical_gWriteVal h

@[simp] theorem canonical_semAdd {sem : BitVec 5} : Canonical (semAdd s c f sem n src).memory := by
  simp only [semAdd]
  (repeat' split) <;> simp [h]

@[simp] theorem canonical_semSub {sem : BitVec 5} {n : BitVec 16} : Canonical (semSub s c f sem n).memory := by simp [semSub, h]

@[simp] theorem canonical_signal {sig : BitVec 6} : Canonical (signal s c f sig src).memory := by
  simp only [signal]
  (repeat' split) <;> simp [h]

@[simp] theorem canonical_signalOwn {sig : BitVec 6} : Canonical (signalOwn s c f sig src).memory := by
  simp only [signalOwn]
  split <;> simp [h]

@[simp] theorem canonical_semAddMember {m : Member} {sem : BitVec 5} : Canonical (semAddMember s m sem n src).memory := by
  simp only [semAddMember]
  split <;> simp [h]

/-! Accesses of global memory (R83 to R91). -/

@[simp] theorem canonical_performWrite {mid : Nat} : Canonical (performWrite s mid).memory := memWf_performWrite s mid h

/-! Cube operations (R228 to R246). -/

@[simp] theorem canonical_cubeLand : Canonical (cubeLand s c f id).memory := by
  simp only [cubeLand]
  (repeat' split) <;> simp [h]

/-! Copies and near-memory commands (R252 to R268). -/

@[simp] theorem canonical_poisonPlace {p : Place} {b : Bool} : Canonical (poisonPlace s c p b).memory := by
  simp only [poisonPlace]
  split <;> simp [h]

@[simp] theorem canonical_writeWord {p : Place} {mask val : Nat} : Canonical (writeWord s c p mask val).memory := by
  simp only [writeWord]
  split <;> simp [h]

@[simp] theorem canonical_copyWrite {w : Nat} : Canonical (copyWrite s c f id w).memory := by
  simp only [copyWrite]
  (repeat' split) <;> simp [h]

@[simp] theorem canonical_copyAccess : Canonical (copyAccess s c f id n).memory := by
  simp only [copyAccess]
  (repeat' split) <;> simp [h]

@[simp] theorem canonical_copyComplete : Canonical (copyComplete s c f id).memory := by
  simp only [copyComplete]
  split
  next => exact h
  next e x _ =>
    have hmove : Canonical (x.dstWords.foldl (fun s w => copyWrite s c f id w) (x.srcWords.foldl (fun s w => copyRead s c f id w) s)).memory :=
      canonical_foldl (canonical_foldl h fun s w h => by simpa using h) fun s w h => canonical_copyWrite h
    (repeat' split) <;> simp [h, hmove]

@[simp] theorem canonical_nmcRead {u : Nat} : Canonical (nmcRead s c f id u).memory := by
  unfold nmcRead
  split
  next => exact h
  next =>
    split
    next =>
      dsimp only
      split
      next => exact h
      next =>
        simp only [memory_nmcReturn, State.memory_modFrame, memory_mk, memory_eta]
        repeat' split
        all_goals simp [h]
    next => exact h

@[simp] theorem canonical_nmcWrite {u : Nat} : Canonical (nmcWrite s c f id u).memory := by
  simp only [nmcWrite]
  (repeat' split) <;> simp [h]

@[simp] theorem canonical_nmcUnit {u : Nat} : Canonical (nmcUnit s c f id u).memory := by
  simp only [nmcUnit]
  (repeat' split) <;> simp [h]

@[simp] theorem canonical_nmcComplete : Canonical (nmcComplete s c f id).memory := by
  simp only [nmcComplete]
  split
  next => exact h
  next e _ =>
    split
    next rc _ _ =>
      have hread : Canonical (if e.nm.away then s else (List.range (nmCmd rc).units).foldl (fun s u => nmcRead s c f id u) s).memory := by
        split
        next => exact h
        next => exact canonical_foldl h fun s u h => canonical_nmcRead h
      have hmove := canonical_foldl (l := List.range (nmCmd rc).units) hread
        fun s u h => canonical_nmcWrite (u := u) (c := c) (f := f) (id := id) h
      generalize List.foldl (fun s u => nmcWrite s c f id u) _ _ = moved at hmove ⊢
      split
      next => exact h
      next => (repeat' split) <;> simp [h, hmove]
    next => exact h

/-! Messages (R256 to R263, R367 to R369). -/

@[simp] theorem canonical_writePlace {p : Place} {b : List Byte} {bad : Bool} : Canonical (writePlace s c p b bad).memory := by
  have hwrite : ∀ a, Canonical (clearFull (gWrite s a b) a b.length).memory := fun a => canonical_clearFull (canonical_gWrite h)
  simp only [writePlace]
  (repeat' split) <;> simp [h, hwrite]

@[simp] theorem canonical_poisonMsgLine {q : YReq} : Canonical (poisonMsgLine s c q i).memory := by
  simp only [poisonMsgLine]
  (repeat' split) <;> simp [h]

@[simp] theorem canonical_writeFar {rc : CubeId} {q : YReq} {x : MsgLine} : Canonical (writeFar s rc q i x).memory := by
  simp only [writeFar]
  split <;> simp [h]

@[simp] theorem canonical_openFar {rc : CubeId} {q : YReq} {sent : Nat} {head : List MsgLine} : Canonical (openFar s rc q sent head).memory := by
  simp only [openFar, memory_addReq]
  exact canonical_foldl h fun s x h => canonical_writeFar h

@[simp] theorem canonical_fillEmpty {rc : CubeId} {rf : FrameId} {b : Nat} {rsig : BitVec 6} :
    Canonical (fillEmpty s rc rf b rsig).memory := by simp [fillEmpty, h]

@[simp] theorem canonical_msgCompleteRun : Canonical (msgCompleteRun s c f msgid).memory := by
  simp only [msgCompleteRun]
  (repeat' split) <;> simp [h]

@[simp] theorem canonical_endMsg {bytes : Nat} : Canonical (endMsg s c f msgid code bytes).memory := by simp [endMsg, h]

@[simp] theorem canonical_acceptTask {m : MsgAct} : Canonical (acceptTask s c f m).memory := by
  simp only [acceptTask]
  (repeat' split) <;> simp [h]

@[simp] theorem canonical_acceptRemote {r : RemoteReq} {key : MsgKey} {cls : BitVec 2} {toBuf : Bool} {srank rank : Nat} {buf rsig : BitVec 6} {dst len sent : Nat} {head : List MsgLine} :
    Canonical (acceptRemote s r key cls toBuf launch srank rank buf rsig dst len sent head).memory := by
  simp only [acceptRemote]
  (repeat' split) <;> simp [h]

@[simp] theorem canonical_msgAcceptRun {src : MsgSrc} : Canonical (msgAcceptRun s src).memory := by
  simp only [msgAcceptRun]
  (repeat' split) <;> simp [h]

@[simp] theorem canonical_headerRetryRun : Canonical (headerRetryRun s c f msgid).memory := by
  simp only [headerRetryRun]
  (repeat' split) <;> simp [h]

@[simp] theorem canonical_moveWord {q : YReq} {c' : CubeId} {f' : FrameId} {m : MsgAct} {k : Nat} : Canonical (moveWord s c q c' f' m k).memory := by
  simp only [moveWord]
  (repeat' split) <;> simp [h]

@[simp] theorem canonical_cleanLine {q : YReq} : Canonical (cleanLine s c q i).memory := by
  simp only [cleanLine]
  (repeat' split) <;> simp [h]

@[simp] theorem canonical_lineArriveRun {num : Nat} {x : MsgLine} {from_ : Option RemoteReq} :
    Canonical (lineArriveRun s c num line x from_).memory := by
  have hmove : ∀ {q c' f' m} {l : List Nat}, Canonical (l.foldl (fun s k => moveWord s c q c' f' m k) (logLine s c' f' m line)).memory :=
    canonical_foldl (by simpa using h) fun s k h => canonical_moveWord h
  simp only [lineArriveRun]
  (repeat' split) <;> simp [h, hmove]

@[simp] theorem canonical_sendMsgWord {m : MsgAct} {k : Nat} : Canonical (sendMsgWord s c f m k).memory := by
  simp only [sendMsgWord]
  (repeat' split) <;> simp [h]

@[simp] theorem canonical_fillCompleteRun : Canonical (fillCompleteRun s c n).memory := by
  simp only [fillCompleteRun]
  (repeat' split) <;> simp [h]

@[simp] theorem canonical_orphanRun : Canonical (orphanRun s c n).memory := by
  have hpoison : ∀ {q} {l : List Nat}, Canonical (l.foldl (fun s i => poisonMsgLine s c q i) s).memory :=
    canonical_foldl h fun s i h => canonical_poisonMsgLine h
  unfold orphanRun
  dsimp only
  (repeat' split) <;> simp [h, hpoison]

@[simp] theorem canonical_closeMsgs : Canonical (closeMsgs s c f).memory := by
  refine canonical_foldl (canonical_foldl h fun s i h => canonical_msgCompleteRun h) fun s m h => ?_
  (repeat' split) <;> simp [h]

@[simp] theorem canonical_msgSend : Canonical (msgSend s c f id n).memory := by
  simp only [msgSend]
  (repeat' split) <;> simp [h]

@[simp] theorem canonical_putfCompleteRun : Canonical (putfCompleteRun s c f id).memory := by
  simp only [putfCompleteRun]
  (repeat' split) <;> simp [h]

@[simp] theorem canonical_yarrowHears {q : RemoteReq} : Canonical (yarrowHears s q).memory := by
  simp only [yarrowHears]
  (repeat' split) <;> simp [h]

@[simp] theorem canonical_remoteArriveRun {q : RemoteReq} : Canonical (remoteArriveRun s q).memory := by
  simp only [remoteArriveRun]
  (repeat' split) <;> simp [h]

@[simp] theorem canonical_accessSendRun : Canonical (accessSendRun s c f id line).memory := by
  simp only [accessSendRun]
  (repeat' split) <;> simp [h]

/-! Context blocks (R324 to R330). -/

@[simp] theorem canonical_writeBlock {base : Nat} {l : List Fld} : Canonical (writeBlock s base l).memory := memWf_writeBlock s base l h

/-! Quiesce, traps and the return (R318, R319). -/

@[simp] theorem canonical_semSet {sem : BitVec 5} {ceil count : Nat} : Canonical (semSet s c f sem ceil count).memory := by
  simp only [semSet]
  split <;> simp [h]

theorem canonical_of_syncHead {t : State} (ht : syncHead s c f = some t) : Canonical t.memory := by
  unfold syncHead at ht
  dsimp only at ht
  repeat' split at ht
  all_goals cases ht
  all_goals simp [h]

omit h in
theorem canonical_syncRun (n : Nat) (h : Canonical s.memory) : Canonical (syncRun n s c f).memory := by
  induction n generalizing s with
  | zero => exact h
  | succ n ih =>
    unfold syncRun
    split
    next ht => exact ih (canonical_of_syncHead h ht)
    next => exact h

@[simp] theorem canonical_sendRest {e : LsEnt} : Canonical (sendRest s c f e i).memory := by
  simp only [sendRest]
  split <;> simp [h]

@[simp] theorem canonical_performWrites : Canonical (performWrites s).memory := canonical_foldl h fun _ _ h => canonical_performWrite h

@[simp] theorem canonical_lsPass : Canonical (lsPass s c f).memory := by
  refine canonical_foldl (canonical_performWrites (canonical_foldl (canonical_foldl h fun s e h => ?_) fun s id h => ?_)) fun s e h => ?_
  · exact canonical_foldl h fun s i h => by simp [h]
  · simp [h]
  · simp [h]

omit h in
theorem canonical_lsPasses (n : Nat) (h : Canonical s.memory) : Canonical (lsPasses n s c f).memory := by
  induction n generalizing s with
  | zero => exact h
  | succ n ih => exact ih (canonical_lsPass h)

@[simp] theorem canonical_enginesFinish : Canonical (enginesFinish s c f).memory := by
  refine canonical_foldl (canonical_foldl (canonical_foldl (canonical_performWrites (canonical_foldl h fun s id h => ?_)) fun s id h => ?_)
    fun s id h => ?_) fun s id h => ?_
  · simp [h]
  · simp [h]
  · exact canonical_putfCompleteRun (canonical_nmcComplete (canonical_copyComplete h))
  · simp [h]

@[simp] theorem canonical_sendGranted : Canonical (sendGranted s c f).memory := by
  refine canonical_foldl h fun s m h => ?_
  dsimp only
  split
  next => exact canonical_foldl h fun s k h => canonical_foldl h fun s i h => canonical_lineArriveRun h
  next => exact canonical_foldl h fun s i h => canonical_msgSend h

@[simp] theorem canonical_quiesce : Canonical (quiesce s c f).memory := by
  simp only [quiesce, memory_landDue, State.memory_modFrame]
  exact canonical_syncRun _ (canonical_closeMsgs (canonical_sendGranted (canonical_enginesFinish (canonical_lsPasses _ h))))

@[simp] theorem canonical_saveFrame : Canonical (saveFrame s c f reason).memory := by simp [saveFrame, h]

@[simp] theorem canonical_enterTrap {t : TrapInfo} : Canonical (enterTrap s c f t).memory := by
  simp only [enterTrap]
  split <;> simp [h]

@[simp] theorem canonical_takeDrainTrap {t : TrapInfo} : Canonical (takeDrainTrap s c f t).memory := by simp [takeDrainTrap, h]

@[simp] theorem canonical_savePreempted : Canonical (savePreempted s c f).memory := by
  simp only [savePreempted]
  split <;> simp [h]

@[simp] theorem canonical_preemptionRun : Canonical (preemptionRun s c f).memory := by
  simp only [preemptionRun]
  (repeat' split) <;> simp [h]

/-! The issue of a bundle (R28 to R36, R118 to R124). -/

@[simp] theorem canonical_forcedSwitch : Canonical (forcedSwitch s c f).memory := by simp [forcedSwitch, h]

@[simp] theorem canonical_forcedSwitchRun {m : Meaning} : Canonical (forcedSwitchRun m s c).memory := by
  simp only [forcedSwitchRun]
  split <;> simp [h]

theorem canonical_of_atDrain {b : BundleIn} {rdy : Readiness} {t : State} (ht : atDrain s c f b rdy = some t) : Canonical t.memory := by
  unfold atDrain at ht
  dsimp only at ht
  repeat' split at ht
  all_goals cases ht
  all_goals simp [h]

/-! Submission (R337). -/

@[simp] theorem canonical_wlaunchRun : Canonical (wlaunchRun s c f).memory := by
  simp only [wlaunchRun]
  (repeat' split) <;> simp [h]

/-! Tasks, gangs, records and the schedulers (R333 to R352). -/

@[simp] theorem canonical_releaseGang : Canonical (releaseGang s k gi).memory := by
  simp only [releaseGang, memory_dropResv, memory_dropHold, memory_modRec]
  refine canonical_foldl (canonical_foldl h fun s x h => ?_) fun s c h => ?_
  · simp [h]
  · simp [h]

@[simp] theorem canonical_endWithError {e : Nat × Word × Word} : Canonical (endWithError s k gi e).memory := by
  simp only [endWithError]
  split <;> simp [h]

@[simp] theorem canonical_dictionaryLoadRun : Canonical (dictionaryLoadRun s part launch gang).memory := by
  simp only [dictionaryLoadRun]
  split
  next => exact h
  next =>
    split
    next => exact h
    next =>
      split
      next => exact h
      next =>
        split
        next =>
          refine canonical_endWithError (canonical_foldl (canonical_foldl h fun s x h => ?_) fun s x h => ?_)
          · simp [h]
          · simp [h]
        next =>
          rw [memory_modGang]
          exact canonical_foldl h fun s x h => by split <;> simp [h]

@[simp] theorem canonical_performAll {l : List (Nat × Nat)} : Canonical (performAll s l).memory :=
  canonical_foldl h fun _ _ h => canonical_performWrite h

@[simp] theorem canonical_gangCompleteRun : Canonical (gangCompleteRun s part launch gang).memory := by
  simp only [gangCompleteRun]
  (repeat' split) <;> simp [h]

@[simp] theorem canonical_writeCpl {st : Nat} : Canonical (writeCpl s k st).memory := by
  simp only [writeCpl]
  (repeat' split) <;> simp [h]

@[simp] theorem canonical_recordCompleteRun : Canonical (recordCompleteRun s part launch).memory := by
  simp only [recordCompleteRun]
  (repeat' split) <;> simp [h]

@[simp] theorem canonical_spanArriveRun {q : RemoteReq} : Canonical (spanArriveRun s q).memory := by
  unfold spanArriveRun
  split
  next => exact canonical_remoteArriveRun h
  next =>
    dsimp only
    (repeat' split) <;> simp [h, apply_ite State.memory]

/-! Power, layers and failures (R374 to R389). -/

@[simp] theorem canonical_tripTimeoutRun : Canonical (tripTimeoutRun s c).memory := by
  simp only [tripTimeoutRun]
  split
  next =>
    split
    next => exact h
    next => exact canonical_foldl (by simpa using h) fun s x h => canonical_endWithError h
  next => exact h

@[simp] theorem canonical_memError {l : Nat} {bad : Bool} : Canonical (memError s l bad).memory := by
  simp only [memError]
  (repeat' split) <;> simp [h]

@[simp] theorem canonical_storageRun {x : StorageFault} : Canonical (storageRun s x).memory := by
  simp only [storageRun]
  (repeat' split) <;> simp [h]

/-! Teasel and the debugger (R391 to R402). -/

omit h in
@[simp] theorem canonical_coldState : Canonical (coldState s).memory := by simp [coldState]

omit h in
@[simp] theorem canonical_bootRun {i : BootInput} : Canonical (bootRun s i).memory := by
  simp only [bootRun]
  (repeat' split) <;> simp

omit h in
@[simp] theorem canonical_powerLossRun {duringCopy : Bool} : Canonical (powerLossRun s duringCopy).memory := by simp [powerLossRun]

@[simp] theorem canonical_recoveryRun : Canonical (recoveryRun s).memory := by
  simp only [recoveryRun]
  (repeat' split) <;> simp [h]

@[simp] theorem canonical_abortRec : Canonical (abortRec s k).memory := by
  have hgangs : Canonical (k.gangs.foldl (fun s g => releaseGang s k g.idx) s).memory := canonical_foldl h fun s g h => canonical_releaseGang h
  simp only [abortRec]
  (repeat' split) <;> simp [hgangs]

@[simp] theorem canonical_flrRun {p : Nat} : Canonical (flrRun s p).memory := by
  simp only [flrRun, memory_turnCores]
  refine canonical_foldl ?_ fun s q h => ?_
  · rw [State.memory_modHub]
    refine canonical_foldl (canonical_foldl h fun s k h => ?_) fun s k h => ?_
    · exact canonical_abortRec h
    · exact canonical_recordCompleteRun (by simpa using h)
  · split <;> simp [h]

omit h in
theorem canonical_command {who : Who} {acts : Nat → Bool} {fields : List (Nat × Nat)} {named : Bool} {body : State → Head → State}
    (h : Canonical s.memory) (hb : ∀ s x, Canonical s.memory → Canonical (body s x).memory) :
    Canonical (command s fn who code acts fields named body).memory := by
  simp only [command]
  (repeat' split) <;> simp [h, hb]

omit h in
theorem canonical_dbgCommand {acts : Nat → Bool} {fields : List (Nat × Nat)} {attach : Bool} {body : State → Head → CubeId → State}
    (h : Canonical s.memory) (hb : ∀ s x c, Canonical s.memory → Canonical (body s x c).memory) :
    Canonical (dbgCommand s fn acts fields attach body).memory := by
  unfold dbgCommand
  refine canonical_command h fun s x h => ?_
  (repeat' split) <;> simp [h, hb]

omit h in
theorem canonical_dbgAccess {act : Nat} {fields : List (Nat × Nat)} {body : State → CubeId → FrameId → Nat → Nat → Nat → State}
    (h : Canonical s.memory) (hb : ∀ s c f a b n, Canonical s.memory → Canonical (body s c f a b n).memory) :
    Canonical (dbgAccess s fn act fields body).memory := by
  unfold dbgAccess
  refine canonical_dbgCommand h fun s x c h => ?_
  simp only [onTask]
  (repeat' split) <;> simp [h, hb]

@[simp] theorem canonical_packageResetRun {i : BootInput} : Canonical (packageResetRun s fn i).memory := by
  simp only [packageResetRun]
  split <;> simp [h]

@[simp] theorem canonical_setPin {tab l : Nat} : Canonical (setPin s tab l code).memory := by simp [setPin, h]

@[simp] theorem canonical_pinRun : Canonical (pinRun s fn).memory := by
  refine canonical_command h fun s x h => ?_
  have hset : ∀ {tab b code} {l : List Nat}, Canonical (l.foldl (fun s i => setPin s tab (b + 65536 * i) code) s).memory :=
    canonical_foldl h fun s i h => canonical_setPin h
  dsimp only
  (repeat' split) <;> simp [h, hset]

@[simp] theorem canonical_asidRegisterRun : Canonical (asidRegisterRun s fn).memory := by
  refine canonical_command h fun s x h => ?_
  dsimp only
  (repeat' split) <;> simp [h]

@[simp] theorem canonical_asidDropRun : Canonical (asidDropRun s fn).memory := by
  refine canonical_command h fun s x h => ?_
  dsimp only
  (repeat' split) <;> simp [h]

@[simp] theorem canonical_dbgWriteRun : Canonical (dbgWriteRun s fn).memory := by
  unfold dbgWriteRun
  refine canonical_dbgAccess h fun s c f a b n h => ?_
  have hset : ∀ {l : List (Nat × Byte)}, Canonical (l.foldl (fun s (p, b) => gWrite s p [b]) s).memory :=
    canonical_foldl h fun s x h => canonical_gWrite h
  dsimp only
  (repeat' split) <;> simp [h, hset]

/-! Bundles and boundaries (R118, R320). -/

@[simp] theorem canonical_bubbleRun : Canonical (bubbleRun s c f).memory := by
  simp only [bubbleRun]
  (repeat' split) <;> simp [h]

@[simp] theorem canonical_takeFirst {p : TrapInfo → Bool} : Canonical (takeFirst s c f p).memory := by
  simp only [takeFirst]
  (repeat' split) <;> simp [h]

@[simp] theorem canonical_trapEntryRun : Canonical (trapEntryRun s c f).memory := by simp [trapEntryRun, h]
@[simp] theorem canonical_overdueRun : Canonical (overdueRun s c f).memory := by simp [overdueRun, h]
@[simp] theorem canonical_poisonConsumedRun : Canonical (poisonConsumedRun s c f).memory := by simp [poisonConsumedRun, h]
@[simp] theorem canonical_semCeilingRun : Canonical (semCeilingRun s c f).memory := by simp [semCeilingRun, h]
@[simp] theorem canonical_syncAll : Canonical (syncAll s).memory := canonical_foldl h fun _ _ h => canonical_syncRun _ h

/-! Inputs and the turn of the machine. -/

@[simp] theorem canonical_input {a : Choice} : Canonical (input s a).memory := by
  simp only [input]
  (repeat' split) <;> simp [h]

end

end Sys2Proof.Machine
end

section
/-! SUPPORT. Slots: what each does to the machine keeps memory canonical (R65, R118). -/

namespace Sys2Proof.Machine

/-- What a slot does to the machine keeps memory canonical. -/
def SlotEff.Keeps (e : SlotEff) : Prop := ∀ s : State, Canonical s.memory → Canonical (e.act s).memory
/-- The same of a slot's meaning, which may also be a trap. -/
def SlotKeeps (x : SlotRes) : Prop := ∀ e, x = .ok e → e.Keeps

@[simp] theorem slotKeeps_error (t : TrapInfo) : SlotKeeps (.error t) := nofun
@[simp] theorem slotKeeps_ok {e : SlotEff} : SlotKeeps (.ok e) ↔ e.Keeps := ⟨fun h => h e rfl, fun h _ he => Except.ok.inj he ▸ h⟩
@[simp] theorem slotKeeps_bind {α : Type} {x : Except TrapInfo α} {g : α → SlotRes} :
    SlotKeeps (x >>= g) ↔ ∀ a, x = .ok a → SlotKeeps (g a) := by
  cases x with
  | error t => exact ⟨fun _ _ h => (nomatch h), fun _ => slotKeeps_error t⟩
  | ok a => exact ⟨fun h _ ha => Except.ok.inj ha ▸ h, fun h => h a rfl⟩
@[simp] theorem slotKeeps_ite {p : Prop} [Decidable p] {x y : SlotRes} :
    SlotKeeps (if p then x else y) ↔ (p → SlotKeeps x) ∧ (¬ p → SlotKeeps y) := by
  split <;> simp [*]
@[simp] theorem keeps_mk {act taken ctAdd ctSet ctClr link halts sys rfe} :
    (SlotEff.mk act taken ctAdd ctSet ctClr link halts sys rfe).Keeps ↔ ∀ s : State, Canonical s.memory → Canonical (act s).memory := Iff.rfl
@[simp] theorem act_onFrame {k : Ctx} {g : Frame → Frame} {s : State} : (onFrame k g).act s = s.modFrame k.c k.f g := rfl
@[simp] theorem keeps_onFrame {k : Ctx} {g : Frame → Frame} : (onFrame k g).Keeps := fun s h => by simpa using h
@[simp] theorem keeps_touching {k : Ctx} {l : List Nat} {e : SlotEff} (h : e.Keeps) : (touching k l e).Keeps := fun s hs => by
  simpa [touching] using h s hs
@[simp] theorem keeps_landEff {k : Ctx} {file : FileNo} {reg n : Nat} {v : VReg} {t : Taint} {fl : Flags5} :
    (landEff k file reg n v t fl).Keeps := keeps_onFrame
@[simp] theorem keeps_landW {k : Ctx} {file : File3} {reg : Reg} {n : Nat} {v : Word} {t : Taint} {fl : Flags5} :
    (landW k file reg n v t fl).Keeps := keeps_onFrame
@[simp] theorem keeps_landP {k : Ctx} {p : Pred} {n : Nat} {v : Bool} {t : Taint} : (landP k p n v t).Keeps := keeps_onFrame
@[simp] theorem keeps_landV {k : Ctx} {d : VSpec} {n : Nat} {v : VRes} {t : Taint} : (landV k d n v t).Keeps := keeps_onFrame
@[simp] theorem keeps_landLoad {k : Ctx} {file : FileNo} {reg : Nat} {v : VReg} {t : Taint} {bad : Option Nat} :
    (landLoad k file reg v t bad).Keeps := keeps_onFrame
@[simp] theorem act_startLevel {k : Ctx} {lv : BitVec 3} {n : Nat} {s : State} :
    (startLevel k lv n).act s = s.modFrame k.c k.f fun r => r.setLevel lv { r.level lv with active := true, start := k.next, remain := n, first := true } := rfl
@[simp] theorem keeps_startLevel {k : Ctx} {lv : BitVec 3} {n : Nat} : (startLevel k lv n).Keeps := keeps_onFrame
@[simp] theorem keeps_queueLs {k : Ctx} {e : Option LsEnt} : (queueLs k e).Keeps := by
  unfold queueLs
  split <;> simp
@[simp] theorem keeps_queueSync {k : Ctx} {e : Option SyncEnt} : (queueSync k e).Keeps := by
  simp [queueSync]

section
variable {k : Ctx} {s : State}

@[simp] theorem keeps_bufOp {e : BufEvent} {buf : BitVec 6} : SlotKeeps (bufOp k e buf) := by
  unfold bufOp
  split <;> simp
@[simp] theorem keeps_slotBdecl {buf : BitVec 6} {base len : Reg} {nl : BitVec 3} : SlotKeeps (slotBdecl buf base len nl k s) := by
  simp only [slotBdecl]
  split <;> simp
@[simp] theorem keeps_slotAccwr {t : Ty} {acc : BitVec 4} {row : BitVec 7} {cg : BitVec 2} {v : VSpec} :
    SlotKeeps (slotAccwr t acc row cg v k s) := by
  unfold slotAccwr
  split <;> simp
@[simp] theorem keeps_slotMsend {ra : Reg} {cls : BitVec 2} {sig : BitVec 6} : SlotKeeps (slotMsend ra cls sig k s) := by
  simp only [slotMsend, slotKeeps_bind, slotKeeps_ite, slotKeeps_error, implies_true, true_and]
  intros
  constructor
  all_goals
    intros
    split <;> simp
@[simp] theorem keeps_slotCrr {x : Reg} {crn : BitVec 12} : SlotKeeps (slotCrr x crn k s) := by
  unfold slotCrr
  split <;> simp
@[simp] theorem keeps_slotCrw {x : Reg} {crn : BitVec 12} : SlotKeeps (slotCrw x crn k s) := by
  unfold slotCrw
  split <;> simp
@[simp] theorem keeps_slotTlbi {kind : BitVec 3} {adr : Reg} : SlotKeeps (slotTlbi kind adr k s) := by
  simp only [slotTlbi, slotKeeps_ite, slotKeeps_error, slotKeeps_ok, keeps_mk, implies_true, true_and]
  intro _ _ s hs
  (repeat' split) <;> simp [hs]

/-- Every slot keeps memory canonical: but for stores to a semaphore's block, they do not reach it. -/
theorem keeps_slotMeaning (i : Instr) : SlotKeeps (slotMeaning i k s) := by
  cases i <;> simp +contextual [slotMeaning,
    aland, slotAadd, slotAaddi, slotAsub, slotAidx, slotAmov, slotAmovi, slotAcmp, slotAmod, slotLd, slotSt, slotVld, slotVst,
    slotVgath, slotVscat, slotGld, slotGst, slotGvld, slotGvst, slotGpf, slotAtom, slotDrain, slotTclr, slotTctl, slotTget, slotSpt,
    slotLdt, slotBstate, slotBfree, slotSemi, slotSems, slotSemw, slotBar, slotNop, slotBr, slotBri, slotCall, slotCalli, slotRet,
    slotLsetImm, slotLsetReg, slotLstride, slotLoop, slotLexit, slotWcfg, slotSetfmt, slotSetfid, slotYield, slotTrapOp, slotHalt,
    mmaSlot, slotCmma, slotCmmz, slotAccrd, slotCopy, slotPutfImm, slotPutfReg, slotNmc, slotPleave, slotWlaunch, slotSys, slotRfe,
    slotDbg, bin, una, slotAdd, slotAddi, slotSub, slotMul, slotMulh, slotMulhz, divLike, slotDiv, slotRem, slotAnd, slotAndn, slotOr,
    slotXor, slotSll, slotSrl, slotSra, slotRol, slotMin, slotMax, slotMinz, slotMaxz, slotCmp, slotCmpi, slotSel, slotClz, slotCtz,
    slotPopc, slotSext, slotZext, slotMov, slotMovi, slotMovhi, predOp, slotPand, slotPor, slotPxor, slotPnot, slotXmov, fland, fbin,
    slotFadd, slotFsub, slotFmul, slotFma, slotFmin, slotFmax, slotFcmp, slotFcvt, slotFsgn, slotFrcp, slotFrsq, slotVadd, slotVsub,
    slotVmul, slotVfma, slotVmin, slotVmax, slotVabs, slotVneg, slotVand, slotVor, slotVxor, slotVshl, slotVshr, slotVcmp, slotVsel,
    slotVcvt, slotVpack, slotVunpack, slotVscale, slotVbcast, slotVperm, slotVshuf, slotVrot, slotVlane, slotVins, slotVext, slotVscan,
    slotVred, slotVpart, slotVexp2, slotVlog2, slotVrcp, slotVrsqrt, slotVtanh, slotVmov, slotVmovi]
end
end Sys2Proof.Machine
end

section
/-! SUPPORT. The issue of a bundle, the events of the table and the machine's own turn keep memory canonical (R65, R76, R118). -/

namespace Sys2Proof.Machine

/-- Effects that keep memory canonical, each. -/
def EffsKeep (l : List (SlotIns × SlotEff)) : Prop := ∀ x ∈ l, x.2.Keeps
/-- Meanings of slots that keep memory canonical. -/
def MeaningKeeps (m : Meaning) : Prop := ∀ i k s, SlotKeeps (m i k s)

theorem meaningKeeps_slotMeaning : MeaningKeeps slotMeaning := fun i _ _ => keeps_slotMeaning i

section
variable {s : State} {c : CubeId} {f : FrameId} {b : BundleIn} {iss : List SlotIns} {m : Meaning} {rdy : Readiness}
  {effs : List (SlotIns × SlotEff)}

section
variable (hm : MeaningKeeps m)
include hm

theorem effsKeep_of_slotEffects (h : slotEffects s c f b iss m = .ok effs) : EffsKeep effs := by
  simp only [slotEffects] at h
  split at h
  next => cases h
  next =>
    cases h
    intro x hx
    obtain ⟨y, hy, hxy⟩ := List.mem_filterMap.mp hx
    obtain ⟨z, -, rfl⟩ := List.mem_map.mp hy
    split at hxy
    next e he =>
      cases hxy
      dsimp only at he
      split at he
      next => cases he
      next => exact hm _ _ _ e he
    next => cases hxy

theorem effsKeep_slotEffectsAgain : EffsKeep (slotEffectsAgain s c f b iss m) := by
  intro x hx
  obtain ⟨y, -, hxy⟩ := List.mem_filterMap.mp hx
  repeat' split at hxy
  all_goals cases hxy
  all_goals exact hm _ _ _ _ ‹_›

theorem effsKeep_of_bundleChecks (h : bundleChecks s c f b iss m = .ok effs) : EffsKeep effs := by
  simp only [bundleChecks] at h
  split at h
  next => cases h
  next he =>
    split at h
    next => cases h
    next =>
      cases h
      exact effsKeep_of_slotEffects hm he

theorem effsKeep_of_judgeClear (h : judgeClear s c f b iss m = .go effs) : EffsKeep effs := by
  have hsource : slotEffectsAgain s c f b iss m = effs ∨ bundleChecks s c f b iss m = .ok effs := by
    revert h
    simp only [judgeClear]
    (repeat' split) <;> simp_all
  rcases hsource with h | h
  · exact h ▸ effsKeep_slotEffectsAgain hm
  · exact effsKeep_of_bundleChecks hm h

theorem effsKeep_of_judge (h : judge s c f b m = .go effs) : EffsKeep effs := by
  have hclear : judgeClear s c f b (b.slots.filter (slotIssues (s.frame c f) b.lvl)) m = .go effs := by
    revert h
    simp only [judge]
    (repeat' split) <;> simp
  exact effsKeep_of_judgeClear hm hclear

end

theorem canonical_commit (h : Canonical s.memory) (he : EffsKeep effs) : Canonical (commit s c f b effs).memory := by
  have hacts : ∀ l : List (SlotIns × SlotEff), (∀ x ∈ l, x ∈ effs) → Canonical (l.foldl (fun s x => x.2.act s) s).memory := fun l hl =>
    List.foldlRecOn (motive := fun s => Canonical s.memory) l _ h fun s hs x hx => he x (hl x hx) s hs
  have hlast : ∀ x ∈ storesLast (s.frame c f) (resolve effs).1, x ∈ effs := fun x hx => by
    rcases List.mem_append.mp hx with hx | hx <;> exact resolve_sub (List.mem_of_mem_filter hx)
  simp only [commit]
  (repeat' split) <;> simp [hacts _ hlast]

theorem canonical_attempt (hm : MeaningKeeps m) (h : Canonical s.memory) : Canonical (attempt s c f b m rdy).memory := by
  simp only [attempt]
  split
  next => simp [h]
  next hj =>
    split
    next => simp [h]
    next =>
      split
      next t ht =>
        split at ht
        next => exact canonical_of_atDrain h ht
        next => cases ht
      next =>
        split
        next => simp [h]
        next =>
          split
          next => simp [h]
          next => split <;> simp [h]
          next => simp [h]
          next hgo =>
            split
            next => simp [h]
            next => simp [canonical_commit h (effsKeep_of_judge hm hgo)]
          next => exact h

theorem canonical_tryBundle {b : Bundle} {next : Word} (h : Canonical s.memory) : Canonical (tryBundle s c f b next).memory := by
  simp only [tryBundle]
  split
  next => simp [h]
  next => exact canonical_attempt meaningKeeps_slotMeaning (by simpa using h)

@[simp] theorem canonical_drainPointRun (h : Canonical s.memory) : Canonical (drainPointRun s c f).memory := by
  simp only [drainPointRun]
  split
  next =>
    split
    next => exact h
    next =>
      split
      next => exact h
      next =>
        split
        next => exact h
        next =>
          split
          next ht => exact canonical_of_atDrain h ht
          next => exact h
  next => exact h

theorem canonical_of_issueTurn {t : State} (h : Canonical s.memory) (ht : issueTurn s c f = some t) : Canonical t.memory := by
  simp only [issueTurn] at ht
  repeat' split at ht
  all_goals cases ht
  · simp [h]
  · simp [h]
  · exact canonical_attempt meaningKeeps_slotMeaning h

theorem canonical_of_coreTurn {t : State} (h : Canonical s.memory) (ht : coreTurn s c = some t) : Canonical t.memory := by
  unfold coreTurn at ht
  dsimp only at ht
  split at ht
  next => cases ht
  next =>
    split at ht
    next =>
      split at ht
      next =>
        cases ht
        simpa using h
      next => cases ht
    next =>
      split at ht
      next =>
        repeat' split at ht
        all_goals cases ht
        all_goals simp [h]
      next =>
        split at ht
        next => exact canonical_of_issueTurn (by simpa using h) ht
        next => cases ht

/-! Steps. -/

/-- Where a step ends in a state, its memory is canonical. -/
def OutcomeKeeps (o : Host.Outcome State Fault Refusal) : Prop := ∀ t, o = .next t → Canonical t.memory

theorem outcomeKeeps_next {t : State} (h : Canonical t.memory) : OutcomeKeeps (.next t) := fun _ ht => Host.Outcome.next.inj ht ▸ h

theorem outcomeKeeps_powered {t : State} (h : Canonical t.memory) : OutcomeKeeps (powered s t) := by
  unfold powered
  split
  next => exact outcomeKeeps_next h
  next => exact nofun

theorem outcomeKeeps_solo {i : Instr} {m : Ctx → State → SlotRes} (h : Canonical s.memory) (hm : ∀ k s, SlotKeeps (m k s)) :
    OutcomeKeeps (solo s i m) := by
  unfold solo
  split
  next => exact nofun
  next =>
    split
    next => exact outcomeKeeps_next h
    next =>
      split
      next => exact outcomeKeeps_next (canonical_attempt (fun _ => hm) (by simpa using h))
      next => exact outcomeKeeps_next (canonical_enterTrap h)

/-- A slot instruction is that slot alone. -/
theorem exec_of_unit {i : Instr} (hi : i.unit ≠ none) (s : State) : exec i s = solo s i (slotMeaning i) := by
  cases i
  all_goals try rfl
  all_goals exact absurd rfl hi

theorem outcomeKeeps_event {i : Instr} (hi : i.unit = none) (h : Canonical s.memory) : OutcomeKeeps (exec i s) := by
  cases i
  all_goals try exact absurd hi (Option.some_ne_none _)
  case bundleIssue => exact outcomeKeeps_powered (by split <;> simp [h, canonical_tryBundle])
  case powerOnReset => exact outcomeKeeps_next canonical_bootRun
  all_goals exact outcomeKeeps_powered (by simp [h])

theorem outcomeKeeps_exec (i : Instr) (h : Canonical s.memory) : OutcomeKeeps (exec i s) := by
  by_cases hi : i.unit = none
  · exact outcomeKeeps_event hi h
  · rw [exec_of_unit hi]
    exact outcomeKeeps_solo h fun _ _ => keeps_slotMeaning i

/-! A step: what the agenda asks for, or the machine's own turn. -/

theorem canonical_of_coresTurn {t : State} (h : Canonical s.memory) (ht : coresTurn s = some t) : Canonical t.memory := by
  obtain ⟨u, hu, rfl⟩ := Option.map_eq_some_iff.mp ht
  obtain ⟨c, -, hc⟩ := List.exists_of_findSome?_eq_some hu
  simpa using canonical_of_coreTurn h hc

theorem canonical_of_engineTurn {t : State} (h : Canonical s.memory) (ht : engineTurn exec s = some t) : Canonical t.memory := by
  obtain ⟨i, -, hi⟩ := List.exists_of_findSome?_eq_some ht
  split at hi
  next hx =>
    split at hi
    next => cases hi
    next =>
      cases hi
      exact outcomeKeeps_exec i h _ hx
  next => cases hi

theorem canonical_firstOf {x y : Option State} {d : State} (hx : ∀ t, x = some t → Canonical t.memory)
    (hy : ∀ t, y = some t → Canonical t.memory) (hd : Canonical d.memory) : Canonical ((x <|> y).getD d).memory := by
  cases x with
  | some t => exact hx t rfl
  | none =>
    cases y with
    | some t => exact hy t rfl
    | none => exact hd

theorem canonical_ownTurn (h : Canonical s.memory) : Canonical (ownTurn exec s).memory := by
  have hlater : ∀ n, Canonical ({ s with now := n } : State).memory := fun n => by simpa using h
  unfold ownTurn
  dsimp only
  split
  next => exact canonical_firstOf (fun _ => canonical_of_engineTurn (hlater _)) (fun _ => canonical_of_coresTurn h) (hlater _)
  next => exact canonical_firstOf (fun _ => canonical_of_coresTurn h) (fun _ => canonical_of_engineTurn h) (hlater _)

theorem outcomeKeeps_choose (x : Choice) (h : Canonical s.memory) : OutcomeKeeps (choose exec x s) := by
  unfold choose
  split
  next c =>
    refine outcomeKeeps_powered ?_
    cases ht : coreTurn s c with
    | none => exact h
    | some t => exact canonical_of_coreTurn h ht
  next i => exact outcomeKeeps_exec i h
  next => exact outcomeKeeps_next (canonical_input h)

theorem outcomeKeeps_step (h : Canonical s.memory) : OutcomeKeeps (step s) := by
  unfold step
  split
  next => exact outcomeKeeps_choose _ (canonical_syncAll (by simpa using h))
  next => exact outcomeKeeps_powered (canonical_ownTurn (canonical_syncAll h))

end

end Sys2Proof.Machine
end

section
open Sys2Proof.Machine

/-- Settles O58: whatever a step does to global memory and its poison, it does by operations that keep their canonical form. -/
theorem memoryKept : Obligations.MemoryKept := by
  unfold Obligations.MemoryKept
  exact fun _ t h ht => outcomeKeeps_step h t ht
end

section
/-! SUPPORT. Declared buffers: what a declaration, `bstate` and `bfree` do to the buffer they name (R73, R74, R213 to R215). -/

namespace Sys2Proof.Machine

theorem Frame.buf_of_none {r : Frame} (h : r.bufs = Vector.replicate 64 none) (i : Nat) : r.buf i = none := by
  simp only [Frame.buf, h, Vector.toList_replicate, List.getD_eq_getElem?_getD, List.getElem?_replicate]
  split <;> rfl

/-- Where nothing is declared no run touches a buffer (R73). -/
theorem touched_of_none {r : Frame} (h : r.bufs = Vector.replicate 64 none) (l : List Run) : touched r l = [] :=
  List.filter_eq_nil_iff.2 fun i _ => by
    have hi : r.bufs.toList.getD i none = none := Frame.buf_of_none h i
    rw [hi]
    exact Bool.false_ne_true

theorem bufApply_one {r : Frame} {e : BufEvent} {i : Nat} {b : Buf} {x : Option Buf} (hb : r.buf i = some b) (hx : bufRow e b = some x) :
    bufApply r e [i] = r.setBuf i x := by
  simp only [bufApply, List.foldl_cons, List.foldl_nil, hb, hx]

theorem bufApply_issue (e : BufEvent) (l : List Nat) (r : Frame) : (bufApply r e l).issue = r.issue := by
  refine foldl_keeps Frame.issue (fun r i => ?_) l r
  split
  · split <;> rfl
  · rfl

theorem bufInfo_of_some {r : Frame} {i : Nat} {b : Buf} (h : r.buf i = some b) :
    bufInfo r i = w64 (i + b.st.code * 2 ^ 8 + b.fill * 2 ^ 16 + b.rd * 2 ^ 24) := by
  simp only [bufInfo, h, Nat.shiftLeft_eq]

theorem bufInfo_of_none {r : Frame} {i : Nat} (h : r.buf i = none) : bufInfo r i = w64 i := by
  simp only [bufInfo, h]

/-! The rows that `bstate` and `bfree` name, by the state of the buffer (R74). -/

theorem bufRow_mark {b : Buf} (h : b.st = .empty ∨ b.st = .full) (full : Bool) :
    bufRow (if full then .toFull else .toEmpty) b = some (some { b with st := if full then .full else .empty }) := by
  obtain hst | hst := h <;> cases full <;> simp [bufRow, hst]

theorem bufRow_mark_none {b : Buf} (h : b.st = .filling ∨ b.st = .draining ∨ b.st = .lost) (full : Bool) :
    bufRow (if full then .toFull else .toEmpty) b = none := by
  obtain hst | hst | hst := h <;> cases full <;> simp [bufRow, hst]

theorem bufRow_free {b : Buf} (h : b.st = .empty ∨ b.st = .full ∨ b.st = .lost) : bufRow .free b = some none := by
  obtain hst | hst | hst := h <;> simp [bufRow, hst]

theorem bufRow_free_none {b : Buf} (h : b.st = .filling ∨ b.st = .draining) : bufRow .free b = none := by
  obtain hst | hst := h <;> simp [bufRow, hst]

/-! An instruction that names a buffer, at a quiet core. -/

section
variable {s : State} {i : Instr} {x : SlotIns} {e : BufEvent} {buf : BitVec 6}
variable (hq : s.quiet = true) (hwf : i.wf = true) (hs : soloSlot i = some x) (hp : plain s.cf i = true)
include hq hwf hs hp

theorem solo_bufOp_of_row {b : Buf} {y : Option Buf} (hb : s.cf.buf buf.toNat = some b) (hrow : bufRow e b = some y) :
    solo s i (fun k _ => bufOp k e buf) = .next (s.issued fun r => r.setBuf buf.toNat y) := by
  have hb' : (s.ctx i).r.buf buf.toNat = some b := hb
  have hop : bufOp (s.ctx i) e buf = .ok (onFrame (s.ctx i) fun r => bufApply r e [buf.toNat]) := by simp [bufOp, hb', hrow]
  rw [solo_frameOnly s _ hq hwf hs hp hop ⟨rfl, rfl, rfl, rfl, rfl, rfl, rfl, rfl⟩ rfl (bufApply_issue e _)]
  exact congrArg _ (State.issued_congr (bufApply_one hb hrow))

theorem solo_bufOp_of_refused {b : Buf} (hb : s.cf.buf buf.toNat = some b) (hrow : bufRow e b = none) :
    solo s i (fun k _ => bufOp k e buf) = .next (s.traps i 7
      (w64 (buf.toNat + b.st.code * 2 ^ 8 + b.fill * 2 ^ 16 + b.rd * 2 ^ 24)) (b.base.setWidth 64)) := by
  have hb' : (s.ctx i).r.buf buf.toNat = some b := hb
  have hop : bufOp (s.ctx i) e buf = .error ((s.ctx i).bufTrap buf b.base.toNat) := by simp [bufOp, hb', hrow]
  have hadr : w64 b.base.toNat = b.base.setWidth 64 := BitVec.eq_of_toNat_eq (by simp [w64])
  rw [solo_trap s hq hwf hs hp hop, Ctx.bufTrap, bufInfo_of_some hb', hadr]
  rfl

theorem solo_bufOp_of_undeclared (hb : s.cf.buf buf.toNat = none) :
    solo s i (fun k _ => bufOp k e buf) = .next (s.traps i 7 (w64 buf.toNat) 0) := by
  have hb' : (s.ctx i).r.buf buf.toNat = none := hb
  have hop : bufOp (s.ctx i) e buf = .error ((s.ctx i).bufTrap buf 0) := by simp [bufOp, hb']
  rw [solo_trap s hq hwf hs hp hop, Ctx.bufTrap, bufInfo_of_none hb']
  rfl

end

/-- A declaration that keeps to R213, where nothing is declared and no bank is retired, stands. -/
theorem bdeclFault_none {k : Ctx} {base len : Word} {nl : BitVec 3} {t : Task} (buf : BitVec 6)
    (hwin : windowOk base = true) (hform : spForm (bits base.toNat 0 32) = true) (hal : bits base.toNat 0 32 % 64 = 0)
    (hpos : 0 < len.toNat) (hmul : len.toNat % 64 = 0) (htask : k.r.task = some t)
    (hsize : spOff (bits base.toNat 0 32) + len.toNat ≤ t.sizeOf (spFace (bits base.toNat 0 32)))
    (htop : spLayer (bits base.toNat 0 32) + nl.toNat < 8) (hbanks : k.r.banks = []) (hbufs : k.r.bufs = Vector.replicate 64 none)
    (hlayer : ∀ z, spLayer (bits base.toNat 0 32) ≤ z → z ≤ spLayer (bits base.toNat 0 32) + nl.toNat → layerIn k.r z = true) :
    bdeclFault k buf base len nl = none := by
  have hin : (((List.range (nl.toNat + 1)).map (spLayer (bits base.toNat 0 32) + ·)).filter (· < 8)).find?
      (fun z => !layerIn k.r z) = none := by
    refine List.find?_eq_none.2 fun z hz => ?_
    obtain ⟨j, hj, rfl⟩ := List.mem_map.1 (List.mem_of_mem_filter hz)
    have := List.mem_range.1 hj
    simp [hlayer (spLayer (bits base.toNat 0 32) + j) (by omega) (by omega)]
  have hbad : ¬ ((k.r.buf buf.toNat).isSome = true ∨ len.toNat = 0 ∨ len.toNat % 64 ≠ 0 ∨ bits base.toNat 0 32 % 64 ≠ 0 ∨
      7 < spLayer (bits base.toNat 0 32) + nl.toNat ∨ t.sizeOf (spFace (bits base.toNat 0 32)) < spOff (bits base.toNat 0 32) + len.toNat ∨
      touched k.r (((List.range (nl.toNat + 1)).map (spLayer (bits base.toNat 0 32) + ·)).map fun z =>
        (z, spFace (bits base.toNat 0 32), spOff (bits base.toNat 0 32), len.toNat)) ≠ []) := by
    rw [Frame.buf_of_none hbufs, touched_of_none hbufs]
    simp only [Option.isSome_none, ne_eq, not_true_eq_false, or_false, Bool.false_eq_true, false_or]
    omega
  have hgone : ∀ (l : List Nat) (g : Nat → List Nat), (l.findSome? fun z => ((g z).find? fun b =>
      k.r.banks.contains (z * 256 + spFace (bits base.toNat 0 32) * 64 + b)).map fun b => (z, b)) = none := fun l g => by
    simp [hbanks]
  have hne : len.toNat ≠ 0 := by omega
  simp only [bdeclFault, hin, hwin, hform, htask, if_neg hne, hgone, if_neg hbad]
  simp

theorem slotBdecl_of_stands {k : Ctx} {buf : BitVec 6} {base len : Reg} {nl : BitVec 3} (s : State)
    (h : bdeclFault k buf (k.rd .a base) (k.rd .a len) nl = none) :
    slotBdecl buf base len nl k s = .ok (onFrame k fun r =>
      r.setBuf buf.toNat (some ⟨(k.rd .a base).setWidth 32, (k.rd .a len).toNat, nl.toNat, .empty, 0, 0, k.opId⟩)) := by
  simp only [slotBdecl, h]

end Sys2Proof.Machine
end

section
/-! CLAIM. Declarations, and the rows of the buffer table that `bstate` and `bfree` name. -/

open Sys2Proof Sys2Proof.Machine

/-- Settles O26: a declaration that keeps to R213 stands; `bstate` and `bfree` take the row of R74 for the buffer's state, and
where it has none the buffer is the one the trap names. -/
theorem declaredBuffers : Obligations.DeclaredBuffers := by
  unfold Obligations.DeclaredBuffers
  intro s buf hq
  dsimp only
  refine ⟨fun base len nl t hwin hform hal hpos hmul htask hsize htop hbanks hbufs hlayer => ?_, fun b hb => ?_, fun hb => ?_⟩
  · have hslot := slotBdecl_of_stands (k := s.ctx (.bdecl buf base len nl)) s
      (bdeclFault_none buf hwin hform hal hpos hmul htask hsize htop hbanks hbufs hlayer)
    exact solo_frameOnly s _ hq rfl rfl rfl hslot ⟨rfl, rfl, rfl, rfl, rfl, rfl, rfl, rfl⟩ rfl fun _ => rfl
  · refine ⟨fun h => ⟨?_, ?_⟩, fun h => ?_, fun h => ⟨?_, ?_⟩, fun h => ?_⟩
    · exact solo_bufOp_of_row hq rfl rfl rfl hb (bufRow_mark h true)
    · exact solo_bufOp_of_row hq rfl rfl rfl hb (bufRow_mark h false)
    · exact solo_bufOp_of_row hq rfl rfl rfl hb (bufRow_free h)
    · exact solo_bufOp_of_refused hq rfl rfl rfl hb (bufRow_mark_none h true)
    · exact solo_bufOp_of_refused hq rfl rfl rfl hb (bufRow_mark_none h false)
    · exact solo_bufOp_of_refused hq rfl rfl rfl hb (bufRow_free_none h)
  · exact ⟨solo_bufOp_of_undeclared hq rfl rfl rfl hb, fun full => solo_bufOp_of_undeclared hq rfl rfl rfl hb⟩
end

section
/-! SUPPORT. A gather with lanes in two lines of a bank whose number is not 0: the trap that the model takes for it (R71, R200, R317). -/

namespace Sys2Proof.Machine
open Sys2Proof.Tests

/-- Every lane of V5 is 0 but lane 1, which is −1; A3 is the address of the last line of the reservation in layer 1, face 0. -/
def twoLines : State := (at3 (spEnd + 2 ^ 29 - 64)).modCf fun r =>
  { r with regs := { r.regs with v := [(5, BitVec.ofNat 2048 ((2 ^ 64 - 1) * 2 ^ 64))] } }

/-- The bank and the line of a lane of a gather of 64-bit elements with base A3 and indices V5, scaled by 8. -/
def gatherBank (s : State) (l : Nat) : Nat × Nat := laneBank s.cf (bits (gatherEa s l).toNat 0 32)

theorem twoLines_quiet : twoLines.quiet = true := by decide +kernel

/-- No lane meets an address fault. -/
theorem twoLines_addresses : ∀ l, l < Ty.s64.lanes → let a := bits (gatherEa twoLines l).toNat 0 32
    (gatherEa twoLines l).toNat % (Ty.s64.width / 8) = 0 ∧ windowOk (gatherEa twoLines l) = true ∧ layerIn twoLines.cf (spLayer a) = true ∧
    spInside twoLines.cf a (Ty.s64.width / 8) = true ∧ spRetired twoLines.cf a = false ∧
    spRetired twoLines.cf (a + Ty.s64.width / 8 - 1) = false := by
  decide +kernel

/-- Lanes 0 and 1 stand in two lines of bank 256. -/
theorem twoLines_banks : (gatherBank twoLines 0).1 = 256 ∧ (gatherBank twoLines 1).1 = 256 ∧
    (gatherBank twoLines 0).2 ≠ (gatherBank twoLines 1).2 := by
  decide +kernel

/-- `TINFO(2)` of the running frame. -/
def State.tinfo2 (u : State) : Word := u.cf.priv.tinfo[2]

/-- `TINFO(2)` once an instruction has been executed. -/
def tinfo2After (i : Instr) (s : State) : Option Word := match exec i s with | .next u => some u.tinfo2 | _ => none

theorem tinfo2After_of_next {i : Instr} {s u : State} (h : exec i s = .next u) : tinfo2After i s = some u.tinfo2 := by
  rw [tinfo2After, h]

/-- Layer 1 is bits 31 to 24 of the word for bank 256, with lane 1 in bits 15 to 8. In `gatherCheck` a shift binds closer than `%` and `/`:
its word is the bank, modulo 64 · 2^16, added to lane 1 in bits 15 to 8 and to bank / 64. -/
theorem twoLines_trap : tinfo2After (.vgath .s64 3 5 3 6) twoLines = some 0x204 := by decide +kernel

theorem twoLines_named : (twoLines.traps (.vgath .s64 3 5 3 6) 6
    (w64 (0 + 1 * 2 ^ 8 + 256 % 64 * 2 ^ 16 + 256 / 64 % 4 * 2 ^ 22 + 256 / 256 * 2 ^ 24))).tinfo2 = 0x1000100 := by
  decide +kernel

/-- What the statement says of such a gather. -/
theorem conflict_of_statement (h : Obligations.GatherAndScatter) {s : State} {bk : Nat} (hq : s.quiet = true)
    (haddr : ∀ l, l < Ty.s64.lanes → let a := bits (gatherEa s l).toNat 0 32
      (gatherEa s l).toNat % (Ty.s64.width / 8) = 0 ∧ windowOk (gatherEa s l) = true ∧ layerIn s.cf (spLayer a) = true ∧
      spInside s.cf a (Ty.s64.width / 8) = true ∧ spRetired s.cf a = false ∧ spRetired s.cf (a + Ty.s64.width / 8 - 1) = false)
    (hbank0 : (gatherBank s 0).1 = bk) (hbank1 : (gatherBank s 1).1 = bk) (hline : (gatherBank s 0).2 ≠ (gatherBank s 1).2) :
    exec (.vgath .s64 3 5 3 6) s = .next (s.traps (.vgath .s64 3 5 3 6) 6
      (w64 (0 + 1 * 2 ^ 8 + bk % 64 * 2 ^ 16 + bk / 64 % 4 * 2 ^ 22 + bk / 256 * 2 ^ 24))) := by
  subst hbank1
  exact (h s .s64 3 5 6 3 hq rfl).1 false 1 0 (fun hst => nomatch hst) haddr Nat.zero_lt_one (by decide) hbank0 hline
    (fun l hl => absurd hl (Nat.not_lt_zero l)) (fun l m hl hm _ => by rw [Nat.lt_one_iff.1 hl, Nat.lt_one_iff.1 hm])

end Sys2Proof.Machine
end

section
/-! CLAIM. Gathers and scatters. -/

open Sys2Proof Sys2Proof.Machine

/-- Refutes O21: the `TINFO(2)` of a bank conflict is not the one stated where the bank is not 0. Lanes 0 and 1 of a gather
in layer 1 stand in two lines of bank 256: the statement's `TINFO(2)` is 0x1000100, the model's 0x204. -/
theorem not_gatherAndScatter : ¬ Obligations.GatherAndScatter := by
  intro h
  obtain ⟨hbank0, hbank1, hline⟩ := twoLines_banks
  have htrap := tinfo2After_of_next (conflict_of_statement h twoLines_quiet twoLines_addresses hbank0 hbank1 hline)
  rw [twoLines_named, twoLines_trap] at htrap
  exact absurd htrap (by decide)
end

section
/-! SUPPORT. An atomic whose line is wider than its operand: the write that the model makes of it (R205). -/

namespace Sys2Proof.Machine
open Sys2Proof.Tests

/-- The line of two bytes at address 64, sent and not yet performed. -/
def wideLine : Line := ⟨64, 2, some 64, .sent, 0, [], false⟩

/-- An `atom.min` of one byte, with 5, at that line. -/
def wideMin : LsEnt := ⟨0, ⟨0, 0, 0, 0⟩, .atom .min .cube false 0 0 0 0 5, 0, none, 64, 0, [wideLine]⟩

/-- The two bytes hold 256; the atomic alone is in flight. -/
def wideState : State :=
  { faced.modFrame 0 0 fun r => { r with fl := { Flight.none with fly := [wideMin] } } with mem := memSet [] 65 1, merge := [], poison := [] }

theorem wideState_ready : (wideState.frame 0 0).task.isSome = true ∧ (wideState.frame 0 0).issue.swapped = false ∧
    wideState.teasel.power = true ∧ (wideState.frame 0 0).fl = { Flight.none with fly := [wideMin] } ∧ wideState.merge = [] ∧
    poisoned wideState 64 = false ∧ gRead wideState 64 2 = 256 := by
  decide +kernel

/-- The bytes of the writes that are accepted and yet to perform, once an instruction has been executed. -/
def writesAfter (i : Instr) (s : State) : Option (List (List Byte)) :=
  match exec i s with | .next u => some (u.merge.map (·.bytes)) | _ => none

theorem writesAfter_of_next {i : Instr} {s u : State} (h : exec i s = .next u) : writesAfter i s = some (u.merge.map (·.bytes)) := by
  rw [writesAfter, h]

/-- The model compares 5 with the 256 of both bytes, and writes 5. -/
theorem wideState_writes : writesAfter (.atomicPerform 0 0 0) wideState = some [[5, 0]] := by decide +kernel

end Sys2Proof.Machine
end

section
/-! CLAIM. Global accesses. -/

open Sys2Proof Sys2Proof.Machine

/-- Refutes O39, by its clause of an atomic: nothing in it makes the line as wide as the operand. For an `atom.min` of one byte with 5 at a
line of two bytes that hold 256, the statement compares 5 with the low byte 0 and leaves 256; the model compares it with 256 and writes 5.
No instruction makes such a line. -/
theorem not_globalAccessesMove : ¬ Obligations.GlobalAccessesMove := by
  unfold Obligations.GlobalAccessesMove
  intro h
  obtain ⟨htask, hswapped, hpower, hfl, hmerge, hpoison, hread⟩ := wideState_ready
  obtain ⟨-, -, -, -, -, -, -, hatomic, -⟩ := h wideState 0 0 wideMin htask hswapped
  obtain ⟨t, new, hexec, -, hwrite, -, -, hnew⟩ :=
    (hatomic .min .cube false 0 0 0 0 5 wideLine 64 ⟨hpower, hfl⟩ rfl rfl rfl rfl).2 hpoison
  have hbytes := writesAfter_of_next hexec
  have hnew' : new = 256 := by
    rw [hnew]
    change (if (BitVec.ofNat 8 5).slt (BitVec.ofNat 8 (gRead wideState 64 2)) then 5 else gRead wideState 64 2) = 256
    rw [hread]
    decide
  rw [hwrite, hmerge, hnew'] at hbytes
  exact absurd (wideState_writes.symm.trans hbytes) (by decide)
end

section
/-! SUPPORT. Requests and messages: what the operations on a cube's requests, on a task's messages and on the ports leave of each other
(R259, R363, R368, R369). -/

namespace Sys2Proof.Machine

/-! Cubes and frames. -/

theorem State.frame_modCube_of_frames {g : Cube → Cube} (hg : ∀ q, (g q).frames = q.frames) (s : State) (c d : CubeId) (f : FrameId) :
    (s.modCube c g).frame d f = s.frame d f := by
  rw [State.frame, State.cube_modCube]
  split
  next h => rw [h, State.frame, Cube.frame, Cube.frame, hg]
  next => rfl

/-- A part of a cube that holds no frame is as it was once a frame has changed. -/
theorem cube_modFrame_keeps {α : Type} (p : Cube → α) (hp : ∀ (q : Cube) l, p { q with frames := l } = p q) (s : State) (c d : CubeId)
    (f : FrameId) (g : Frame → Frame) : p ((s.modFrame c f g).cube d) = p (s.cube d) := by
  rw [State.modFrame, State.setFrame, State.cube_modCube]
  split
  next h => rw [h, Cube.setFrame, hp]
  next => rfl

/-- A part of a frame that an update of another part keeps. -/
theorem frame_modFrame_keeps {α : Type} (p : Frame → α) {g : Frame → Frame} (hg : ∀ r, p (g r) = p r) (s : State) (c d : CubeId)
    (f e : FrameId) : p ((s.modFrame c f g).frame d e) = p (s.frame d e) := by
  rw [State.frame_modFrame]
  split
  next h => rw [hg, h.1, h.2]
  next => rfl

/-! The ports of a cube. -/

/-- The hub, the package and the fabric of a cube are the same. -/
structure SameWires (c : CubeId) (s u : State) : Prop where
  hub : u.hub = s.hub
  pkg : u.pkg = s.pkg
  fab : (u.cube c).fab = (s.cube c).fab

namespace SameWires
variable {c : CubeId} {s u v : State}

theorem refl (c : CubeId) (s : State) : SameWires c s s := ⟨rfl, rfl, rfl⟩
theorem trans (h : SameWires c s u) (k : SameWires c u v) : SameWires c s v :=
  ⟨k.hub.trans h.hub, k.pkg.trans h.pkg, k.fab.trans h.fab⟩

theorem modFrame (h : SameWires c s u) (d : CubeId) (f : FrameId) (g : Frame → Frame) : SameWires c s (u.modFrame d f g) :=
  h.trans ⟨rfl, rfl, cube_modFrame_keeps Cube.fab (fun _ _ => rfl) ..⟩

theorem modCube (h : SameWires c s u) (d : CubeId) {g : Cube → Cube} (hg : ∀ q, (g q).fab = q.fab) : SameWires c s (u.modCube d g) := by
  refine h.trans ⟨rfl, rfl, ?_⟩
  rw [State.cube_modCube]
  split
  next hd => rw [hg, hd]
  next => rfl

theorem portUp (h : SameWires c s u) (n lane : Nat) : portUp u c n lane = portUp s c n lane := by
  rw [Machine.portUp, Machine.portUp, h.fab, h.pkg]

end SameWires

/-- A request of lane 0 to a package leaves a cube, or waits for a port there (R365, R366). -/
def Posted (s t : State) (c : CubeId) (n : Nat) (m : RemoteKind) : Prop :=
  ∃ q : RemoteReq, q.kind = m ∧ q.srcPkg = s.pkg ∧ q.srcCube = c ∧ q.dstPkg = n ∧
    (portUp s c n 0 = true → t.hub.outbox = s.hub.outbox ++ [q] ∧ t.hub.held = s.hub.held) ∧
    (portUp s c n 0 = false → t.hub.outbox = s.hub.outbox ∧ t.hub.held = s.hub.held ++ [q])

/-- A request to another package is posted under some fabric partition. -/
theorem sendFar_eq_post (s : State) (part : Nat) (c : CubeId) (n lane : Nat) (m : RemoteKind) (tag : Option ReqTag) :
    ∃ fp, sendFar s part c n lane m tag = post s ⟨s.pkg, c, fp, n, 0, BitVec.ofNat 3 lane, tag, m⟩ := ⟨_, rfl⟩

theorem SameWires.posted {c : CubeId} {s u : State} (h : SameWires c s u) (part n : Nat) (m : RemoteKind) (tag : Option ReqTag) :
    Posted s (sendFar u part c n 0 m tag) c n m := by
  have hlane : Machine.portUp u c n (BitVec.ofNat 3 0).toNat = Machine.portUp s c n 0 := h.portUp n 0
  obtain ⟨fp, hsend⟩ := sendFar_eq_post u part c n 0 m tag
  refine ⟨⟨u.pkg, c, fp, n, 0, BitVec.ofNat 3 0, tag, m⟩, rfl, h.pkg, rfl, rfl, fun hup => ?_, fun hup => ?_⟩
  · rw [hsend, post, State.modHub_hub]
    dsimp only
    rw [hlane, if_pos hup, h.hub]
    exact ⟨rfl, rfl⟩
  · rw [hsend, post, State.modHub_hub]
    dsimp only
    rw [hlane, if_neg (by rw [hup]; decide), h.hub]
    exact ⟨rfl, rfl⟩

theorem Posted.of_hub {s t u : State} {c : CubeId} {n : Nat} {m : RemoteKind} (h : Posted s t c n m) (hhub : u.hub = t.hub) :
    Posted s u c n m := by
  rw [Posted, hhub]
  exact h

/-! The requests of a cube. -/

section
variable (s : State) (c d : CubeId) (n : Nat) (f : FrameId)

@[simp] theorem addReq_frame (q : YReq) : (addReq s c q).frame d f = s.frame d f :=
  State.frame_modCube_of_frames (fun _ => by rfl) s c d f
@[simp] theorem modReq_frame (g : YReq → YReq) : (modReq s c n g).frame d f = s.frame d f :=
  State.frame_modCube_of_frames (fun _ => by rfl) s c d f
@[simp] theorem dropReq_frame : (dropReq s c n).frame d f = s.frame d f :=
  State.frame_modCube_of_frames (fun _ => by rfl) s c d f

theorem modReq_reqs (g : YReq → YReq) : ((modReq s c n g).cube c).reqs = (s.cube c).reqs.map fun q => if q.num = n then g q else q := by
  rw [modReq, State.cube_modCube_same]

theorem dropReq_reqs : ((dropReq s c n).cube c).reqs = (s.cube c).reqs.filter (·.num ≠ n) := by
  rw [dropReq, State.cube_modCube_same]

end

theorem findReq_single {s : State} {c : CubeId} {q : YReq} (h : (s.cube c).reqs = [q]) : findReq s c q.num = some q := by
  simp [findReq, h]

theorem modReq_reqs_single {s : State} {c : CubeId} {q : YReq} (h : (s.cube c).reqs = [q]) (g : YReq → YReq) :
    ((modReq s c q.num g).cube c).reqs = [g q] := by
  rw [modReq_reqs, h]
  simp

theorem dropReq_reqs_single {s : State} {c : CubeId} {q : YReq} (h : (s.cube c).reqs = [q]) : ((dropReq s c q.num).cube c).reqs = [] := by
  rw [dropReq_reqs, h]
  simp

/-! The receiver of a request. -/

/-- A request for a declared buffer of a resident task. -/
structure ForBuffer (s : State) (c : CubeId) (q : YReq) (f : FrameId) (i : Nat) (y : Buf) (x : Task) : Prop where
  recv : q.recv = some (f.val, (i, y.gen))
  rtask : q.rtask = some (x.part, x.launch, x.gang, x.rank)
  task : (s.frame c f).task = some x
  away : (s.frame c f).away = false
  buf : (s.frame c f).buf i = some y

namespace ForBuffer
variable {s : State} {c : CubeId} {q : YReq} {f : FrameId} {i : Nat} {y : Buf} {x : Task} (h : ForBuffer s c q f i y x)
include h

theorem recvHere : recvHere s c q = true := by
  simp [Machine.recvHere, h.recv, h.rtask, frameOf_val, h.task, h.away]

theorem recvLost : recvLost s c q = decide (y.st = .lost) := by
  simp [Machine.recvLost, h.recvHere, h.recv, frameOf_val, h.buf]

end ForBuffer

theorem recvHere_global {q : YReq} (s : State) (c : CubeId) (h : q.recv = none) : recvHere s c q = true := by simp [recvHere, h]
theorem recvLost_global {q : YReq} (s : State) (c : CubeId) (h : q.recv = none) : recvLost s c q = false := by
  simp [recvLost, h]

/-! The messages of a task. -/

section
variable {s t : State} {k : MsgKey}

/-- A message is found by the tasks of the frames and their messages alone. -/
theorem findMsg_congr (h : ∀ c f, (t.frame c f).task = (s.frame c f).task ∧ (t.frame c f).fl.msgs = (s.frame c f).fl.msgs) :
    findMsg t k = findMsg s k := by
  simp only [findMsg, h]

theorem findMsg_mem {c : CubeId} {f : FrameId} {m : MsgAct} (h : findMsg s k = some (c, f, m)) : m ∈ (s.frame c f).fl.msgs := by
  obtain ⟨⟨d, e⟩, -, hd⟩ := List.exists_of_findSome?_eq_some h
  dsimp only at hd
  split at hd
  · split at hd
    · obtain ⟨n, hn, hdn⟩ := Option.map_eq_some_iff.1 hd
      cases hdn
      exact List.mem_of_find?_eq_some hn
    · cases hd
  · cases hd

end

/-- A part of a frame that does not hold the messages is as it was once a message has changed. -/
theorem setMsg_keeps {α : Type} (p : Frame → α) (hp : ∀ (r : Frame) l, p { r with fl := { r.fl with msgs := l } } = p r) (s : State)
    (c d : CubeId) (f e : FrameId) (i : Nat) (g : MsgAct → MsgAct) : p ((setMsg s c f i g).frame d e) = p (s.frame d e) :=
  frame_modFrame_keeps p (fun r => hp r _) ..

theorem setMsg_msgs (s : State) (c : CubeId) (f : FrameId) (i : Nat) (g : MsgAct → MsgAct) :
    ((setMsg s c f i g).frame c f).fl.msgs = (s.frame c f).fl.msgs.map fun m => if m.msgid = i then g m else m := by
  rw [setMsg, State.frame_modFrame_same]

/-! The sender is told. -/

/-- What neither a message nor a request to another package touches is the same once the sender has been told. -/
theorem tellSender_keeps {α : Type} (p : State → α) (hmsg : ∀ s c f i g, p (setMsg s c f i g) = p s) (hhub : ∀ s g, p (State.modHub s g) = p s)
    (s : State) (c : CubeId) (q : YReq) (code bytes : Nat) : p (tellSender s c q code bytes) = p s := by
  unfold tellSender
  split
  · split
    · split
      · exact hmsg ..
      · rfl
    · rfl
  · rw [sendFar, post]
    exact hhub ..

section
variable {s u : State} {c : CubeId} {q : YReq} (code bytes : Nat)

theorem tellSender_far (h : SameWires c s u) (hfar : q.srcPkg ≠ s.pkg) : Posted s (tellSender u c q code bytes) c q.srcPkg (.msgEnd q.key code bytes) := by
  rw [tellSender, if_neg (by rw [h.pkg]; exact hfar)]
  exact h.posted ..

theorem tellSender_here {c' : CubeId} {f' : FrameId} {m : MsgAct} (hpkg : q.srcPkg = u.pkg) (hfind : findMsg u q.key = some (c', f', m))
    (hacc : m.acc = some (c.val, q.num)) :
    tellSender u c q code bytes = setMsg u c' f' m.msgid fun m => { m with ended := some code, perf := bytes } := by
  rw [tellSender, if_pos hpkg, hfind]
  exact if_pos hacc

end

/-- A flag of a frame that is not away is its own (R102). -/
theorem signal_flag {s : State} {c : CubeId} {f : FrameId} {sig : BitVec 6} (hsig : sig.toNat < 8) (haway : (s.frame c f).away = false)
    (src : Nat) : signal s c f sig src =
      s.modFrame c f fun r => { r with sync := { r.sync with df := r.sync.df ||| (1#8 <<< sig.toNat) } } := by
  rw [signal]
  dsimp only
  rw [if_pos hsig, if_neg (by rw [haway]; decide)]
  rfl

end Sys2Proof.Machine
end

section
/-! SUPPORT. Writes of the faces: the bytes they leave, and what they leave alone (R69, R70, R77). -/

namespace Sys2Proof.Machine

section
variable {α : Type} (p : Cube → α) (hp : ∀ (q : Cube) f b, p { q with face := f, poison := b } = p q)
include hp

theorem faceSetList_keeps : ∀ (l : List Byte) (q : Cube) (key : Nat), p (faceSetList q key l) = p q
  | [], _, _ => rfl
  | b :: l, q, key => (faceSetList_keeps l (faceSet q key b) (key + 1)).trans (hp q _ q.poison)

/-- A part of a cube other than the faces and their poison is as it was once bytes have been written. -/
theorem faceWrite_keeps (q : Cube) (key : Nat) (l : List Byte) : p (faceWrite q key l) = p q := by
  unfold faceWrite
  dsimp only
  split
  · exact (foldl_keeps p (fun u _ => hp u u.face _) _ _).trans (faceSetList_keeps p hp l q key)
  · exact faceSetList_keeps p hp l q key

end

theorem faceByte_setFacePoison (q : Cube) (key : Nat) (b : Bool) (a : Nat) : faceByte (setFacePoison q key b) a = faceByte q a := rfl

/-- Writing a list of bytes changes the bytes it covers and no other. -/
theorem faceByte_faceSetList : ∀ (l : List Byte) (q : Cube) (key a : Nat),
    faceByte (faceSetList q key l) a = if key ≤ a ∧ a < key + l.length then l.getD (a - key) 0 else faceByte q a
  | [], q, key, a => by
    rw [faceSetList, if_neg]; simp only [List.length_nil]; omega
  | b :: l, q, key, a => by
    have hset : faceByte (faceSet q key b) a = if a = key then b else faceByte q a := fget_fset ..
    rw [faceSetList, faceByte_faceSetList l, hset, List.length_cons]
    obtain hlt | rfl | hgt := Nat.lt_trichotomy a key
    · rw [if_neg (by omega), if_neg (by omega), if_neg (by omega)]
    · rw [if_neg (by omega), if_pos rfl, if_pos (by omega), Nat.sub_self, List.getD_cons_zero]
    · have hsub : a - key = a - (key + 1) + 1 := by omega
      by_cases hin : a < key + 1 + l.length
      · rw [if_pos (by omega), if_pos (by omega), hsub, List.getD_cons_succ]
      · rw [if_neg (by omega), if_neg (by omega), if_neg (by omega)]

theorem faceByte_faceWrite (q : Cube) (key : Nat) (l : List Byte) (a : Nat) :
    faceByte (faceWrite q key l) a = if key ≤ a ∧ a < key + l.length then l.getD (a - key) 0 else faceByte q a := by
  rw [← faceByte_faceSetList]
  unfold faceWrite
  dsimp only
  split
  · exact foldl_keeps (faceByte · a) (fun u i => faceByte_setFacePoison u _ false a) _ _
  · rfl

/-- Bytes written are read again. -/
theorem faceBytes_faceWrite (q : Cube) (key : Nat) (l : List Byte) : faceBytes (faceWrite q key l) key l.length = l := by
  refine List.ext_getElem (by simp [faceBytes]) fun i _ hi => ?_
  simp [faceBytes, faceByte_faceWrite, hi]

/-- A value written in n bytes is read again modulo its width. -/
theorem leVal_faceWrite (q : Cube) (key n v : Nat) : leVal (faceBytes (faceWrite q key (leBytes n v)) key n) = v % 2 ^ (8 * n) := by
  have hread := faceBytes_faceWrite q key (leBytes n v)
  rw [length_leBytes] at hread
  rw [hread, leVal_leBytes]

end Sys2Proof.Machine
end

section
/-! SUPPORT. How fills, messages and silent requests end (R74 to R76, R261, R263, R369). -/

namespace Sys2Proof.Machine

/-! What the end of a request leaves, once its sender has been told. -/

section
variable {s u : State} {c : CubeId} {q : YReq} (code bytes : Nat)

theorem dropReq_tellSender_frame {α : Type} (p : Frame → α) (hp : ∀ (r : Frame) l, p { r with fl := { r.fl with msgs := l } } = p r)
    (n : Nat) (d : CubeId) (e : FrameId) : p ((dropReq (tellSender u c q code bytes) c n).frame d e) = p (u.frame d e) := by
  rw [dropReq_frame]
  exact tellSender_keeps (fun v => p (v.frame d e)) (fun v a f i g => setMsg_keeps p hp v a d f e i g) (fun _ _ => rfl) u c q code bytes

theorem dropReq_tellSender_reqs (hreqs : (u.cube c).reqs = [q]) : ((dropReq (tellSender u c q code bytes) c q.num).cube c).reqs = [] := by
  refine dropReq_reqs_single (Eq.trans ?_ hreqs)
  exact tellSender_keeps (fun v => (v.cube c).reqs) (fun v a f i g => cube_modFrame_keeps Cube.reqs (fun _ _ => rfl) v a c f _)
    (fun _ _ => rfl) u c q code bytes

theorem dropReq_tellSender_memory (n : Nat) : (dropReq (tellSender u c q code bytes) c n).memory = u.memory :=
  memory_dropReq.trans memory_tellSender

theorem dropReq_tellSender_mem (n : Nat) : (dropReq (tellSender u c q code bytes) c n).mem = u.mem :=
  congrArg Prod.fst (dropReq_tellSender_memory code bytes n)

theorem dropReq_tellSender_poisoned (n a : Nat) : poisoned (dropReq (tellSender u c q code bytes) c n) a = poisoned u a :=
  congrArg (fun x : List Host.Cell × FMap Bool => fget false x.2 (a / 64)) (dropReq_tellSender_memory code bytes n)

theorem dropReq_tellSender_logSeq (n : Nat) : (dropReq (tellSender u c q code bytes) c n).teasel.logSeq = u.teasel.logSeq :=
  tellSender_keeps (fun v => v.teasel.logSeq) (fun _ _ _ _ _ => rfl) (fun _ _ => rfl) u c q code bytes

variable (hwires : SameWires c s u)
  (hmsgs : ∀ d e, (u.frame d e).task = (s.frame d e).task ∧ (u.frame d e).fl.msgs = (s.frame d e).fl.msgs)
include hwires

theorem dropReq_tellSender_far (hfar : q.srcPkg ≠ s.pkg) (n : Nat) :
    Posted s (dropReq (tellSender u c q code bytes) c n) c q.srcPkg (.msgEnd q.key code bytes) :=
  (tellSender_far code bytes hwires hfar).of_hub rfl

include hmsgs

/-- A sender of this package finds its message ended. -/
theorem dropReq_tellSender_msgs {c' : CubeId} {f' : FrameId} {m : MsgAct} (hpkg : q.srcPkg = s.pkg)
    (hfind : findMsg s q.key = some (c', f', m)) (hacc : m.acc = some (c.val, q.num)) (n : Nat) :
    ((dropReq (tellSender u c q code bytes) c n).frame c' f').fl.msgs =
      (s.frame c' f').fl.msgs.map fun x => if x.msgid = m.msgid then { x with ended := some code, perf := bytes } else x := by
  rw [dropReq_frame, tellSender_here code bytes (hpkg.trans hwires.pkg.symm) ((findMsg_congr hmsgs).trans hfind) hacc, setMsg_msgs,
    (hmsgs c' f').2]

theorem dropReq_tellSender_ended {c' : CubeId} {f' : FrameId} {m : MsgAct} (hpkg : q.srcPkg = s.pkg)
    (hfind : findMsg s q.key = some (c', f', m)) (hacc : m.acc = some (c.val, q.num)) (n : Nat) :
    ∃ m' ∈ ((dropReq (tellSender u c q code bytes) c n).frame c' f').fl.msgs, m' = { m with ended := some code, perf := bytes } := by
  rw [dropReq_tellSender_msgs code bytes hwires hmsgs hpkg hfind hacc n]
  exact ⟨_, List.mem_map.2 ⟨m, findMsg_mem hfind, if_pos rfl⟩, rfl⟩

end

/-! A fill (R74, R75, R259). -/

theorem Frame.buf_lt {r : Frame} {i : Nat} {y : Buf} (h : r.buf i = some y) : i < 64 := by
  by_contra hge
  rw [Frame.buf, List.getD_eq_default] at h
  · cases h
  · rw [Vector.length_toList]; omega

theorem Frame.buf_setBuf {r : Frame} {i : Nat} {b : Option Buf} (h : i < 64) : (r.setBuf i b).buf i = b := by
  simp [Frame.buf, Frame.setBuf, Nat.mod_eq_of_lt h, h]

theorem fillDone_last {r : Frame} {i : Nat} {y : Buf} (hbuf : r.buf i = some y) (hst : y.st = .filling) (hfill : y.fill ≤ 1) :
    fillDone r [(i, y.gen)] = r.setBuf i (some { y with st := .full, fill := 0 }) := by
  simp [fillDone, hbuf, hst, hfill]

/-- A completed fill changes the buffers alone. -/
theorem fillDone_keeps {α : Type} (p : Frame → α) (hp : ∀ r i b, p (Frame.setBuf r i b) = p r) (r : Frame) (l : List BufRef) :
    p (fillDone r l) = p r := by
  refine foldl_keeps p (fun r x => ?_) l r
  obtain ⟨i, g⟩ := x
  dsimp only
  split
  · split
    · exact hp ..
    · rfl
  · rfl

/-- The receiving frame once a fill has completed and signalled. -/
def Frame.filled (l : List BufRef) (sig : BitVec 6) (r : Frame) : Frame :=
  { fillDone r l with sync := { (fillDone r l).sync with df := (fillDone r l).sync.df ||| (1#8 <<< sig.toNat) } }

section
variable {s : State} {c : CubeId} {q : YReq} (hreqs : (s.cube c).reqs = [q]) (hclosed : q.closed = false)
include hreqs

theorem fillCompleteRun_waits (hlost : recvLost s c q = false) (howed : q.owed ≠ []) : fillCompleteRun s c q.num = s := by
  rw [fillCompleteRun, findReq_single hreqs]
  dsimp only
  split
  · rfl
  · rw [if_neg (by rw [hlost]; decide)]

include hclosed

theorem fillCompleteRun_lost (hhere : recvHere s c q = true) (hlost : recvLost s c q = true) :
    fillCompleteRun s c q.num = dropReq (tellSender s c q 1 q.performed) c q.num := by
  rw [fillCompleteRun, findReq_single hreqs]
  dsimp only
  rw [if_neg (by rw [hclosed, hhere]; decide), if_pos hlost]

theorem fillCompleteRun_filled {f : FrameId} {i : Nat} {y : Buf} {x : Task} (hb : ForBuffer s c q f i y x) (hlost : y.st ≠ .lost)
    (howed : q.owed = []) (hsig : q.rsig.toNat < 8) : fillCompleteRun s c q.num =
      dropReq (tellSender (s.modFrame c f (Frame.filled [(i, y.gen)] q.rsig)) c q 0 q.len) c q.num := by
  have haway : ((s.modFrame c f fun r => fillDone r [(i, y.gen)]).frame c f).away = false := by
    rw [State.frame_modFrame_same, fillDone_keeps Frame.away (fun _ _ _ => rfl), hb.away]
  rw [fillCompleteRun, findReq_single hreqs]
  dsimp only
  rw [if_neg (by rw [hclosed, hb.recvHere]; decide), if_neg (by rw [hb.recvLost]; simpa using hlost), if_neg (not_not_intro howed), hb.recv]
  dsimp only
  rw [frameOf_val, signal_flag hsig haway, State.modFrame_modFrame]
  rfl

end

/-! A message that has ended (R261). -/

theorem dropMsg_sourceRead {s : State} {c : CubeId} {f : FrameId} {m : MsgAct} (hmsgs : (s.frame c f).fl.msgs = [m]) (hsrc : m.srcB = []) :
    dropMsg (sourceRead s c f m) c f m.msgid = s.modFrame c f fun r => { r with fl := { r.fl with msgs := [] } } := by
  rw [dropMsg, sourceRead, setMsg, State.modFrame_modFrame, State.modFrame_modFrame]
  refine modFrame_congr _ _ _ _ _ ?_
  rw [hsrc]
  simp [readDone, hmsgs]

/-- The words that a message's completion leaves at its STATUS, and its sender's frame. -/
def completed (s : State) (c : CubeId) (f : FrameId) (m : MsgAct) (k : Nat) : State :=
  (writeStatus s c f m.recA 0x18 (w64 (m.perf <<< 32 + (m.msgid % (1 <<< 24)) <<< 8 + k))).modFrame c f fun r =>
    { r with fl := { r.fl with msgs := [] } }

theorem msgCompleteRun_ended {s : State} {c : CubeId} {f : FrameId} {m : MsgAct} {k : Nat} (hmsgs : (s.frame c f).fl.msgs = [m])
    (hended : m.ended = some k) (hacc : m.acc = none) (hsrc : m.srcB = []) :
    msgCompleteRun s c f m.msgid = signalOwn (completed s c f m k) c f m.sig 3 := by
  have hfind : (s.frame c f).fl.msgs.find? (fun x => decide (x.msgid = m.msgid)) = some m := by simp [hmsgs]
  have hframe : ((writeStatus s c f m.recA 0x18 (w64 (m.perf <<< 32 + (m.msgid % (1 <<< 24)) <<< 8 + k))).frame c f).fl.msgs = [m] := by
    rw [writeStatus, State.frame_modCube_of_frames (fun q => faceWrite_keeps Cube.frames (fun _ _ _ => rfl) q _ _), hmsgs]
  rw [msgCompleteRun]
  dsimp only
  rw [hfind]
  dsimp only
  rw [hacc, hended]
  dsimp only
  rw [dropMsg_sourceRead hframe hsrc]
  rfl

section
variable (s : State) (c : CubeId) (f : FrameId) (m : MsgAct) (k : Nat)

theorem completed_frame : (completed s c f m k).frame c f =
    { s.frame c f with fl := { (s.frame c f).fl with msgs := [] } } := by
  rw [completed, State.frame_modFrame_same, writeStatus,
    State.frame_modCube_of_frames (fun q => faceWrite_keeps Cube.frames (fun _ _ _ => rfl) q _ _)]

theorem completed_cube {α : Type} (p : Cube → α) (hp : ∀ (q : Cube) l, p { q with frames := l } = p q) : p ((completed s c f m k).cube c) =
    p (faceWrite (s.cube c) ((s.frame c f).key (m.recA.toNat + 0x18))
      (leBytes 8 (w64 (m.perf <<< 32 + (m.msgid % (1 <<< 24)) <<< 8 + k)).toNat)) := by
  rw [completed, cube_modFrame_keeps p hp, writeStatus, State.cube_modCube_same]

end

/-- A frame whose own completion signals a flag, or nothing. -/
def Frame.signals (sig : BitVec 6) (r : Frame) : Frame :=
  { r with sync := { r.sync with df := if sig.toNat < 8 then r.sync.df ||| (1#8 <<< sig.toNat) else r.sync.df } }

theorem signalOwn_cases {s : State} {c : CubeId} {f : FrameId} {sig : BitVec 6} (h : sig.toNat < 8 ∨ sig = 63) (src : Nat) :
    signalOwn s c f sig src = s.modFrame c f (Frame.signals sig) := by
  rw [signalOwn]
  dsimp only
  obtain hflag | rfl := h
  · rw [if_pos hflag]
    exact congrArg (s.modFrame c f) (funext fun r => by rw [Frame.signals, if_pos hflag])
  · exact (modFrame_self s c f _ rfl).symm

/-! An orphan (R263, R369). -/

section
variable {s : State} {c : CubeId} {q : YReq} {line a : Nat} (hreqs : (s.cube c).reqs = [q]) (hclosed : q.closed = false)
  (hrecv : q.recv = none) (howed : q.owed = [line]) (hreturned : q.returned = [line]) (hlen : 0 < q.len)
include hreqs

theorem orphanRun_early (h : q.elapsed s.now < q.orphto) : orphanRun s c q.num = s := by
  rw [orphanRun, findReq_single hreqs]
  dsimp only
  rw [if_pos]
  tauto

/-- A silent request's missing line is poisoned and the event is logged. -/
def orphaned (s : State) (c : CubeId) (q : YReq) (a : Nat) : State :=
  logEvent (setPoison s a true) 0x33 c.val [w64 q.srcPkg, w64 q.srcCube, w64 q.key.msgid, w64 q.performed, w64 q.len]

include hclosed hrecv howed hreturned hlen

theorem orphanRun_late (h : q.orphto ≤ q.elapsed s.now) (ha : globalDst s c q line = .ok a) : orphanRun s c q.num =
    dropReq (tellSender (match (if q.srcPkg = s.pkg then findMsg (orphaned s c q a) q.key else none) with
      | some (c', f', _) => logOrphan (orphaned s c q a) c' f' s.pkg c.val q.key.msgid q.performed
      | none => orphaned s c q a) c q 2 q.performed) c q.num := by
  have howes : q.owes (s.cube c).toks = true := by simp [YReq.owes, hreturned]
  have hgo : ¬ (q.closed = true ∨ q.len = 0 ∨ recvLost s c q = true ∨ (!q.owes (s.cube c).toks) = true ∨ (!recvHere s c q) = true ∨
      q.elapsed s.now < q.orphto) := by
    rw [hclosed, recvLost_global s c hrecv, howes, recvHere_global s c hrecv]
    simp only [Bool.false_eq_true, Bool.not_true, false_or, not_or]
    omega
  have hpoison : poisonMsgLine s c q line = setPoison s a true := by
    rw [poisonMsgLine, hrecv]
    dsimp only
    rw [ha]
  rw [orphanRun, findReq_single hreqs]
  dsimp only
  rw [if_neg hgo, howed, List.foldl_cons, List.foldl_nil, hpoison, hrecv]
  rfl

end

end Sys2Proof.Machine
end

section
/-! CLAIM. How messages end. -/

open Sys2Proof Sys2Proof.Machine

/-- Settles O44: each end is the request's or the message's own update, and what it tells the sender. -/
theorem messagesEnd : Obligations.MessagesEnd := by
  unfold Obligations.MessagesEnd
  intro s c f hpower haway
  dsimp only
  refine ⟨fun q i y x hreqs htoks hclosed hrecv htask hrtask hbuf => ?_, fun m k hmsgs hended hacc hsrc hsig => ?_,
    fun q line a hreqs htoks hclosed hrecv howed hreturned hlen ha => ?_⟩
  · have hb : ForBuffer s c q f i y x := ⟨hrecv, hrtask, htask, haway, hbuf⟩
    refine ⟨fun howed hst hfill hsig => ?_, fun howed hlost => ?_, fun hlost => ?_⟩
    · have hrun := fillCompleteRun_filled hreqs hclosed hb (by rw [hst]; decide) howed hsig
      have hwires : SameWires c s (s.modFrame c f (Frame.filled [(i, y.gen)] q.rsig)) := (SameWires.refl c s).modFrame c f _
      have hmsgs := fun d e => And.intro
        (frame_modFrame_keeps Frame.task (g := Frame.filled [(i, y.gen)] q.rsig) (fun r => fillDone_keeps Frame.task (fun _ _ _ => rfl) r _) s c d f e)
        (frame_modFrame_keeps (fun r => r.fl.msgs) (g := Frame.filled [(i, y.gen)] q.rsig)
          (fun r => fillDone_keeps (fun r => r.fl.msgs) (fun _ _ _ => rfl) r _) s c d f e)
      refine ⟨_, (powered_of_power hpower _).trans (congrArg _ hrun), dropReq_tellSender_mem .., dropReq_tellSender_reqs _ _ ?_, ?_, ?_, ?_,
        fun hfar => dropReq_tellSender_far _ _ hwires hfar _,
        fun c' f' m hpkg hfind hacc => dropReq_tellSender_ended _ _ hwires hmsgs hpkg hfind hacc _⟩
      · exact (cube_modFrame_keeps Cube.reqs (fun _ _ => rfl) ..).trans hreqs
      · rw [dropReq_tellSender_frame _ _ (fun r => r.buf i) (fun _ _ => rfl), State.frame_modFrame_same]
        change (fillDone (s.frame c f) [(i, y.gen)]).buf i = _
        rw [fillDone_last hbuf hst hfill, Frame.buf_setBuf (Frame.buf_lt hbuf)]
      · rw [dropReq_tellSender_frame _ _ (fun r => r.sync.df) (fun _ _ => rfl), State.frame_modFrame_same, Frame.filled,
          fillDone_keeps Frame.sync (fun _ _ _ => rfl)]
      · rw [dropReq_tellSender_frame _ _ Frame.regs (fun _ _ => rfl), State.frame_modFrame_same]
        exact fillDone_keeps Frame.regs (fun _ _ _ => rfl) _ _
    · have hnot : recvLost s c q = false := by rw [hb.recvLost]; simpa using hlost
      exact (powered_of_power hpower _).trans (congrArg _ (fillCompleteRun_waits hreqs hnot howed))
    · have hrun := fillCompleteRun_lost hreqs hclosed hb.recvHere (by rw [hb.recvLost]; simpa using hlost)
      refine ⟨_, (powered_of_power hpower _).trans (congrArg _ hrun), dropReq_tellSender_mem .., dropReq_tellSender_reqs _ _ hreqs,
        dropReq_tellSender_frame _ _ Frame.sync (fun _ _ => rfl) .., fun hfar => dropReq_tellSender_far _ _ (.refl c s) hfar _,
        fun c' f' m hpkg hfind hacc => dropReq_tellSender_ended _ _ (.refl c s) (fun _ _ => ⟨rfl, rfl⟩) hpkg hfind hacc _⟩
  · have hrun := (msgCompleteRun_ended hmsgs hended hacc hsrc).trans (signalOwn_cases hsig 3)
    have hframe := (State.frame_modFrame_same (completed s c f m k) c f (Frame.signals m.sig)).trans
      (congrArg (Frame.signals m.sig) (completed_frame s c f m k))
    refine ⟨_, (powered_of_power hpower _).trans (congrArg _ hrun), rfl, ?_, fun p hp => ?_, (congrArg Frame.regs hframe :),
      (congrArg Frame.fl hframe :), (congrArg (·.sync.df) hframe :)⟩
    · rw [cube_modFrame_keeps (fun u => faceBytes u _ 8) (fun _ _ => rfl), completed_cube _ _ _ _ _ (fun u => faceBytes u _ 8) (fun _ _ => rfl),
        leVal_faceWrite, Nat.mod_eq_of_lt (BitVec.isLt _), Nat.shiftLeft_eq, Nat.shiftLeft_eq, Nat.one_shiftLeft]
      exact BitVec.eq_of_toNat_eq (by simp [w64])
    · rw [cube_modFrame_keeps (fun u => faceByte u p) (fun _ _ => rfl), completed_cube _ _ _ _ _ (fun u => faceByte u p) (fun _ _ => rfl),
        faceByte_faceWrite, length_leBytes, if_neg (by omega)]
  · have hwires : SameWires c s (orphaned s c q a) := ⟨rfl, rfl, rfl⟩
    have hperf : q.performed = q.len - min 64 (q.len - 64 * line) := by rw [YReq.performed, howed]; rfl
    have hpoison : ∀ p, poisoned (setPoison s a true) p = (poisoned s p || decide (p / 64 = a / 64)) := fun p => by
      rw [poisoned, setPoison, fget_fset, poisoned]
      by_cases h : p / 64 = a / 64 <;> simp [h]
    refine ⟨fun hlate hfar => ?_, fun m hlate hpkg hfind hmsgs hacc => ?_, fun hearly => ?_⟩
    · have hrun := orphanRun_late hreqs hclosed hrecv howed hreturned hlen hlate ha
      rw [if_neg hfar] at hrun
      refine ⟨_, (powered_of_power hpower _).trans (congrArg _ hrun), dropReq_tellSender_mem .., dropReq_tellSender_reqs _ _ hreqs,
        dropReq_tellSender_logSeq .., ?_, fun p => (dropReq_tellSender_poisoned ..).trans (hpoison p)⟩
      rw [← hperf]
      exact dropReq_tellSender_far _ _ hwires hfar _
    · have hrun := orphanRun_late hreqs hclosed hrecv howed hreturned hlen hlate ha
      have hsame : findMsg (orphaned s c q a) q.key = some (c, f, m) := (findMsg_congr fun _ _ => ⟨rfl, rfl⟩).trans hfind
      rw [if_pos hpkg, hsame] at hrun
      dsimp only at hrun
      have hwires' : SameWires c s (logOrphan (orphaned s c q a) c f s.pkg c.val q.key.msgid q.performed) := ⟨rfl, rfl, rfl⟩
      refine ⟨_, (powered_of_power hpower _).trans (congrArg _ hrun), dropReq_tellSender_mem .., dropReq_tellSender_reqs _ _ hreqs,
        dropReq_tellSender_logSeq .., ?_, fun p => (dropReq_tellSender_poisoned ..).trans (hpoison p)⟩
      rw [dropReq_tellSender_msgs _ _ hwires' (fun _ _ => ⟨rfl, rfl⟩) hpkg hfind hacc, hmsgs, ← hperf]
      simp
    · exact (powered_of_power hpower _).trans (congrArg _ (orphanRun_early hreqs hearly))
end

section
/-! SUPPORT. Orphan timers, and the token that Yarrow grants (R259, R368, R369). -/

namespace Sys2Proof.Machine

/-- A part of the cubes that an update of another part keeps. -/
theorem cube_modCube_keeps {α : Type} (p : Cube → α) {g : Cube → Cube} (hg : ∀ q, p (g q) = p q) (s : State) (c d : CubeId) :
    p ((s.modCube c g).cube d) = p (s.cube d) := by
  rw [State.cube_modCube]
  split
  next h => rw [hg, h]
  next => rfl

/-! Timers. -/

/-- The receiver of a request is sought in the frames of its cube. -/
theorem recvHere_congr {s t : State} {c : CubeId} {q p : YReq} (hframe : ∀ f, t.frame c f = s.frame c f) (hrecv : p.recv = q.recv)
    (hrtask : p.rtask = q.rtask) : recvHere t c p = recvHere s c q := by
  rw [recvHere, hrecv, hrtask]
  simp only [hframe]
  rfl

/-- A request whose orphan timer runs from now on, or stands. -/
def YReq.timed (now : Nat) (run : Bool) (q : YReq) : YReq :=
  match q.since with
  | none => if run then { q with since := some now } else q
  | some t => if run then q else { q with idle := q.idle + (now - t), since := none }

/-- Whether the timer of a request runs. -/
def timerRuns (s : State) (c : CubeId) (q : YReq) : Bool := !q.closed && q.owes (s.cube c).toks && recvHere s c q

theorem retime_reqs (s : State) (c : CubeId) :
    ((retime s c).cube c).reqs = (s.cube c).reqs.map fun q => q.timed s.now (timerRuns s c q) := by
  rw [retime, State.cube_modCube_same]
  rfl

theorem retime_single {s : State} {c : CubeId} {q : YReq} (h : (s.cube c).reqs = [q]) :
    retime s c = s.modCube c fun u => { u with reqs := [q.timed s.now (timerRuns s c q)] } := by
  rw [retime]
  refine modCube_congr ?_
  rw [h]
  rfl

/-- A timer changes the idle time and the instant since which it runs, no more. -/
theorem YReq.timed_keeps {α : Type} (p : YReq → α) (hp : ∀ q i t, p { q with idle := i, since := t } = p q) (now : Nat) (run : Bool) (q : YReq) :
    p (q.timed now run) = p q := by
  unfold timed
  split
  · split
    · exact hp q q.idle _
    · rfl
  · split
    · rfl
    · exact hp ..

theorem retime_toks (s : State) (c : CubeId) : ((retime s c).cube c).toks = (s.cube c).toks := by
  rw [retime, State.cube_modCube_same]

theorem SameWires.modReq {c : CubeId} {s u : State} (h : SameWires c s u) (d : CubeId) (n : Nat) (g : YReq → YReq) :
    SameWires c s (Machine.modReq u d n g) := h.modCube d fun _ => rfl

theorem SameWires.retime {c : CubeId} {s u : State} (h : SameWires c s u) (d : CubeId) : SameWires c s (Machine.retime u d) :=
  h.modCube d fun _ => rfl

/-! A grant (R259, R368). -/

/-- The token of a grant: the first `GRANTQ` bytes that are not granted. -/
def grantTok (s : State) (c : CubeId) (q : YReq) : Tok :=
  ⟨(s.cube c).nextReq, q.num, q.ungranted.take ((s.cube c).ctl.grantq / 64), s.now, usCycles (s.cube c).ctl.tokexp, false⟩

/-- A request of which n lines more are granted now. -/
def YReq.grants (now n : Nat) (q : YReq) : YReq := { q.restart now with ungranted := q.ungranted.drop n, lastGrant := now }

/-- The state with the token, and the request granted, before its timer is looked at. -/
def tokAdded (s : State) (c : CubeId) (q : YReq) : State :=
  modReq (s.modCube c fun u => { u with toks := u.toks ++ [grantTok s c q], nextReq := u.nextReq + 1 }) c q.num
    (YReq.grants s.now ((s.cube c).ctl.grantq / 64))

/-- The state once a request has its token. -/
def tokGiven (s : State) (c : CubeId) (q : YReq) : State := retime (tokAdded s c q) c

/-- Whether a request may be granted a token. -/
def grantable (s : State) (c : CubeId) (q : YReq) : Bool := !q.closed && q.ungranted ≠ [] && !recvLost s c q && recvHere s c q

section
variable {s : State} {c : CubeId}

theorem grantRun_full (h : (s.cube c).ctl.grantmax ≤ ((s.cube c).toks.filter fun t => !t.expired).length) : grantRun s c = s := by
  rw [grantRun]
  dsimp only
  split
  · rfl
  · exact if_pos h

variable {q : YReq} (hbest : bestReq s.now ((s.cube c).reqs.filter (grantable s c)) = some q)
  (hlive : ((s.cube c).toks.filter fun t => !t.expired).length < (s.cube c).ctl.grantmax)
include hbest hlive

theorem grantRun_best : grantRun s c = if q.srcPkg = s.pkg then tokGiven s c q else
    sendFar (tokGiven s c q) ((cubePart (tokGiven s c q) c.val).getD 0) c q.srcPkg 0
      (.msgGrant q.key (s.cube c).nextReq (q.ungranted.take ((s.cube c).ctl.grantq / 64))) := by
  have hbest' : bestReq s.now ((s.cube c).reqs.filter fun q => !q.closed && q.ungranted ≠ [] && !recvLost s c q && recvHere s c q) = some q := hbest
  rw [grantRun]
  dsimp only
  rw [hbest']
  dsimp only
  rw [if_neg (Nat.not_le.2 hlive)]
  rfl

omit hbest hlive in
theorem tokAdded_toks : ((tokAdded s c q).cube c).toks = (s.cube c).toks ++ [grantTok s c q] := by
  rw [tokAdded, modReq, State.cube_modCube_same, State.cube_modCube_same]

omit hbest hlive in
theorem sameWires_tokGiven : SameWires c s (tokGiven s c q) := by
  rw [tokGiven, tokAdded]
  exact (((SameWires.refl c s).modCube c fun _ => by rfl).modReq c q.num _).retime c

theorem grantRun_toks : ((grantRun s c).cube c).toks = (s.cube c).toks ++ [grantTok s c q] := by
  have hgiven : ((tokGiven s c q).cube c).toks = (s.cube c).toks ++ [grantTok s c q] := (retime_toks ..).trans tokAdded_toks
  rw [grantRun_best hbest hlive]
  split
  · exact hgiven
  · exact hgiven

theorem grantRun_posted (hfar : q.srcPkg ≠ s.pkg) : Posted s (grantRun s c) c q.srcPkg
    (.msgGrant q.key (s.cube c).nextReq (q.ungranted.take ((s.cube c).ctl.grantq / 64))) := by
  rw [grantRun_best hbest hlive, if_neg hfar]
  exact sameWires_tokGiven.posted ..

end

/-- The only request of a cube, once it has its token: its timer runs from now on. -/
theorem tokGiven_single {s : State} {c : CubeId} {q : YReq} (hreqs : (s.cube c).reqs = [q]) (hclosed : q.closed = false)
    (hhere : recvHere s c q = true) : tokGiven s c q = s.modCube c fun u => { u with
      toks := u.toks ++ [grantTok s c q], nextReq := u.nextReq + 1
      reqs := [{ q with ungranted := q.ungranted.drop ((s.cube c).ctl.grantq / 64), lastGrant := s.now, idle := 0, since := some s.now }] } := by
  have hadded : ((tokAdded s c q).cube c).reqs = [q.grants s.now ((s.cube c).ctl.grantq / 64)] := by
    rw [tokAdded, modReq_reqs_single (q := q) ((congrArg Cube.reqs (State.cube_modCube_same s c _)).trans hreqs)]
  have hframe : ∀ f, (tokAdded s c q).frame c f = s.frame c f := fun f => by
    rw [tokAdded, modReq_frame, State.frame_modCube_of_frames fun _ => by rfl]
  have hrun : timerRuns (tokAdded s c q) c (q.grants s.now ((s.cube c).ctl.grantq / 64)) = true := by
    have hsame : recvHere (tokAdded s c q) c (q.grants s.now ((s.cube c).ctl.grantq / 64)) = recvHere s c q := recvHere_congr hframe rfl rfl
    rw [timerRuns, hsame, hhere, tokAdded_toks]
    simp [YReq.owes, grantTok, YReq.grants, YReq.restart, hclosed]
  have hsince : (q.grants s.now ((s.cube c).ctl.grantq / 64)).timed s.now true = { q with
      ungranted := q.ungranted.drop ((s.cube c).ctl.grantq / 64), lastGrant := s.now, idle := 0, since := some s.now } := by
    cases h : q.since <;> simp [YReq.timed, YReq.grants, YReq.restart, h]
  have hnow : (tokAdded s c q).now = s.now := rfl
  rw [tokGiven, retime_single hadded, hrun, hnow, hsince, tokAdded, modReq, State.modCube_modCube, State.modCube_modCube]

/-! The order of requests (R368). -/

theorem bestReq_one (now : Nat) (q : YReq) : bestReq now [q] = some q := rfl

theorem bestReq_second {now : Nat} {p q : YReq} (h : lexLt (q.rank now) (p.rank now) = true) : bestReq now [p, q] = some q := by
  simp [bestReq, h]

theorem agedNow_iff (q : YReq) (now : Nat) : q.agedNow now = true ↔ q.lastGrant + usCycles 50 ≤ now := by
  have hpos : 0 < usCycles 50 := by decide
  rw [YReq.agedNow, decide_eq_true_iff]
  omega

/-- The lower class ranks first, then an aged request by its last grant, then the one with fewer bytes. -/
theorem rank_lt {now : Nat} {p q : YReq} (h : q.cls.toNat < p.cls.toNat ∨ (q.cls = p.cls ∧
    ((q.lastGrant + usCycles 50 ≤ now ∧ ¬ p.lastGrant + usCycles 50 ≤ now) ∨
      (q.lastGrant + usCycles 50 ≤ now ∧ p.lastGrant + usCycles 50 ≤ now ∧ q.lastGrant < p.lastGrant) ∨
      (¬ q.lastGrant + usCycles 50 ≤ now ∧ ¬ p.lastGrant + usCycles 50 ≤ now ∧ q.bytesUngranted < p.bytesUngranted)))) :
    lexLt (q.rank now) (p.rank now) = true := by
  simp only [← agedNow_iff, Bool.not_eq_true] at h
  obtain hcls | ⟨hcls, ⟨hq, hp⟩ | ⟨hq, hp, hlt⟩ | ⟨hq, hp, hlt⟩⟩ := h
  · simp [YReq.rank, lexLt, hcls]
  · simp [YReq.rank, lexLt, hcls, hq, hp, bnat]
  · simp [YReq.rank, lexLt, hcls, hq, hp, hlt]
  · simp [YReq.rank, lexLt, hcls, hq, hp, hlt]

end Sys2Proof.Machine
end

section
/-! SUPPORT. Lines of a message: written at a global address, arrived, expired, asked for again (R76, R77, R259, R361, R369). -/

namespace Sys2Proof.Machine

/-! Bytes written at a global address (R76, R77). -/

theorem poisoned_setPoison (s : State) (a p : Nat) (b : Bool) : poisoned (setPoison s a b) p = if p / 64 = a / 64 then b else poisoned s p := by
  rw [poisoned, setPoison, fget_fset, poisoned]

theorem poisoned_clearFull (s : State) (a n p : Nat) :
    poisoned (clearFull s a n) p = (poisoned s p && !decide (p / 64 = a / 64 ∧ a % 64 = 0 ∧ n = 64)) := by
  rw [clearFull]
  split
  next h =>
    rw [poisoned_setPoison]
    by_cases hp : p / 64 = a / 64 <;> simp [hp, h]
  next h => simp [h]

section
variable (s : State) (c : CubeId) (a : Nat) (b : List Byte) (bad : Bool)

/-- What a write at a global address leaves beside memory, the merge buffer and poison. -/
theorem writePlace_glob_keeps {α : Type} (p : State → α)
    (hp : ∀ s t : State, p { s with mem := t.mem, merge := t.merge, poison := t.poison } = p s) : p (writePlace s c (.glob a) b bad) = p s := by
  have hclear : p (clearFull (gWrite s a b) a b.length) = p s := by
    rw [clearFull]
    split
    · exact hp s (setPoison (gWrite s a b) a false)
    · exact hp s (gWrite s a b)
  rw [writePlace]
  split
  · exact (hp (clearFull (gWrite s a b) a b.length) (setPoison (clearFull (gWrite s a b) a b.length) a true)).trans hclear
  · exact hclear

theorem mergedByte_writePlace_glob (p : Nat) :
    mergedByte (writePlace s c (.glob a) b bad) p = if a ≤ p ∧ p < a + b.length then b.getD (p - a) 0 else mergedByte s p := by
  have hclear : mergedByte (clearFull (gWrite s a b) a b.length) p = mergedByte (gWrite s a b) p := by
    rw [clearFull]
    split <;> rfl
  have hplace : mergedByte (writePlace s c (.glob a) b bad) p = mergedByte (clearFull (gWrite s a b) a b.length) p := by
    rw [writePlace]
    split <;> rfl
  rw [hplace, hclear, mergedByte_gWrite]

theorem poisoned_writePlace_glob (p : Nat) : poisoned (writePlace s c (.glob a) b bad) p =
    if p / 64 = a / 64 then bad || (poisoned s p && !decide (a % 64 = 0 ∧ b.length = 64)) else poisoned s p := by
  have hclear := poisoned_clearFull (gWrite s a b) a b.length p
  have hsame : poisoned (gWrite s a b) p = poisoned s p := rfl
  rw [hsame] at hclear
  rw [writePlace]
  cases bad
  · rw [if_neg (by decide), hclear]
    by_cases hp : p / 64 = a / 64 <;> simp [hp]
  · rw [if_pos rfl, poisoned_setPoison, hclear]
    by_cases hp : p / 64 = a / 64 <;> simp [hp]

end

/-- A line of another package with a global address of its own is written there. -/
theorem writeFar_glob {s : State} {c : CubeId} {q : YReq} {x : MsgLine} {a : Nat} (hrecv : q.recv = none) (hpa : x.pa = some a) (i : Nat) :
    writeFar s c q i x = writePlace s c (.glob a) ((x.data ++ List.replicate 64 0).take (lineLen q.len i)) x.bad := by
  rw [writeFar, farDst, hrecv, hpa]
  rfl

theorem length_padded (l : List Byte) {n : Nat} (h : n ≤ 64) : ((l ++ List.replicate 64 0).take n).length = n := by
  simp only [List.length_take, List.length_append, List.length_replicate]
  omega

theorem getD_padded (l : List Byte) {n i : Nat} (hi : i < n) : ((l ++ List.replicate 64 0).take n).getD i 0 = l.getD i 0 := by
  simp only [List.getD_eq_getElem?_getD, List.getElem?_take, hi, if_true, List.getElem?_append]
  split
  · rfl
  · next hge =>
    rw [List.getElem?_eq_none (by omega : l.length ≤ i), List.getElem?_replicate]
    split <;> rfl

theorem lineLen_le (len i : Nat) : lineLen len i ≤ 64 := Nat.min_le_left ..

/-! A line that has arrived (R369). -/

theorem linesUnder_token {s : State} {c : CubeId} {q : YReq} {t : Tok} (hreqs : (s.cube c).reqs = [q]) (htoks : (s.cube c).toks = [t])
    (hreq : t.req = q.num) : linesUnder s c t.num = if t.past s.now then none else some (q, t.lines) := by
  have hfind : (s.cube c).toks.find? (fun x => decide (x.num = t.num)) = some t := by simp [htoks]
  rw [linesUnder, hfind]
  dsimp only
  rw [hreq, findReq_single hreqs]
  rfl

/-- The last line of a token has arrived: its cube holds no token, and its request owes the line no more. -/
def LineMoved (z : State) (c : CubeId) (q : YReq) : Prop := (z.cube c).toks = [] ∧ ∃ y, (z.cube c).reqs = [y] ∧ y.num = q.num ∧ y.owed = [] ∧
  y.ungranted = q.ungranted ∧ y.returned = q.returned

theorem lineMoved_congr {y z : State} {c : CubeId} {q : YReq} (h : LineMoved y c q) (htoks : (z.cube c).toks = (y.cube c).toks)
    (hreqs : (z.cube c).reqs = (y.cube c).reqs) : LineMoved z c q := by
  rw [LineMoved, htoks, hreqs]
  exact h

/-- A request whose line has arrived. -/
def YReq.took (now line : Nat) (q : YReq) : YReq :=
  { q.restart now with owed := q.owed.erase line, pref := q.pref.erase line, moved := q.moved.filter fun x => x.1 / 16 ≠ line }

theorem lineDone_moved {s : State} {c : CubeId} {q p : YReq} {t : Tok} {line : Nat} (hreqs : (s.cube c).reqs = [p]) (hnum : p.num = q.num)
    (hungranted : p.ungranted = q.ungranted) (hreturned : p.returned = q.returned) (howed : p.owed = [line])
    (htoks : (s.cube c).toks = [t]) (hlines : t.lines = [line]) (hlive : t.expired = false) :
    LineMoved (lineDone s c q t.num line) c q := by
  have hmod : ((modReq s c q.num (YReq.took s.now line)).cube c).reqs = [p.took s.now line] := by
    rw [← hnum, modReq_reqs_single hreqs]
  have hline : lineDone s c q t.num line = retime ((modReq s c q.num (YReq.took s.now line)).modCube c fun u => { u with
      toks := (u.toks.map fun x => if x.num = t.num then { x with lines := x.lines.erase line } else x).filter
        fun x => x.expired || x.lines ≠ [] }) c := rfl
  rw [hline]
  have hreqs' := retime_reqs ((modReq s c q.num (YReq.took s.now line)).modCube c fun u => { u with
    toks := (u.toks.map fun x => if x.num = t.num then { x with lines := x.lines.erase line } else x).filter
      fun x => x.expired || x.lines ≠ [] }) c
  rw [State.cube_modCube_same, hmod] at hreqs'
  refine ⟨?_, _, hreqs', ?_, ?_, ?_, ?_⟩
  · rw [retime_toks, State.cube_modCube_same, modReq, State.cube_modCube_same, htoks]
    simp [hlines, hlive]
  · exact (YReq.timed_keeps YReq.num (fun _ _ _ => rfl) ..).trans hnum
  · refine (YReq.timed_keeps YReq.owed (fun _ _ _ => rfl) ..).trans ?_
    simp [YReq.took, howed]
  · exact (YReq.timed_keeps YReq.ungranted (fun _ _ _ => rfl) ..).trans hungranted
  · exact (YReq.timed_keeps YReq.returned (fun _ _ _ => rfl) ..).trans hreturned

/-- What a line's arrival leaves of a cube beside its requests and tokens. -/
theorem lineDone_cube {α : Type} (p : Cube → α) (hp : ∀ (q : Cube) r t, p { q with reqs := r, toks := t } = p q) (s : State) (c d : CubeId)
    (q : YReq) (num line : Nat) : p ((lineDone s c q num line).cube d) = p (s.cube d) := by
  rw [lineDone, retime, cube_modCube_keeps p (fun q => hp q _ q.toks), cube_modCube_keeps p (fun q => hp q q.reqs _), modReq,
    cube_modCube_keeps p (fun q => hp q _ q.toks)]

section
variable {s : State} {c : CubeId} {q : YReq} {t : Tok} {line : Nat} (hreqs : (s.cube c).reqs = [q]) (htoks : (s.cube c).toks = [t])
  (hreq : t.req = q.num)
include hreqs htoks hreq

theorem lineArriveRun_past (x : MsgLine) (h : t.past s.now = true) : lineArriveRun s c t.num line x = s := by
  rw [lineArriveRun, linesUnder_token hreqs htoks hreq, if_pos h]

variable (hlive : t.past s.now = false) (hlines : t.lines = [line]) (howed : q.owed = [line]) (hclosed : q.closed = false)
include hlive hlines howed hclosed

/-- A line of another package for a global destination is checked at its target, then written (R361). -/
theorem lineArriveRun_far {x : MsgLine} {a : Nat} (hfar : q.srcPkg ≠ s.pkg) (hrecv : q.recv = none) (hpa : x.pa = some a) :
    lineArriveRun s c t.num line x =
      match targetCheck s (fpidOf s ((cubePart s c.val).getD 0)) a true with
      | some k => refuseRemote s ⟨q.srcPkg, cubeOf q.srcCube, fpidOf s ((cubePart s c.val).getD 0), s.pkg, 0, 0, none, .msgData q.key t.num line x⟩
          (cubeOf (paCube a)) (paLocal a) k 3
      | none => lineDone (writeFar s c q line x) c q t.num line := by
  have hgo : ¬ (q.closed = true ∨ (!t.lines.contains line) = true ∨ (!q.owed.contains line) = true) := by simp [hclosed, hlines, howed]
  rw [lineArriveRun, linesUnder_token hreqs htoks hreq, if_neg (by rw [hlive]; decide)]
  dsimp only
  rw [if_neg hgo, if_neg hfar, hrecv, hpa]
  cases hcheck : targetCheck s (fpidOf s ((cubePart s c.val).getD 0)) a true with
  | none => simp [hcheck]
  | some k => simp [hcheck]

end

/-! Expiry and re-request (R369). -/

/-- The state with a token marked as expired. -/
def tokMarked (s : State) (c : CubeId) (t : Tok) : State :=
  s.modCube c fun u => { u with toks := u.toks.map fun x => if x.num = t.num then { x with expired := true } else x }

theorem tokMarked_reqs (s : State) (c : CubeId) (t : Tok) : ((tokMarked s c t).cube c).reqs = (s.cube c).reqs := by
  rw [tokMarked, State.cube_modCube_same]

/-- A request to which a token gave lines back. -/
def YReq.gaveBack (lines : List Nat) (q : YReq) : YReq := { q with returned := q.returned ++ lines }

section
variable {s : State} {c : CubeId} {q : YReq} (hreqs : (s.cube c).reqs = [q])
include hreqs

/-- A token of a request, marked, and its lines given back. -/
def tokExpired (s : State) (c : CubeId) (t : Tok) : State := retime (modReq (tokMarked s c t) c t.req (YReq.gaveBack t.lines)) c

omit hreqs in
theorem tokExpired_toks {t : Tok} (htoks : (s.cube c).toks = [t]) : ((tokExpired s c t).cube c).toks = [{ t with expired := true }] := by
  rw [tokExpired, retime_toks, modReq, State.cube_modCube_same, tokMarked, State.cube_modCube_same, htoks]
  simp

theorem tokExpired_reqs {t : Tok} (hreq : t.req = q.num) : ∃ now run, ((tokExpired s c t).cube c).reqs =
    [(q.gaveBack t.lines).timed now run] := by
  have hmod : ((modReq (tokMarked s c t) c t.req (YReq.gaveBack t.lines)).cube c).reqs = [q.gaveBack t.lines] := by
    rw [hreq, modReq_reqs_single ((tokMarked_reqs ..).trans hreqs)]
  have hexp := retime_reqs (modReq (tokMarked s c t) c t.req (YReq.gaveBack t.lines)) c
  rw [hmod] at hexp
  exact ⟨_, _, hexp⟩

omit hreqs in
theorem sameWires_tokExpired (t : Tok) : SameWires c s (tokExpired s c t) := by
  rw [tokExpired, tokMarked]
  exact (((SameWires.refl c s).modCube c fun _ => by rfl).modReq c t.req _).retime c

variable {t : Tok} (htoks : (s.cube c).toks = [t]) (hlive : t.expired = false)
include htoks hlive

omit hreqs in
theorem expireRun_early (h : s.now - t.granted < t.life) : expireRun s c t.num = s := by
  have hfind : (s.cube c).toks.find? (fun x => decide (x.num = t.num) && !x.expired) = some t := by simp [htoks, hlive]
  rw [expireRun, hfind]
  exact if_pos h

theorem expireRun_due (hreq : t.req = q.num) (h : t.life ≤ s.now - t.granted) : expireRun s c t.num =
    if q.srcPkg = s.pkg then tokExpired s c t else
      sendFar (tokExpired s c t) ((cubePart (tokExpired s c t) c.val).getD 0) c q.srcPkg 0 (.msgExpire q.key t.num t.lines) := by
  have hfind : (s.cube c).toks.find? (fun x => decide (x.num = t.num) && !x.expired) = some t := by simp [htoks, hlive]
  obtain ⟨now, run, hexp⟩ := tokExpired_reqs hreqs hreq
  have hnum : ((q.gaveBack t.lines).timed now run).num = t.req :=
    (YReq.timed_keeps YReq.num (fun _ _ _ => rfl) ..).trans hreq.symm
  have hpkg : ((q.gaveBack t.lines).timed now run).srcPkg = q.srcPkg :=
    YReq.timed_keeps YReq.srcPkg (fun _ _ _ => rfl) ..
  have hkey : ((q.gaveBack t.lines).timed now run).key = q.key :=
    YReq.timed_keeps YReq.key (fun _ _ _ => rfl) ..
  have hfound := findReq_single hexp
  rw [hnum] at hfound
  rw [expireRun, hfind]
  dsimp only
  rw [if_neg (Nat.not_lt.2 h)]
  change (match findReq (tokExpired s c t) c t.req with
    | some q => if q.srcPkg = (tokExpired s c t).pkg then tokExpired s c t else
        sendFar (tokExpired s c t) ((cubePart (tokExpired s c t) c.val).getD 0) c q.srcPkg 0 (.msgExpire q.key t.num t.lines)
    | none => tokExpired s c t) = _
  rw [hfound]
  dsimp only
  rw [hpkg, hkey]
  rfl

end

/-- The returned lines of a request are asked for again: nothing is owed now, and its timer stands. -/
theorem reRequestRun_single {s : State} {c : CubeId} {q : YReq} (hreqs : (s.cube c).reqs = [q]) (htoks : (s.cube c).toks = [])
    (hreturned : q.returned ≠ []) (hclosed : q.closed = false) : reRequestRun s c q.num = s.modCube c fun u => { u with
      reqs := [{ q with ungranted := q.ungranted ++ q.returned, returned := [], idle := 0, since := none }] } := by
  have hall : q.returned.filter (fun _ => true) = q.returned := List.filter_true ..
  have hgo : ¬ (q.returned.filter (fun _ => true) = [] ∨ q.closed = true) := by
    rw [hall, hclosed]
    simpa using hreturned
  have hmod := modReq_reqs_single hreqs fun q => { q.restart s.now with
    ungranted := q.ungranted ++ q.returned.filter (fun _ => true), returned := q.returned.filter fun _ => !true }
  have hrun : timerRuns (modReq s c q.num fun q => { q.restart s.now with
      ungranted := q.ungranted ++ q.returned.filter (fun _ => true), returned := q.returned.filter fun _ => !true }) c
      { q.restart s.now with ungranted := q.ungranted ++ q.returned.filter (fun _ => true), returned := q.returned.filter fun _ => !true } = false := by
    rw [timerRuns, modReq, State.cube_modCube_same, htoks]
    simp [YReq.owes]
  rw [reRequestRun, findReq_single hreqs]
  dsimp only
  rw [if_neg hgo, retime_single hmod, hrun, modReq, State.modCube_modCube]
  refine modCube_congr ?_
  cases hsince : q.since <;> simp [YReq.timed, YReq.restart, hsince, State.modCube]

end Sys2Proof.Machine
end

section
/-! SUPPORT. A granted line of a message of this package, written to the receiver's buffer word by word (R75, R77, R259). -/

namespace Sys2Proof.Machine

/-! The places of a line in the faces. -/

theorem srcPlace_face_iff {s : State} {c : CubeId} {f : FrameId} {m : MsgAct} {i k : Nat} : srcPlace s c f m i = .ok (.face k) ↔
    bits (recW m.rc 1 + 64 * i) 56 8 = 0 ∧ bits (recW m.rc 1 + 64 * i) 48 8 = 0xFF ∧ bits (recW m.rc 1 + 64 * i) 32 16 = 0 ∧
      (s.frame c f).key (bits (recW m.rc 1 + 64 * i) 0 32) = k := by
  rw [srcPlace, place]
  split
  next h => simp [h]
  next h =>
    split
    next hff =>
      split
      next hz => simp [hz]
      next hz => simp [not_not.1 h, not_not.1 hz, hff]
    next hff =>
      split
      · simp [hff]
      · split <;> simp [hff]

theorem ForBuffer.msgDst {s : State} {c : CubeId} {q : YReq} {f : FrameId} {i : Nat} {y : Buf} {x : Task} (h : ForBuffer s c q f i y x)
    (hlost : y.st ≠ .lost) (hlen : 0 < y.len) (line : Nat) :
    Machine.msgDst s c q line = some (.face (bufKey x y (q.dst + 64 * line)).1) := by
  rw [Machine.msgDst, h.recv]
  dsimp only
  rw [frameOf_val, h.buf, h.task]
  dsimp only
  rw [if_neg (by rw [h.recvLost]; simp [hlost]; omega)]

/-! A write of the faces. -/

section
variable (s : State) (c d : CubeId) (k : Nat) (b : List Byte) (bad : Bool)

@[simp] theorem wakePlace_frame (f : FrameId) : (wakePlace s c (.face k)).frame d f = s.frame d f :=
  State.frame_modCube_of_frames (fun _ => by rfl) s c d f

@[simp] theorem writePlace_face_frame (f : FrameId) : (writePlace s c (.face k) b bad).frame d f = s.frame d f := by
  refine (wakePlace_frame ..).trans (State.frame_modCube_of_frames (fun q => ?_) s c d f)
  have hwrite := faceWrite_keeps Cube.frames (fun _ _ _ => rfl) q k b
  dsimp only
  split
  · exact hwrite
  · exact hwrite

theorem wakePlace_cube {α : Type} (p : Cube → α) (hpow : ∀ q l, p { q with pow := l } = p q) :
    p ((wakePlace s c (.face k)).cube d) = p (s.cube d) := cube_modCube_keeps p (fun q => hpow q _) s c d

theorem writePlace_face_cube {α : Type} (p : Cube → α) (hpow : ∀ q l, p { q with pow := l } = p q)
    (hface : ∀ q f b, p { q with face := f, poison := b } = p q) : p ((writePlace s c (.face k) b bad).cube d) = p (s.cube d) := by
  refine (wakePlace_cube _ c d k p hpow).trans (cube_modCube_keeps p (fun q => ?_) s c d)
  have hwrite := faceWrite_keeps p hface q k b
  dsimp only
  split
  · exact (hface _ _ _).trans hwrite
  · exact hwrite

theorem faceByte_writePlace_face (a : Nat) : faceByte ((writePlace s c (.face k) b bad).cube d) a =
    if d = c ∧ k ≤ a ∧ a < k + b.length then b.getD (a - k) 0 else faceByte (s.cube d) a := by
  refine (wakePlace_cube _ c d k (faceByte · a) (fun _ _ => rfl)).trans ?_
  rw [State.cube_modCube]
  by_cases hd : d = c
  · subst hd
    rw [if_pos rfl]
    have hwrite := faceByte_faceWrite (s.cube d) k b a
    have hall : (if d = d ∧ k ≤ a ∧ a < k + b.length then b.getD (a - k) 0 else faceByte (s.cube d) a) = faceByte (faceWrite (s.cube d) k b) a := by
      simpa using hwrite.symm
    rw [hall]
    dsimp only
    split
    · exact faceByte_setFacePoison ..
    · rfl
  · simp [hd]

end

/-- A word read in the faces of one cube and written in those of another. -/
def wordWritten (s : State) (c' : CubeId) (from_ : Nat) (c : CubeId) (k : Nat) (b : List Byte) (bad : Bool) (n : Nat) : State :=
  { writePlace (wakePlace s c' (.face from_)) c (.face k) b bad with fresh := n }

section
variable (s : State) (c' : CubeId) (from_ : Nat) (c d : CubeId) (k : Nat) (b : List Byte) (bad : Bool) (n : Nat)

theorem wordWritten_frame (f : FrameId) : (wordWritten s c' from_ c k b bad n).frame d f = s.frame d f :=
  (writePlace_face_frame ..).trans (wakePlace_frame ..)

theorem wordWritten_cube {α : Type} (p : Cube → α) (hpow : ∀ q l, p { q with pow := l } = p q)
    (hface : ∀ q f b, p { q with face := f, poison := b } = p q) : p ((wordWritten s c' from_ c k b bad n).cube d) = p (s.cube d) :=
  (writePlace_face_cube (wakePlace s c' (.face from_)) c d k b bad p hpow hface).trans (wakePlace_cube s c' d from_ p hpow)

theorem wordWritten_memory : (wordWritten s c' from_ c k b bad n).memory = s.memory := by
  have hwake : (writePlace (wakePlace s c' (.face from_)) c (.face k) b bad).memory = (wakePlace s c' (.face from_)).memory := by
    rw [writePlace, memory_wakePlace]
    rfl
  exact hwake.trans memory_wakePlace

theorem faceByte_wordWritten (a : Nat) : faceByte ((wordWritten s c' from_ c k b bad n).cube d) a =
    if d = c ∧ k ≤ a ∧ a < k + b.length then b.getD (a - k) 0 else faceByte (s.cube d) a := by
  have hwake : faceByte ((wakePlace s c' (.face from_)).cube d) a = faceByte (s.cube d) a :=
    wakePlace_cube s c' d from_ (faceByte · a) fun _ _ => rfl
  rw [← hwake]
  exact faceByte_writePlace_face ..

end

/-! The words of a line. -/

theorem modReq_cube {α : Type} (p : Cube → α) (hp : ∀ q l, p { q with reqs := l } = p q) (s : State) (c d : CubeId) (n : Nat) (g : YReq → YReq) :
    p ((modReq s c n g).cube d) = p (s.cube d) := cube_modCube_keeps p (fun q => hp q _) s c d

/-- The state once the first j words of a line have moved. -/
structure WordsMoved (s z : State) (c : CubeId) (q : YReq) (c' : CubeId) (k key line j : Nat) : Prop where
  frame : ∀ d f, z.frame d f = s.frame d f
  toks : (z.cube c).toks = (s.cube c).toks
  reqs : ∃ l, (z.cube c).reqs = [{ q with moved := l }]
  memory : z.memory = s.memory
  bytes : ∀ d p, faceByte (z.cube d) p = if d = c ∧ key ≤ p ∧ p < key + min (4 * j) (lineLen q.len line) then
    faceByte (s.cube c') (k + (p - key)) else faceByte (s.cube d) p

section
variable {s : State} {c c' : CubeId} {q : YReq} {f' : FrameId} {m : MsgAct} {k key line : Nat} (holds : m.olds = [])
  (hsrc : ∀ z : State, z.frame c' f' = s.frame c' f' → srcPlace z c' f' m line = .ok (.face k))
  (hdst : ∀ z : State, (∀ f, z.frame c f = s.frame c f) → msgDst z c q line = some (.face key))
include holds hsrc hdst

/-- What a word of the line brings. -/
theorem moveWord_face {z : State} (hframe : ∀ d f, z.frame d f = s.frame d f) {j : Nat} (hj : j < 16) : ∃ n bad, moveWord z c q c' f' m (16 * line + j) =
    modReq (wordWritten z c' k c (key + 4 * j)
        ((List.range (min 4 (q.len - 4 * (16 * line + j)))).map fun i => faceByte (z.cube c') (k + 4 * j + i)) bad n) c q.num
      fun q => { q with moved := q.moved ++ [(16 * line + j, bad)] } := by
  have hdiv : (16 * line + j) / 16 = line := by omega
  have hmod : (16 * line + j) % 16 = j := by omega
  have hdst' := hdst (wakePlace z c' (.face k)) fun f => (wakePlace_frame ..).trans (hframe ..)
  rw [moveWord, hdiv, hmod, hsrc z (hframe ..), holds]
  dsimp only [Except.toOption]
  rw [hdst']
  exact ⟨_, _, rfl⟩

/-- Another word moves (R259). -/
theorem wordsMoved_succ {z : State} {j : Nat} (hpart : c' ≠ c ∨ k + 64 ≤ key ∨ key + 64 ≤ k) (h : WordsMoved s z c q c' k key line j)
    (hj : 4 * j < lineLen q.len line) : WordsMoved s (moveWord z c q c' f' m (16 * line + j)) c q c' k key line (j + 1) := by
  have hlen : lineLen q.len line = min 64 (q.len - 64 * line) := rfl
  have hj16 : j < 16 := by omega
  obtain ⟨n, bad, hmove⟩ := moveWord_face holds hsrc hdst h.frame hj16
  obtain ⟨l, hl⟩ := h.reqs
  rw [hmove]
  generalize hb : (List.range (min 4 (q.len - 4 * (16 * line + j)))).map (fun i => faceByte (z.cube c') (k + 4 * j + i)) = b
  have hblen : b.length = min (4 * (j + 1)) (lineLen q.len line) - 4 * j := by
    rw [← hb, List.length_map, List.length_range, hlen]
    omega
  have hbyte : ∀ i, i < b.length → b.getD i 0 = faceByte (s.cube c') (k + 4 * j + i) := fun i hi => by
    have hread := h.bytes c' (k + 4 * j + i)
    rw [if_neg fun hc => by have := hpart.resolve_left (not_not_intro hc.1); omega] at hread
    rw [← hread]
    subst hb
    rw [List.length_map, List.length_range] at hi
    simp [List.getD_eq_getElem?_getD, hi]
  refine ⟨fun d f => ?_, ?_, ?_, ?_, fun d p => ?_⟩
  · rw [modReq_frame, wordWritten_frame, h.frame]
  · have htoks := wordWritten_cube z c' k c c (key + 4 * j) b bad n Cube.toks (fun _ _ => rfl) fun _ _ _ => rfl
    rw [modReq_cube Cube.toks fun _ _ => rfl, htoks, h.toks]
  · have hreqs := wordWritten_cube z c' k c c (key + 4 * j) b bad n Cube.reqs (fun _ _ => rfl) fun _ _ _ => rfl
    exact ⟨_, modReq_reqs_single (q := { q with moved := l }) (hreqs.trans hl) _⟩
  · rw [memory_modReq, wordWritten_memory, h.memory]
  · have hreq := fun g => show faceByte ((modReq (wordWritten z c' k c (key + 4 * j) b bad n) c q.num g).cube d) p =
        faceByte ((wordWritten z c' k c (key + 4 * j) b bad n).cube d) p from
      modReq_cube (faceByte · p) (fun _ _ => rfl) _ _ _ _ g
    rw [hreq, faceByte_wordWritten, h.bytes d p, hblen]
    by_cases hd : d = c
    · simp only [hd, true_and]
      by_cases hnew : key + 4 * j ≤ p ∧ p < key + min (4 * (j + 1)) (lineLen q.len line)
      · have hoff : k + 4 * j + (p - (key + 4 * j)) = k + (p - key) := by omega
        rw [if_pos (by omega), hbyte _ (by omega), if_pos (by omega), hoff]
      · by_cases hold : key ≤ p ∧ p < key + 4 * j
        · rw [if_neg (by omega), if_pos (by omega), if_pos (by omega)]
        · rw [if_neg (by omega), if_neg (by omega), if_neg (by omega)]
    · simp [hd]

theorem wordsMoved_fold (hpart : c' ≠ c ∨ k + 64 ≤ key ∨ key + 64 ≤ k) (hreqs : (s.cube c).reqs = [q]) : ∀ j, 4 * j < lineLen q.len line + 4 →
    WordsMoved s (((List.range j).map fun i => 16 * line + i).foldl (fun s k => moveWord s c q c' f' m k) s) c q c' k key line j
  | 0, _ => ⟨fun _ _ => rfl, rfl, ⟨q.moved, hreqs⟩, rfl, fun d p => by rw [if_neg (by omega)]; rfl⟩
  | j + 1, hj => by
    rw [List.range_succ, List.map_append, List.foldl_append]
    exact wordsMoved_succ holds hsrc hdst hpart (wordsMoved_fold hpart hreqs j (by omega)) (by omega)

end

end Sys2Proof.Machine
end

section
/-! SUPPORT. A granted line of a message of this package arrives (R259, R369). -/

namespace Sys2Proof.Machine

section
variable {s : State} {c c' : CubeId} {q : YReq} {t : Tok} {f' fr : FrameId} {m : MsgAct} {k bi line : Nat} {y : Buf} {x : Task}

/-- A line whose source is in the faces and whose destination is a buffer crosses no page and is refused by no directory. -/
theorem lineRefused_faces (hsrc : srcPlace s c' f' m line = .ok (.face k)) (hbuf : msgToBuffer m.rc = true) : lineRefused s c' f' m line = none := by
  obtain ⟨-, hff, -, -⟩ := srcPlace_face_iff.1 hsrc
  rw [lineRefused]
  simp [hff, hbuf]

theorem logLine_faces (hsrc : srcPlace s c' f' m line = .ok (.face k)) (hbuf : msgToBuffer m.rc = true) : logLine s c' f' m line = s := by
  obtain ⟨-, hff, -, -⟩ := srcPlace_face_iff.1 hsrc
  rw [logLine]
  simp [hff, hbuf]

/-- The line of a token is granted to the message that its request answers. -/
theorem msgGranted_single (hreqs : (s.cube c).reqs = [q]) (htoks : (s.cube c).toks = [t]) (hreq : t.req = q.num) (hlive : t.past s.now = false)
    (hlines : t.lines = [line]) (hclosed : q.closed = false) (hpref : q.pref = []) (hacc : m.acc = some (c.val, q.num)) :
    msgGranted s m = [line] := by
  rw [msgGranted, hacc]
  dsimp only
  rw [cubeOf_val, findReq_single hreqs]
  simp [hclosed, hpref, htoks, hreq, hlive, hlines]

/-- The first granted line of a task's only message waits for no other. -/
theorem lineTurn_first (hmsgs : (s.frame c' f').fl.msgs = [m]) (hgranted : msgGranted s m = [line]) : lineTurn s c' f' m line = true := by
  rw [lineTurn, hmsgs, hgranted]
  simp

end

/-! What follows the words of a line. -/

section
variable {s : State} {c : CubeId} {q : YReq} {line k : Nat}

theorem cleanLine_cube {α : Type} (p : Cube → α) (hp : ∀ q l, p { q with poison := l } = p q) (s : State) (c d : CubeId) (q : YReq) (line : Nat) :
    p ((cleanLine s c q line).cube d) = p (s.cube d) := by
  rw [cleanLine]
  cases msgDst s c q line with
  | none => rfl
  | some g => cases g with
    | glob a => dsimp only; split_ifs <;> rfl
    | face k =>
      dsimp only
      split_ifs
      · rfl
      · exact cube_modCube_keeps p (fun q => hp q _) s c d

theorem cleanLine_face_memory (hdst : msgDst s c q line = some (.face k)) : (cleanLine s c q line).memory = s.memory := by
  rw [cleanLine, hdst]
  dsimp only
  split_ifs <;> rfl

theorem sourceRead_cube {α : Type} (p : Cube → α) (hp : ∀ q l, p { q with frames := l } = p q) (s : State) (c d : CubeId) (f : FrameId) (m : MsgAct) :
    p ((sourceRead s c f m).cube d) = p (s.cube d) := by
  rw [sourceRead, setMsg, cube_modFrame_keeps p hp, cube_modFrame_keeps p hp]

end

/-! The line. -/

section
variable {s : State} {c c' : CubeId} {q : YReq} {t : Tok} {f' fr : FrameId} {m : MsgAct} {k bi line : Nat} {y : Buf} {x : Task} {z : State} {key : Nat}

theorem ceilDiv_four (n : Nat) : 4 * ceilDiv n 4 < n + 4 ∧ n ≤ 4 * ceilDiv n 4 := by
  rw [ceilDiv, if_neg (by decide)]
  omega

/-- The state once the words of a line have moved, the line is clean and its request and token know it. -/
def lineTaken (z : State) (c : CubeId) (q : YReq) (num line : Nat) (c' : CubeId) (f' : FrameId) (m : MsgAct) : State :=
  sourceRead (lineDone (cleanLine z c q line) c q num line) c' f' m

theorem lineTaken_moved (h : WordsMoved s z c q c' k key line (ceilDiv (lineLen q.len line) 4)) (htoks : (s.cube c).toks = [t])
    (hlines : t.lines = [line]) (howed : q.owed = [line]) (hlive : t.expired = false) (f' : FrameId) (m : MsgAct) :
    LineMoved (lineTaken z c q t.num line c' f' m) c q := by
  obtain ⟨l, hl⟩ := h.reqs
  have hclean := cleanLine_cube (fun u => (u.reqs, u.toks)) (fun _ _ => rfl) z c c q line
  obtain ⟨hreqs', htoks'⟩ := Prod.mk.inj hclean
  have hdone : LineMoved (lineDone (cleanLine z c q line) c q t.num line) c q :=
    lineDone_moved (hreqs'.trans hl) rfl rfl rfl howed (htoks'.trans (h.toks.trans htoks)) hlines hlive
  exact lineMoved_congr hdone (sourceRead_cube Cube.toks (fun _ _ => rfl) ..) (sourceRead_cube Cube.reqs (fun _ _ => rfl) ..)

theorem lineTaken_bytes (h : WordsMoved s z c q c' k key line (ceilDiv (lineLen q.len line) 4)) (num : Nat) (f' : FrameId) (m : MsgAct) (p : Nat) :
    faceByte ((lineTaken z c q num line c' f' m).cube c) p =
      if key ≤ p ∧ p < key + lineLen q.len line then faceByte (s.cube c') (k + (p - key)) else faceByte (s.cube c) p := by
  have hread := sourceRead_cube (faceByte · p) (fun _ _ => rfl) (lineDone (cleanLine z c q line) c q num line) c' c f' m
  have hdone := lineDone_cube (faceByte · p) (fun _ _ _ => rfl) (cleanLine z c q line) c c q num line
  have hclean := cleanLine_cube (faceByte · p) (fun _ _ => rfl) z c c q line
  have hbytes := h.bytes c p
  simp only [true_and, Nat.min_eq_right (ceilDiv_four (lineLen q.len line)).2] at hbytes
  exact hread.trans (hdone.trans (hclean.trans hbytes))

theorem lineTaken_memory (hdst : msgDst z c q line = some (.face key)) (num : Nat) (c' : CubeId) (f' : FrameId) (m : MsgAct) :
    (lineTaken z c q num line c' f' m).memory = z.memory := by
  rw [lineTaken, memory_sourceRead, memory_lineDone, cleanLine_face_memory hdst]

variable (hreqs : (s.cube c).reqs = [q]) (htoks : (s.cube c).toks = [t]) (hreq : t.req = q.num) (hlive : t.past s.now = false)
  (hlines : t.lines = [line]) (howed : q.owed = [line]) (hclosed : q.closed = false)
include hreqs htoks hreq hlive hlines howed hclosed

/-- The line of a task of this package moves word by word from the sender's faces to the receiver's. -/
theorem lineArriveRun_near (hpkg : q.srcPkg = s.pkg) (hfind : findMsg s q.key = some (c', f', m)) (hmsgs : (s.frame c' f').fl.msgs = [m])
    (hacc : m.acc = some (c.val, q.num)) (hbuf : msgToBuffer m.rc = true) (hpref : q.pref = []) (hmoved : q.moved = [])
    (hsrc : srcPlace s c' f' m line = .ok (.face k)) (data : MsgLine) : lineArriveRun s c t.num line data =
      lineTaken (((List.range (ceilDiv (lineLen q.len line) 4)).map fun i => 16 * line + i).foldl (fun s k => moveWord s c q c' f' m k) s)
        c q t.num line c' f' m := by
  have hgo : ¬ (q.closed = true ∨ (!t.lines.contains line) = true ∨ (!q.owed.contains line) = true) := by simp [hclosed, hlines, howed]
  have hturn := lineTurn_first hmsgs (msgGranted_single hreqs htoks hreq hlive hlines hclosed hpref hacc)
  have hopen : ¬ ((!lineTurn s c' f' m line) = true ∨ (lineRefused s c' f' m line).isSome = true) := by
    rw [hturn, lineRefused_faces hsrc hbuf]
    decide
  have hrest : (lineWords q.len line).filter (fun k => !q.moved.any (·.1 = k)) = lineWords q.len line := by simp [hmoved]
  rw [lineArriveRun, linesUnder_token hreqs htoks hreq, if_neg (by rw [hlive]; decide)]
  dsimp only
  rw [if_neg hgo, if_pos hpkg, hfind]
  dsimp only
  rw [if_neg hopen, hrest, logLine_faces hsrc hbuf, if_pos (by simp [howed])]
  rfl

end

theorem ForBuffer.congr {s z : State} {c : CubeId} {q : YReq} {f : FrameId} {i : Nat} {y : Buf} {x : Task} (h : ForBuffer s c q f i y x)
    (hframe : ∀ f, z.frame c f = s.frame c f) : ForBuffer z c q f i y x :=
  ⟨h.recv, h.rtask, by rw [hframe, h.task], by rw [hframe, h.away], by rw [hframe, h.buf]⟩

/-! What a line brings, by where it comes from and where it goes. -/

section
variable {s : State} {c : CubeId} {q : YReq} {t : Tok} {line : Nat} (hreqs : (s.cube c).reqs = [q]) (htoks : (s.cube c).toks = [t])
  (hreq : t.req = q.num) (hexp : t.expired = false) (hlive : t.past s.now = false)
  (hlines : t.lines = [line]) (howed : q.owed = [line]) (hclosed : q.closed = false)
include hreqs htoks hreq hexp hlive hlines howed hclosed

/-- A line of another package that its target admits is written at its global address (R76, R361). -/
theorem lineArriveRun_written {x : MsgLine} {a : Nat} (hfar : q.srcPkg ≠ s.pkg) (hrecv : q.recv = none) (hpa : x.pa = some a)
    (hcheck : targetCheck s (fpidOf s ((cubePart s c.val).getD 0)) a true = none) : let z := lineArriveRun s c t.num line x
    LineMoved z c q ∧ (∀ i, i < lineLen q.len line → mergedByte z (a + i) = x.data.getD i 0) ∧
      (∀ p, p < a ∨ a + lineLen q.len line ≤ p → mergedByte z p = mergedByte s p) ∧
      ∀ p, poisoned z p = if p / 64 = a / 64 then x.bad || (poisoned s p && !decide (a % 64 = 0 ∧ lineLen q.len line = 64)) else poisoned s p := by
  have harrive := lineArriveRun_far hreqs htoks hreq hlive hlines howed hclosed hfar hrecv hpa
  rw [hcheck] at harrive
  dsimp only at harrive
  rw [writeFar_glob hrecv hpa] at harrive
  dsimp only
  rw [harrive]
  have hb := length_padded x.data (lineLen_le q.len line)
  have hcube := fun d => congrFun (writePlace_glob_keeps s c a ((x.data ++ List.replicate 64 0).take (lineLen q.len line)) x.bad
    State.cube (fun _ _ => rfl)) d
  refine ⟨lineDone_moved (by rw [hcube]; exact hreqs) rfl rfl rfl howed (by rw [hcube]; exact htoks) hlines hexp, fun i hi => ?_, fun p hp => ?_,
    fun p => ?_⟩
  · refine (mergedByte_writePlace_glob s c a _ x.bad (a + i)).trans ?_
    rw [hb, if_pos (by omega), Nat.add_sub_cancel_left, getD_padded _ hi]
  · refine (mergedByte_writePlace_glob s c a _ x.bad p).trans ?_
    rw [hb, if_neg (by omega)]
  · refine (poisoned_writePlace_glob s c a _ x.bad p).trans ?_
    rw [hb]

/-- A line between the faces and a buffer leaves the sender's bytes in the buffer (R77). -/
theorem lineArriveRun_copied {c' : CubeId} {f' fr : FrameId} {m : MsgAct} {k bi : Nat} {y : Buf} {x : Task} (hb : ForBuffer s c q fr bi y x)
    (hlost : y.st ≠ .lost) (hlen : 0 < y.len) (hpkg : q.srcPkg = s.pkg) (hfind : findMsg s q.key = some (c', f', m)) (holds : m.olds = [])
    (hmsgs : (s.frame c' f').fl.msgs = [m]) (hacc : m.acc = some (c.val, q.num)) (hbuf : msgToBuffer m.rc = true) (hpref : q.pref = [])
    (hmoved : q.moved = []) (hsrc : srcPlace s c' f' m line = .ok (.face k)) (data : MsgLine) :
    let key := (bufKey x y (q.dst + 64 * line)).1
    let z := lineArriveRun s c t.num line data
    c' ≠ c ∨ k + 64 ≤ key ∨ key + 64 ≤ k → LineMoved z c q ∧ z.mem = s.mem ∧
      (∀ i, i < lineLen q.len line → faceByte (z.cube c) (key + i) = faceByte (s.cube c') (k + i)) ∧
      ∀ p, p < key ∨ key + lineLen q.len line ≤ p → faceByte (z.cube c) p = faceByte (s.cube c) p := by
  intro key z hpart
  have hz : z = _ := lineArriveRun_near hreqs htoks hreq hlive hlines howed hclosed hpkg hfind hmsgs hacc hbuf hpref hmoved hsrc data
  have hdst : ∀ z : State, (∀ f, z.frame c f = s.frame c f) → msgDst z c q line = some (.face key) :=
    fun z hz => (hb.congr hz).msgDst hlost hlen line
  have hplace : ∀ z : State, z.frame c' f' = s.frame c' f' → srcPlace z c' f' m line = .ok (.face k) := fun z hz => by
    rw [srcPlace_face_iff, hz]
    exact srcPlace_face_iff.1 hsrc
  have hwords := wordsMoved_fold holds hplace hdst hpart hreqs _ (ceilDiv_four (lineLen q.len line)).1
  have hbytes := lineTaken_bytes hwords t.num f' m
  have hmemory := (lineTaken_memory (hdst _ fun f => hwords.frame c f) t.num c' f' m).trans hwords.memory
  rw [hz]
  refine ⟨lineTaken_moved hwords htoks hlines howed hexp f' m, congrArg Prod.fst hmemory, fun i hi => ?_, fun p hp => ?_⟩
  · rw [hbytes, if_pos (by omega), Nat.add_sub_cancel_left]
  · rw [hbytes, if_neg (by omega)]

end

/-- A token past its life is marked and its lines are given back; a sender of another package is told (R369). -/
theorem expireRun_past {s : State} {c : CubeId} {q : YReq} {t : Tok} (hreqs : (s.cube c).reqs = [q]) (htoks : (s.cube c).toks = [t])
    (hreq : t.req = q.num) (hexp : t.expired = false) (hpast : t.life ≤ s.now - t.granted) : let z := expireRun s c t.num
    z.mem = s.mem ∧ (z.cube c).toks = [{ t with expired := true }] ∧
      (∃ y, (z.cube c).reqs = [y] ∧ y.returned = q.returned ++ t.lines ∧ y.owed = q.owed ∧ y.ungranted = q.ungranted) ∧
      (q.srcPkg ≠ s.pkg → Posted s z c q.srcPkg (.msgExpire q.key t.num t.lines)) := by
  intro z
  obtain ⟨now, run, hreqs'⟩ := tokExpired_reqs hreqs hreq
  have hends : z.cubes = (tokExpired s c t).cubes → (z.cube c).toks = [{ t with expired := true }] ∧
      ∃ y, (z.cube c).reqs = [y] ∧ y.returned = q.returned ++ t.lines ∧ y.owed = q.owed ∧ y.ungranted = q.ungranted := fun hz => by
    have hcube : z.cube c = (tokExpired s c t).cube c := by rw [State.cube, State.cube, hz]
    rw [hcube]
    exact ⟨tokExpired_toks htoks, _, hreqs', YReq.timed_keeps YReq.returned (fun _ _ _ => rfl) .., YReq.timed_keeps YReq.owed (fun _ _ _ => rfl) ..,
      YReq.timed_keeps YReq.ungranted (fun _ _ _ => rfl) ..⟩
  have hmem : z.mem = s.mem := congrArg Prod.fst memory_expireRun
  have hdue : z = _ := expireRun_due hreqs htoks hexp hreq hpast
  by_cases hpkg : q.srcPkg = s.pkg
  · rw [if_pos hpkg] at hdue
    obtain ⟨htoks', hreqs''⟩ := hends (congrArg State.cubes hdue)
    exact ⟨hmem, htoks', hreqs'', fun h => absurd hpkg h⟩
  · rw [if_neg hpkg] at hdue
    obtain ⟨htoks', hreqs''⟩ := hends ((congrArg State.cubes hdue).trans rfl)
    exact ⟨hmem, htoks', hreqs'', fun _ => hdue ▸ (sameWires_tokExpired t).posted ..⟩

theorem Tok.past_iff {t : Tok} (hlive : t.expired = false) (now : Nat) : t.past now = true ↔ t.life ≤ now - t.granted := by
  simp [Tok.past, hlive]

/-! Requests that may be granted a token. -/

section
variable {s : State} {c : CubeId} {q : YReq}

theorem ForBuffer.grantable {f : FrameId} {i : Nat} {y : Buf} {x : Task} (h : ForBuffer s c q f i y x) (hclosed : q.closed = false)
    (hlines : q.ungranted ≠ []) (hlost : y.st ≠ .lost) : grantable s c q = true := by
  simp [Machine.grantable, hclosed, hlines, h.recvHere, h.recvLost, hlost]

theorem grantable_global (hclosed : q.closed = false) (hlines : q.ungranted ≠ []) (hrecv : q.recv = none) : grantable s c q = true := by
  simp [grantable, hclosed, hlines, recvHere_global s c hrecv, recvLost_global s c hrecv]

/-- A request for a global destination or for a declared buffer of a resident task may be granted a token. -/
theorem grantable_of_open (h : q.closed = false ∧ q.ungranted ≠ [] ∧ (q.recv = none ∨
    ∃ (fr : FrameId) (i : Nat) (y : Buf) (x : Task), q.recv = some (fr.val, (i, y.gen)) ∧ q.rtask = some (x.part, x.launch, x.gang, x.rank) ∧
      (s.frame c fr).task = some x ∧ (s.frame c fr).away = false ∧ (s.frame c fr).buf i = some y ∧ y.st ≠ .lost)) :
    grantable s c q = true ∧ q.closed = false ∧ recvHere s c q = true := by
  obtain ⟨hclosed, hlines, hrecv | ⟨fr, i, y, x, hrecv, hrtask, htask, haway, hbuf, hlost⟩⟩ := h
  · exact ⟨grantable_global hclosed hlines hrecv, hclosed, recvHere_global s c hrecv⟩
  · have hb : ForBuffer s c q fr i y x := ⟨hrecv, hrtask, htask, haway, hbuf⟩
    exact ⟨hb.grantable hclosed hlines hlost, hclosed, hb.recvHere⟩

theorem bestReq_single (hreqs : (s.cube c).reqs = [q]) (h : grantable s c q = true) :
    bestReq s.now ((s.cube c).reqs.filter (grantable s c)) = some q := by
  simp [hreqs, h, bestReq_one]

theorem bestReq_pair {p : YReq} (hreqs : (s.cube c).reqs = [p, q]) (hp : grantable s c p = true) (hq : grantable s c q = true)
    (hrank : lexLt (q.rank s.now) (p.rank s.now) = true) : bestReq s.now ((s.cube c).reqs.filter (grantable s c)) = some q := by
  simp [hreqs, hp, hq, bestReq_second hrank]


end

end Sys2Proof.Machine
end

section
/-! CLAIM. Yarrow's tokens and the lines of a message (R75 to R77, R259, R363, R367 to R369). -/
open Sys2Proof Sys2Proof.Machine

/-- Settles O43: the best request is granted a token, a line of a live token is written where it belongs, and an expired token
gives its lines back. -/
theorem tokensMoveMessageLines : Obligations.TokensMoveMessageLines := by
  intro s c hpower u n token open_ tells live
  have hrun := fun t => powered_of_power hpower t
  refine ⟨fun q hreqs hopen hlive hpkg => ?_, fun q hreqs hopen hlive hfar => ?_, fun q hreqs hfull => ?_, fun q p hreqs hq hp hlive hrank => ?_,
    fun q t line data hreqs htoks hreq hexp hlines howed hclosed => ⟨fun hpast => ?_, fun hnow => ?_⟩,
    fun q t hreqs htoks hreq hexp => ⟨fun hpast => ?_, fun hnow => ?_⟩, fun q hreqs htoks hreturned hclosed => ?_⟩
  · obtain ⟨hgrant, hclosed, hhere⟩ := grantable_of_open hopen
    have hgiven := grantRun_best (bestReq_single hreqs hgrant) hlive
    rw [if_pos hpkg, tokGiven_single hreqs hclosed hhere] at hgiven
    exact (hrun _).trans (congrArg _ hgiven)
  · obtain ⟨hgrant, -, -⟩ := grantable_of_open hopen
    have hbest := bestReq_single hreqs hgrant
    exact ⟨_, hrun _, grantRun_toks hbest hlive, grantRun_posted hbest hlive hfar⟩
  · exact (hrun _).trans (congrArg _ (grantRun_full hfull))
  · obtain ⟨hgq, -, -⟩ := grantable_of_open hq
    obtain ⟨hgp, -, -⟩ := grantable_of_open hp
    exact ⟨_, hrun _, grantRun_toks (bestReq_pair hreqs hgp hgq (rank_lt hrank)) hlive⟩
  · exact (hrun _).trans (congrArg _ (lineArriveRun_past hreqs htoks hreq data ((Tok.past_iff hexp _).2 hpast)))
  · have hlive : t.past s.now = false := Bool.eq_false_iff.2 fun h => absurd ((Tok.past_iff hexp _).1 h) (Nat.not_le.2 hnow)
    refine ⟨fun a hfar hrecv hpa hcheck => ?_, fun a k hfar hrecv hpa hcheck => ?_,
      fun c' f' fr m k bi y x hpkg hfind holds _ hmsgs hacc hbuf hpref hmoved hsrc hrecv hrtask htask haway hbi hlost hlen hpart => ?_⟩
    · exact ⟨_, hrun _, lineArriveRun_written hreqs htoks hreq hexp hlive hlines howed hclosed hfar hrecv hpa hcheck⟩
    · have harrive := lineArriveRun_far hreqs htoks hreq hlive hlines howed hclosed hfar hrecv hpa
      rw [hcheck] at harrive
      exact ⟨_, (hrun _).trans (congrArg _ harrive), rfl, rfl, rfl, rfl, rfl⟩
    · exact ⟨_, hrun _, lineArriveRun_copied hreqs htoks hreq hexp hlive hlines howed hclosed ⟨hrecv, hrtask, htask, haway, hbi⟩ hlost hlen hpkg hfind
        holds hmsgs hacc hbuf hpref hmoved hsrc data hpart⟩
  · exact ⟨_, hrun _, expireRun_past hreqs htoks hreq hexp hpast⟩
  · exact (hrun _).trans (congrArg _ (expireRun_early htoks hexp hnow))
  · exact (hrun _).trans (congrArg _ (reRequestRun_single hreqs htoks hreturned hclosed))

end

section
/-! SUPPORT. How an `msend` leaves the copy queue, and the MSGID its message takes (R91, R255, R261, R328). -/

namespace Sys2Proof.Machine

/-! MSGIDs. -/

/-- The numbers from k on, modulo 2^24, that a message may take beside n others. -/
def msgidsFrom (k n : Nat) : List Nat := (List.range (n + 1)).map fun i => (k + i) % 2 ^ 24

theorem freeMsgid_eq (l : List Nat) (k : Nat) : freeMsgid l k = ((msgidsFrom k l.length).find? fun n => !l.contains n).getD k := rfl

theorem msgidsFrom_nodup {n : Nat} (k : Nat) (hn : n < 2 ^ 24) : (msgidsFrom k n).Nodup := by
  refine List.Nodup.map_on (fun i hi j hj heq => ?_) List.nodup_range
  have hi' := List.mem_range.1 hi
  have hj' := List.mem_range.1 hj
  omega

/-- More numbers than messages: one of them is free. -/
theorem exists_free_msgid {l : List Nat} (k : Nat) (hl : l.length < 2 ^ 24) : ∃ n ∈ msgidsFrom k l.length, n ∉ l := by
  by_contra hall
  push Not at hall
  have hle := List.Subperm.length_le ((msgidsFrom_nodup k hl).subperm hall)
  rw [msgidsFrom, List.length_map, List.length_range] at hle
  omega

theorem freeMsgid_notMem {l : List Nat} (k : Nat) (hl : l.length < 2 ^ 24) : freeMsgid l k ∉ l := by
  obtain ⟨n, hn, hfree⟩ := exists_free_msgid k hl
  cases hfind : (msgidsFrom k l.length).find? fun n => !l.contains n with
  | none => exact absurd (List.find?_eq_none.1 hfind n hn) (by simpa using hfree)
  | some m =>
    rw [freeMsgid_eq, hfind]
    simpa using List.find?_some hfind

theorem freeMsgid_first {l : List Nat} {k : Nat} (hfree : k % 2 ^ 24 ∉ l) : freeMsgid l k = k % 2 ^ 24 := by
  have hhead : msgidsFrom k l.length = k % 2 ^ 24 :: (List.range l.length).map fun i => (k + (i + 1)) % 2 ^ 24 := by
    rw [msgidsFrom, List.range_succ_eq_map, List.map_cons, List.map_map]
    rfl
  rw [freeMsgid_eq, hhead, List.find?_cons_of_pos (by simpa using hfree)]
  rfl

/-! The operations of a frame's messages. -/

/-- The operations that the messages of a frame are of. -/
def msgOps (s : State) (c : CubeId) (f : FrameId) : List Nat := (s.frame c f).fl.msgs.map MsgAct.id

section
variable (s : State) (c : CubeId) (f : FrameId)

theorem msgOps_modFrame {g : Frame → Frame} (hg : ∀ r, (g r).fl.msgs.map MsgAct.id = r.fl.msgs.map MsgAct.id) :
    msgOps (s.modFrame c f g) c f = msgOps s c f := frame_modFrame_keeps (fun r => r.fl.msgs.map MsgAct.id) hg s c c f f

theorem msgOps_modCube {g : Cube → Cube} (hg : ∀ q, (g q).frames = q.frames) (d : CubeId) : msgOps (s.modCube d g) c f = msgOps s c f :=
  congrArg (fun r => r.fl.msgs.map MsgAct.id) (State.frame_modCube_of_frames hg s d c f)

theorem msgOps_fresh (n : Nat) : msgOps { s with fresh := n } c f = msgOps s c f := rfl

@[simp] theorem msgOps_setPoison (a : Nat) (b : Bool) : msgOps (setPoison s a b) c f = msgOps s c f := rfl

@[simp] theorem msgOps_ite (p : Prop) [Decidable p] (t : State) :
    msgOps (if p then s else t) c f = if p then msgOps s c f else msgOps t c f := apply_ite (msgOps · c f) ..

@[simp] theorem msgOps_modCopy (id : Nat) (g : CopyEnt → CopyEnt) : msgOps (s.modFrame c f fun r => modCopy r id g) c f = msgOps s c f :=
  msgOps_modFrame s c f fun _ => rfl

@[simp] theorem msgOps_wire (a : Nat) (info : OpInfo) (op : Nat) (va : Word) (m : RemoteKind) : msgOps (wire s c f a info op va m) c f = msgOps s c f := by
  rw [wire]
  split <;> rfl

@[simp] theorem msgOps_wirePlace (e : CopyEnt) (p : Place) (va : Nat) (g : Nat → Nat × RemoteKind) :
    msgOps (wirePlace s c f e p va g) c f = msgOps s c f := by
  cases p with
  | face k => rfl
  | glob a => exact msgOps_wire ..

@[simp] theorem msgOps_logWalk (src : Stream) (va : Nat) : msgOps (logWalk s c f src va) c f = msgOps s c f :=
  congrArg (fun r => r.fl.msgs.map MsgAct.id) (logFail_frame ..)

@[simp] theorem msgOps_wakePlace (p : Place) : msgOps (wakePlace s c p) c f = msgOps s c f := by
  cases p with
  | face k => exact msgOps_modCube s c f (fun _ => by rfl) c
  | glob a => rfl

@[simp] theorem msgOps_writeWord (p : Place) (mask val : Nat) : msgOps (writeWord s c p mask val) c f = msgOps s c f := by
  cases p with
  | face k =>
    dsimp only [writeWord]
    refine msgOps_modCube s c f (fun q => ?_) c
    exact faceSetList_keeps Cube.frames (fun _ _ _ => rfl) _ q k
  | glob a => rfl

@[simp] theorem msgOps_poisonPlace (p : Place) (b : Bool) : msgOps (poisonPlace s c p b) c f = msgOps s c f := by
  cases p with
  | face k => exact msgOps_modCube s c f (fun _ => by rfl) c
  | glob a => rfl

variable (id n : Nat)

theorem msgOps_copyRead : msgOps (copyRead s c f id n) c f = msgOps s c f := by
  have hput := fun (m : Nat) (x : Nat × Nat × Bool) => msgOps_modCopy { s with fresh := m } c f id fun e =>
    { e with prog := { e.prog with got := e.prog.got ++ [x] } }
  rw [copyRead]
  split
  · rfl
  · dsimp only
    split
    · rfl
    · split
      · split
        · rfl
        · split
          · exact (msgOps_wakePlace ..).trans (hput ..)
          · exact (msgOps_wirePlace ..).trans ((msgOps_wakePlace ..).trans (hput ..))
      · split
        · rfl
        · exact (msgOps_logWalk ..).trans (hput ..)

theorem msgOps_copyWrite : msgOps (copyWrite s c f id n) c f = msgOps s c f := by
  rw [copyWrite]
  split
  · rfl
  · dsimp only
    split
    · rfl
    · split
      · split
        · rfl
        · exact (msgOps_logWalk ..).trans (msgOps_modCopy ..)
      · split
        · rfl
        · split <;>
          · split_ifs
            · simp
            · split
              · split_ifs <;> simp
              · simp

theorem msgOps_nmcReturn : msgOps (nmcReturn s c f id) c f = msgOps s c f := by
  have htag : ∀ r : Frame, (releaseTag r id).fl.msgs.map MsgAct.id = r.fl.msgs.map MsgAct.id := fun r => by
    rw [releaseTag]
    split
    · rfl
    · simp [Flight.mapWait, Function.comp_def, MsgAct.mapWait]
  rw [nmcReturn]
  split
  · rfl
  · split
    · dsimp only
      split
      · refine msgOps_modFrame s c f fun r => ?_
        split
        · rfl
        · exact htag _
      · rfl
    · rfl

theorem msgOps_nmcRead : msgOps (nmcRead s c f id n) c f = msgOps s c f := by
  rw [nmcRead]
  split
  · rfl
  · split
    · dsimp only
      split
      · rfl
      · refine (msgOps_nmcReturn ..).trans ((msgOps_modCopy ..).trans ?_)
        refine (msgOps_fresh ..).trans ?_
        split <;> simp
    · rfl

theorem msgOps_nmcWrite : msgOps (nmcWrite s c f id n) c f = msgOps s c f := by
  rw [nmcWrite]
  split
  · rfl
  · split
    · dsimp only
      split
      · rfl
      · split
        · exact msgOps_modCopy ..
        · exact msgOps_modCopy ..
    · rfl

theorem msgOps_cubeFetch : msgOps (cubeFetch s c f id n) c f = msgOps s c f := by
  rw [cubeFetch]
  dsimp only
  split
  · rfl
  · split
    · rfl
    · split
      · rfl
      · split
        · refine (msgOps_wire ..).trans ?_
          rw [msgOps, State.frame_setFrame_same]
          rfl
        · rfl

end

/-! An `msend` at the head of the copy queue. -/

section
variable {s : State} {c : CubeId} {f : FrameId} {k : CopyEnt} {rc : List Word} {cls : BitVec 2} {msgid : Nat} {x : Task}
  (hop : k.op = .msend rc cls msgid) (hqueue : (s.frame c f).fl.copyQ = [k]) (hls : (s.frame c f).fl.ls = [])
  (htask : (s.frame c f).task = some x) (hhere : (s.frame c f).issue.swapped = false)
include hop hqueue hls htask hhere

theorem accessSendRun_msend (htraps : (s.frame c f).fl.traps = []) : accessSendRun s c f k.id 0 = sendMsend s c f k rc cls msgid := by
  have hhead : copyHead (s.frame c f) k.id = some k := by simp [copyHead, hqueue, htraps]
  rw [accessSendRun]
  rw [if_neg (by simp [htask, hhere]), hhead, hls]
  dsimp only [List.find?_nil]
  rw [hop]

omit hop in
/-- Behind a pending trap the access is of an operation of the same number, and no message leaves. -/
theorem accessSendRun_trapped (htraps : (s.frame c f).fl.traps ≠ []) (hmsgs : ∀ z ∈ (s.frame c f).fl.msgs, z.id ≠ k.id) :
    msgOps (accessSendRun s c f k.id 0) c f = msgOps s c f := by
  have hhead : copyHead (s.frame c f) k.id = none := by simp [copyHead, hqueue, htraps]
  have hnone : (s.frame c f).fl.msgs.find? (fun m => decide (m.id = k.id)) = none := by simpa using hmsgs
  rw [accessSendRun]
  rw [if_neg (by simp [htask, hhere]), hhead, hls]
  dsimp only [List.find?_nil]
  split
  · split
    · rw [nmcUnit]
      split
      · rfl
      · split
        · exact msgOps_nmcWrite ..
        · exact msgOps_nmcRead ..
    · rw [copyAccess]
      split
      · rfl
      · split
        · exact msgOps_copyRead ..
        · split
          · exact msgOps_copyWrite ..
          · rfl
  · split
    · exact msgOps_cubeFetch ..
    · rw [msgSend, hnone]

omit hop hqueue hls htask hhere

/-- At most 31 messages are saved in a block. -/
theorem length_msgIds (s : State) (c : CubeId) (f : FrameId) : (msgIds s c f).length ≤ (s.frame c f).fl.msgs.length + 31 := by
  have hbits : ∀ v, bits v 32 5 ≤ 31 := fun v => by
    have hlt : bits v 32 5 < 2 ^ 5 := Nat.mod_lt _ (by decide)
    omega
  rw [msgIds]
  rw [List.length_append, List.length_map]
  split
  · rw [List.length_map, List.length_range]
    exact Nat.add_le_add_left (hbits _) _
  · exact Nat.add_le_add_left (by decide) _

/-- What an `msend` leaves of the messages: them all, or them and its own under a MSGID that none of them has. -/
theorem sendMsend_msgs (s : State) (c : CubeId) (f : FrameId) (k : CopyEnt) (rc : List Word) (cls : BitVec 2) (msgid : Nat) :
    sendMsend s c f k rc cls msgid = s ∨ ∃ y : MsgAct, y.msgid ∉ (s.frame c f).fl.msgs.map MsgAct.msgid ∧
      ((sendMsend s c f k rc cls msgid).frame c f).fl.msgs = (s.frame c f).fl.msgs ++ [y] := by
  rw [sendMsend]
  dsimp only
  split
  · exact .inl rfl
  · split
    · exact .inl rfl
    · next hgo =>
      right
      have hlen : (s.frame c f).fl.msgs.length < 16 := by
        simp only [not_or] at hgo
        omega
      have hall := length_msgIds s c f
      have hfree := freeMsgid_notMem (l := msgIds s c f) msgid (by omega)
      rw [State.frame_setFrame_same]
      refine ⟨_, fun hmem => hfree ?_, rfl⟩
      rw [msgIds]
      exact List.mem_append_left _ hmem

include hop hqueue hls htask hhere

/-- No two active messages of a task share a MSGID (R261, R328). -/
theorem accessSendRun_msgid {y z : MsgAct} (hz : z ∈ (s.frame c f).fl.msgs) (hy : y ∈ ((accessSendRun s c f k.id 0).frame c f).fl.msgs)
    (hid : y.id = k.id) (hmsgs : ∀ z ∈ (s.frame c f).fl.msgs, z.id ≠ k.id) : y.msgid ≠ z.msgid := by
  have hold : y ∉ (s.frame c f).fl.msgs := fun hmem => hmsgs y hmem hid
  by_cases htraps : (s.frame c f).fl.traps = []
  · rw [accessSendRun_msend hop hqueue hls htask hhere htraps] at hy
    obtain hsame | ⟨w, hw, hnew⟩ := sendMsend_msgs s c f k rc cls msgid
    · rw [hsame] at hy
      exact absurd hy hold
    · rw [hnew, List.mem_append, List.mem_singleton] at hy
      obtain hy | rfl := hy
      · exact absurd hy hold
      · exact fun heq => hw (heq ▸ List.mem_map_of_mem hz)
  · have hops := accessSendRun_trapped hqueue hls htask hhere htraps hmsgs
    have hmem : y.id ∈ msgOps (accessSendRun s c f k.id 0) c f := List.mem_map_of_mem hy
    rw [hops, msgOps, List.mem_map] at hmem
    obtain ⟨w, hw, hwid⟩ := hmem
    exact absurd (hwid.trans hid) (hmsgs w hw)

end

/-- An `msend` with nothing before it leaves its queue for the messages of its task. -/
theorem sendMsend_leaves {s : State} {c : CubeId} {f : FrameId} {k : CopyEnt} {rc : List Word} {cls : BitVec 2} {msgid : Nat} {pa : Option Nat}
    (hfl : (s.frame c f).fl = { Flight.none with copyQ := [k] }) (hwait : k.wait = 0) (hlvl : (s.frame c f).priv.lvl = false)
    (hclock : clockStands s c = false) (hfails : firstFailure s c f k = none) (hrefused : msgRefused s c f rc = none)
    (hpa : msgToBuffer rc = true ∧ pa = none ∨ msgToBuffer rc = false ∧ ∃ a, pa = some a ∧
      translateF s c f { w := true } (recW rc 0) .msg = .ok a) :
    sendMsend s c f k rc cls msgid = s.modFrame c f fun r => { r with fl := { Flight.none with
      msgs := [⟨msgid % 2 ^ 24, k.id, k.info, rc, k.recA.setWidth 32, k.sig, cls, 0, k.srcB, pa, none, 0, 0, none, false, k.olds, k.pre, none⟩] } } := by
  have hplace : (if msgToBuffer rc then Except.ok none else (translateF s c f { w := true } (recW rc 0) .msg).map some) = Except.ok pa := by
    obtain ⟨hbuf, rfl⟩ | ⟨hbuf, a, rfl, ha⟩ := hpa
    · rw [if_pos hbuf]
    · rw [if_neg (by rw [hbuf]; decide), ha]
      rfl
  have hids : msgIds s c f = [] := by
    rw [msgIds, hlvl, hfl]
    rfl
  have hfirst : freeMsgid [] msgid = msgid % 2 ^ 24 := freeMsgid_first List.not_mem_nil
  have hgo : ¬ (16 ≤ (s.frame c f).fl.msgs.length ∨ (!waitOver (s.frame c f) k.id k.wait) = true ∨ (!drainsOpen s c f k.id false) = true ∨
      (firstFailure s c f k).isSome = true ∨ (msgRefused s c f rc).isSome = true ∨ clockStands s c = true) := by
    rw [drainsOpen, hfl, hwait, hfails, hrefused, hclock]
    simp [waitOver, Flight.none]
  rw [sendMsend]
  dsimp only
  rw [hplace]
  dsimp only
  rw [if_neg hgo, hids, hfirst, hfl, hwait]
  rfl

end Sys2Proof.Machine
end

section
/-! SUPPORT. How a task's header is accepted in this package (R74, R258 to R260, R262, R367, R368). -/

namespace Sys2Proof.Machine

/-! A request as it is opened. -/

/-- A request that a cube opens now, for the lines given (R367). -/
def openedReq (s : State) (rc : CubeId) (pkg cube : Nat) (key : MsgKey) (cls : BitVec 2) (recv : Option (Nat × BufRef))
    (rt : Option (Nat × Nat × Nat × Nat)) (sig : BitVec 6) (a n : Nat) (owed ungranted pref : List Nat) : YReq :=
  ⟨(s.cube rc).nextReq, pkg, cube, key, cls, recv, rt, sig, a, n, owed, ungranted, pref, [], [], s.now, s.now, 0, none,
    usCycles (s.cube rc).ctl.orphto, false⟩

/-- The cube with a request more, under its next number. -/
def withReq (s : State) (rc : CubeId) (q : YReq) : State :=
  s.modCube rc fun u => { u with reqs := u.reqs ++ [q], nextReq := u.nextReq + 1 }

theorem linesFrom_zero (len : Nat) : linesFrom len 0 = List.range (lineCount len) := by
  simp [linesFrom]

theorem linesPast_zero (len pre : Nat) : linesPast len 0 pre = (List.range (lineCount len)).filter fun i => decide (pre ≤ i) := by
  rw [linesPast, linesFrom_zero]

/-- The name of the task that a buffer's request waits for. -/
def recvName (s : State) (rc : CubeId) (recv : Option (Nat × BufRef)) : Option (Nat × Nat × Nat × Nat) :=
  match recv with
  | some (fr, _) => (s.frame rc (frameOf fr)).task.map fun t => (t.part, t.launch, t.gang, t.rank)
  | none => none

theorem recvName_buffer (s : State) (rc : CubeId) (rf : FrameId) (b : BufRef) :
    recvName s rc (some (rf.val, b)) = (s.frame rc rf).task.map fun t => (t.part, t.launch, t.gang, t.rank) := by
  rw [recvName, frameOf_val]

theorem addReq_newReq {s t : State} {rc : CubeId} (h : t.cube rc = s.cube rc) (pkg cube : Nat) (key : MsgKey) (cls : BitVec 2) (recv : Option (Nat × BufRef)) (sig : BitVec 6)
    (a n : Nat) (owed ungranted pref : List Nat) :
    addReq t rc { newReq s rc pkg cube key cls recv sig a n with owed := owed, ungranted := ungranted, pref := pref } =
      withReq t rc (openedReq s rc pkg cube key cls recv (recvName s rc recv) sig a n owed ungranted pref) := by
  refine modCube_congr ?_
  dsimp only
  rw [h]
  rfl

/-- A change of a frame that keeps its task changes no request that opens. -/
theorem openedReq_modFrame {rf : FrameId} {g : Frame → Frame} (hg : ∀ r, (g r).task = r.task) (s : State) (rc : CubeId) (pkg cube : Nat) (key : MsgKey)
    (cls : BitVec 2) (recv : Option (Nat × BufRef)) (sig : BitVec 6) (a n : Nat) (owed ungranted pref : List Nat) :
    openedReq (s.modFrame rc rf g) rc pkg cube key cls recv (recvName (s.modFrame rc rf g) rc recv) sig a n owed ungranted pref =
      openedReq s rc pkg cube key cls recv (recvName s rc recv) sig a n owed ungranted pref := by
  have hname : recvName (s.modFrame rc rf g) rc recv = recvName s rc recv := by
    cases recv with
    | none => rfl
    | some b => exact congrArg (Option.map _) (frame_modFrame_keeps Frame.task hg s rc rc rf _)
  rw [openedReq, openedReq, hname, cube_modFrame_keeps Cube.nextReq fun _ _ => rfl,
    cube_modFrame_keeps (fun q => usCycles q.ctl.orphto) fun _ _ => rfl]
  rfl

/-- A frame whose declared buffer accepts a fill (R74). -/
def fillTaken (b : Nat) (y : Buf) (r : Frame) : Frame :=
  r.setBuf b (some { y with st := .filling, fill := if y.st = .filling then y.fill + 1 else 1 })

theorem acceptFill_buf {r : Frame} {b : Nat} {y : Buf} (h : r.buf b = some y) : acceptFill r b = fillTaken b y r := by
  rw [acceptFill, h, fillTaken]
  dsimp only
  split
  next hst => rw [← hst]
  next => rfl

theorem refusesMsg_iff {r : Frame} {b dst len : Nat} {y : Buf} (h : r.buf b = some y) : refusesMsg r b dst len = true ↔
    y.st = .draining ∨ y.st = .lost ∨ (y.st = .filling ∧ 255 ≤ y.fill) ∨ (y.nl + 1) * y.len < dst + len := by
  simp [refusesMsg, h, or_assoc]

theorem refusesMsg_none {r : Frame} {b : Nat} (h : r.buf b = none) (dst len : Nat) : refusesMsg r b dst len = true := by
  simp [refusesMsg, h]

theorem reqsFull_iff (s : State) (c : CubeId) : reqsFull s c = false ↔ ((s.cube c).reqs.filter fun q => !q.closed).length < 256 := by
  simp [reqsFull]

theorem acceptFill_keeps {α : Type} (p : Frame → α) (hp : ∀ r i b, p (Frame.setBuf r i b) = p r) (r : Frame) (b : Nat) : p (acceptFill r b) = p r := by
  rw [acceptFill]
  split
  · exact hp ..
  · rfl

/-- A handle that names a resident member names a frame that is not away (R217). -/
theorem handleDest_here {s : State} {c rc : CubeId} {f rf : FrameId} {h : Nat} (hdest : handleDest s c f h = .frame rc rf) :
    (s.frame rc rf).away = false := by
  unfold handleDest memberDest at hdest
  dsimp only at hdest
  split at hdest
  · cases hdest
  · split at hdest
    · cases hdest
    · split at hdest
      · split at hdest
        · cases hdest
        · next haway =>
          cases hdest
          simpa using haway
      · cases hdest
      · cases hdest

/-! A task's header. -/

section
variable {s : State} {c : CubeId} {f : FrameId} {m : MsgAct} {x : Task} (htask : (s.frame c f).task = some x)
  (hhere : (s.frame c f).issue.swapped = false)

/-- Either instruction brings a header that has not been answered to its destination. -/
theorem exec_header (hpower : s.teasel.power = true) (htask : (s.frame c f).task = some x) (hmsgs : (s.frame c f).fl.msgs = [m])
    (hacc : m.acc = none) (hended : m.ended = none) (hfar : m.far = none) {i : Instr}
    (hi : i ∈ [Instr.msgAccept (.task c f), .headerRetry c f m.msgid]) : exec i s = .next (acceptTask s c f m) := by
  obtain rfl | rfl := List.mem_pair.1 hi
  · have hfind : (s.frame c f).fl.msgs.find? (fun m => m.acc.isNone && m.ended.isNone && m.far.isNone) = some m := by
      simp [hmsgs, hacc, hended, hfar]
    have hrun : msgAcceptRun s (.task c f) = acceptTask s c f m := by
      rw [msgAcceptRun]
      rw [hfind]
    exact (powered_of_power hpower _).trans (congrArg _ hrun)
  · have hfind : (s.frame c f).fl.msgs.find? (fun n => decide (n.msgid = m.msgid) && n.acc.isNone && n.ended.isNone) = some m := by
      simp [hmsgs, hacc, hended]
    have hrun : headerRetryRun s c f m.msgid = acceptTask s c f m := by
      rw [headerRetryRun]
      dsimp only
      rw [hfind, htask]
      dsimp only
      rw [hfar]
    exact (powered_of_power hpower _).trans (congrArg _ hrun)

/-- The request of a header that is accepted here, its first lines granted at once (R258, R259). -/
def taskReq (s : State) (c : CubeId) (x : Task) (m : MsgAct) (rc : CubeId) (recv : Option (Nat × BufRef)) (sig : BitVec 6) (a : Nat) : YReq :=
  openedReq s rc s.pkg c.val (msgKey x m.msgid) m.cls recv (recvName s rc recv) sig a (msgLen m.rc) (List.range (lineCount (msgLen m.rc)))
    ((List.range (lineCount (msgLen m.rc))).filter fun i => decide (lineCount (min (msgLen m.rc) m.pre) ≤ i))
    (List.range (lineCount (min (msgLen m.rc) m.pre)))

/-- A message whose request is open. -/
def noteAccepted (s : State) (c : CubeId) (f : FrameId) (m : MsgAct) (rc : CubeId) (num : Nat) : State :=
  setMsg s c f m.msgid fun m => { m with acc := some (rc.val, num), closed := false }

theorem openHere_newReq {s : State} {c : CubeId} {m : MsgAct} {x : Task} (hsent : m.sent = 0) (rc : CubeId) (recv : Option (Nat × BufRef))
    (sig : BitVec 6) (a : Nat) :
    openHere s rc (newReq s rc s.pkg c.val (msgKey x m.msgid) m.cls recv sig a (msgLen m.rc)) m.sent (msgPre m) =
      withReq s rc (taskReq s c x m rc recv sig a) := by
  rw [openHere, hsent, linesFrom_zero, linesPast_zero, msgPre, if_pos hsent]
  exact addReq_newReq rfl ..

include htask hhere

theorem acceptTask_reopens {rc : CubeId} {q : YReq} (hreq : reqOf s s.pkg (msgKey x m.msgid) = some (rc, q)) (hclosed : q.closed = true)
    (hrecv : recvHere s rc q = true) (hroom : reqsFull s rc = false) :
    acceptTask s c f m = noteAccepted (reopen s rc q m.sent) c f m rc q.num := by
  rw [acceptTask]
  dsimp only
  rw [htask]
  dsimp only
  rw [if_neg (by rw [hhere]; decide), hreq]
  dsimp only
  rw [if_pos ⟨hclosed, hrecv, by rw [hroom]; rfl⟩]
  rfl

variable (hnone : reqOf s s.pkg (msgKey x m.msgid) = none) (hsent : m.sent = 0)
include hnone

omit hsent in
/-- A header for a declared buffer of a resident task. -/
theorem acceptTask_buffer (hbuf : msgToBuffer m.rc = true) {rc : CubeId} {rf : FrameId} (hdest : handleDest s c f (msgHandle m.rc) = .frame rc rf) :
    acceptTask s c f m =
      if refusesMsg (s.frame rc rf) (msgBuf m.rc) (recW m.rc 0) (msgLen m.rc) then setMsg s c f m.msgid fun m => { m with ended := some 1 }
      else if reqsFull s rc then s
      else if msgLen m.rc = 0 then endMsg (fillEmpty s rc rf (msgBuf m.rc) (msgRsig m.rc)) c f m.msgid 0 0
      else
        let t := s.modFrame rc rf fun r => acceptFill r (msgBuf m.rc)
        let recv : Nat × BufRef := (rf.val, (msgBuf m.rc, match (s.frame rc rf).buf (msgBuf m.rc) with | some x => x.gen | none => 0))
        noteAccepted (openHere t rc (newReq t rc t.pkg c.val (msgKey x m.msgid) m.cls (some recv) (msgRsig m.rc) (recW m.rc 0) (msgLen m.rc))
          m.sent (msgPre m)) c f m rc (t.cube rc).nextReq := by
  rw [acceptTask]
  dsimp only
  rw [htask]
  dsimp only
  rw [if_neg (by rw [hhere]; decide), hnone]
  dsimp only
  rw [if_pos hbuf, hdest]
  rfl

omit hsent in
theorem acceptTask_away (hbuf : msgToBuffer m.rc = true) (hdest : handleDest s c f (msgHandle m.rc) = .away) :
    acceptTask s c f m = leaveFar s c f x m (spanPkg s (s.frame c f) (bits (msgHandle m.rc) 8 6)) 0 := by
  rw [acceptTask]
  dsimp only
  rw [htask]
  dsimp only
  rw [if_neg (by rw [hhere]; decide), hnone]
  dsimp only
  rw [if_pos hbuf, hdest]

include hsent

/-- A header for a global destination of this package opens a request at the cube of its first byte (R258). -/
theorem acceptTask_global (hbuf : msgToBuffer m.rc = false) {a : Nat} (hpa : m.pa = some a) (hpkg : paPkg a = s.pkg) (hlen : 0 < msgLen m.rc)
    (hroom : reqsFull s (cubeOf (paCube a)) = false) : acceptTask s c f m =
      noteAccepted (withReq s (cubeOf (paCube a)) (taskReq s c x m (cubeOf (paCube a)) none 63 a)) c f m (cubeOf (paCube a))
        (s.cube (cubeOf (paCube a))).nextReq := by
  rw [acceptTask]
  dsimp only
  rw [htask]
  dsimp only
  rw [if_neg (by rw [hhere]; decide), hnone]
  dsimp only
  rw [if_neg (by rw [hbuf]; decide), hpa]
  dsimp only
  rw [if_neg (not_not_intro hpkg), if_neg (by rw [hroom]; decide), if_neg (by omega), openHere_newReq hsent]
  rfl

variable (hbuf : msgToBuffer m.rc = true) {rc : CubeId} {rf : FrameId} (hdest : handleDest s c f (msgHandle m.rc) = .frame rc rf)
include hbuf hdest

omit hsent in
theorem acceptTask_refused (h : refusesMsg (s.frame rc rf) (msgBuf m.rc) (recW m.rc 0) (msgLen m.rc) = true) :
    acceptTask s c f m = setMsg s c f m.msgid fun m => { m with ended := some 1 } := by
  rw [acceptTask_buffer htask hhere hnone hbuf hdest, if_pos h]

/-- A header for a declared buffer begins a fill and opens a request at the receiver's cube (R74, R258). -/
theorem acceptTask_fills {y : Buf} (hy : (s.frame rc rf).buf (msgBuf m.rc) = some y)
    (h : refusesMsg (s.frame rc rf) (msgBuf m.rc) (recW m.rc 0) (msgLen m.rc) = false) (hroom : reqsFull s rc = false) (hlen : 0 < msgLen m.rc) :
    acceptTask s c f m = noteAccepted (withReq (s.modFrame rc rf (fillTaken (msgBuf m.rc) y)) rc
        (taskReq s c x m rc (some (rf.val, (msgBuf m.rc, y.gen))) (msgRsig m.rc) (recW m.rc 0))) c f m rc (s.cube rc).nextReq := by
  have hfill : (s.modFrame rc rf fun r => acceptFill r (msgBuf m.rc)) =
      s.modFrame rc rf (fillTaken (msgBuf m.rc) y) := modFrame_congr _ _ _ _ _ (acceptFill_buf hy)
  rw [acceptTask_buffer htask hhere hnone hbuf hdest, if_neg (by rw [h]; decide), if_neg (by rw [hroom]; decide), if_neg (by omega), hy]
  dsimp only
  have htask' : ∀ r, (fillTaken (msgBuf m.rc) y r).task = r.task := fun _ => rfl
  rw [openHere_newReq hsent, hfill, taskReq, openedReq_modFrame htask', cube_modFrame_keeps Cube.nextReq fun _ _ => rfl]
  rfl

end

end Sys2Proof.Machine
end

section
/-! SUPPORT. A closed request opens again; a message without data (R260, R262). -/

namespace Sys2Proof.Machine

/-! A closed request. -/

/-- A closed request that opens again for some lines. -/
def YReq.reopened (now : Nat) (rest : List Nat) (q : YReq) : YReq :=
  { q with closed := false, owed := rest, ungranted := rest, pref := [], moved := [], returned := [], accepted := now, lastGrant := now, idle := 0, since := none }

/-- The lines from a byte on, and those that have not been written. -/
def reopenLines (q : YReq) (sent : Nat) : List Nat := (List.range (lineCount q.len)).filter fun i => decide (sent / 64 ≤ i) || q.owed.contains i

/-- Nothing is owed without a token: the timer of a request that has opened again stands. -/
theorem reopen_single {s : State} {rc : CubeId} {q : YReq} (hreqs : (s.cube rc).reqs = [q]) (htoks : (s.cube rc).toks = []) (sent : Nat) :
    reopen s rc q sent = s.modCube rc fun u => { u with reqs := [q.reopened s.now (reopenLines q sent)] } := by
  have hmod := modReq_reqs_single hreqs (YReq.reopened s.now (reopenLines q sent))
  have hrun : timerRuns (modReq s rc q.num (YReq.reopened s.now (reopenLines q sent))) rc (q.reopened s.now (reopenLines q sent)) = false := by
    rw [timerRuns, modReq, State.cube_modCube_same, htoks]
    simp [YReq.owes, YReq.reopened]
  have hreopen : reopen s rc q sent = retime (modReq s rc q.num (YReq.reopened s.now (reopenLines q sent))) rc := rfl
  rw [hreopen, retime_single hmod, hrun, modReq, State.modCube_modCube]
  rfl

/-! A message without data. -/

/-- The receiving frame of a message without data: its buffer is full and RSIG is signalled. -/
def emptyFilled (b gen : Nat) (sig : BitVec 6) (r : Frame) : Frame := Frame.filled [(b, gen)] sig (acceptFill r b)

theorem fillEmpty_flag {s : State} {rc : CubeId} {rf : FrameId} {b : Nat} {sig : BitVec 6} {y : Buf} (hy : (s.frame rc rf).buf b = some y)
    (haway : (s.frame rc rf).away = false) (hsig : sig.toNat < 8) :
    fillEmpty s rc rf b sig = s.modFrame rc rf (emptyFilled b y.gen sig) := by
  have haway' : ((s.modFrame rc rf fun r => fillDone (acceptFill r b) [(b, y.gen)]).frame rc rf).away = false := by
    rw [State.frame_modFrame_same, fillDone_keeps Frame.away (fun _ _ _ => rfl), acceptFill_keeps Frame.away (fun _ _ _ => rfl), haway]
  rw [fillEmpty, hy]
  dsimp only
  rw [signal_flag hsig haway', State.modFrame_modFrame]
  rfl

section
variable {r : Frame} {b : Nat} {y : Buf} {sig : BitVec 6}

theorem emptyFilled_buf (hy : r.buf b = some y) (hst : y.st ≠ .filling) :
    (emptyFilled b y.gen sig r).buf b = some { y with st := .full, fill := 0 } := by
  have hlt := Frame.buf_lt hy
  have htaken : acceptFill r b = r.setBuf b (some { y with st := .filling, fill := 1 }) := by
    rw [acceptFill_buf hy, fillTaken, if_neg hst]
  have hdone := fillDone_last (r := acceptFill r b) (i := b) (y := { y with st := .filling, fill := 1 }) (by rw [htaken, Frame.buf_setBuf hlt]) rfl le_rfl
  have hbuf : (emptyFilled b y.gen sig r).buf b = (fillDone (acceptFill r b) [(b, y.gen)]).buf b := rfl
  rw [hbuf, hdone, Frame.buf_setBuf hlt]

theorem emptyFilled_df : (emptyFilled b y.gen sig r).sync.df = r.sync.df ||| (1#8 <<< sig.toNat) := by
  have hsync : (fillDone (acceptFill r b) [(b, y.gen)]).sync = r.sync :=
    (fillDone_keeps Frame.sync (fun _ _ _ => rfl) _ _).trans (acceptFill_keeps Frame.sync (fun _ _ _ => rfl) _ _)
  rw [emptyFilled, Frame.filled, hsync]

end

theorem completed_frame_of_ne {s : State} {c d : CubeId} {f e : FrameId} (h : (c, f) ≠ (d, e)) (m : MsgAct) (k : Nat) :
    (completed s c f m k).frame d e = s.frame d e := by
  rw [completed, State.frame_modFrame_ne h.symm, writeStatus,
    State.frame_modCube_of_frames fun q => faceWrite_keeps Cube.frames (fun _ _ _ => rfl) q _ _]

/-- A message ended at once writes its STATUS and signals. -/
theorem endMsg_single {s : State} {c : CubeId} {f : FrameId} {m : MsgAct} (hmsgs : (s.frame c f).fl.msgs = [m]) (hacc : m.acc = none)
    (hsrc : m.srcB = []) (hsig : m.sig.toNat < 8) (code bytes : Nat) : endMsg s c f m.msgid code bytes =
      (completed (setMsg s c f m.msgid fun m => { m with ended := some code, perf := bytes }) c f { m with ended := some code, perf := bytes } code).modFrame
        c f (Frame.signals m.sig) := by
  have hmsgs' : ((setMsg s c f m.msgid fun m => { m with ended := some code, perf := bytes }).frame c f).fl.msgs =
      [{ m with ended := some code, perf := bytes }] := by
    rw [setMsg_msgs, hmsgs]
    simp
  rw [endMsg, msgCompleteRun_ended (m := { m with ended := some code, perf := bytes }) hmsgs' rfl hacc hsrc, signalOwn_cases (.inl hsig)]

/-- A message without data for a buffer of another frame: the buffer is full, both tasks hear of it, and nothing is left (R260). -/
theorem emptyMessage {s : State} {c rc : CubeId} {f rf : FrameId} {m : MsgAct} {b : Nat} {sig : BitVec 6} {y : Buf}
    (hmsgs : (s.frame c f).fl.msgs = [m]) (hacc : m.acc = none) (hsrc : m.srcB = []) (hsig : m.sig.toNat < 8)
    (hy : (s.frame rc rf).buf b = some y) (hst : y.st ≠ .filling) (haway : (s.frame rc rf).away = false) (hrsig : sig.toNat < 8)
    (hne : (c, f) ≠ (rc, rf)) : let t := endMsg (fillEmpty s rc rf b sig) c f m.msgid 0 0
    t.mem = s.mem ∧ (t.frame c f).fl.msgs = [] ∧ (t.frame rc rf).buf b = some { y with st := .full, fill := 0 } ∧
      (t.frame rc rf).sync.df = (s.frame rc rf).sync.df ||| (1#8 <<< sig.toNat) ∧
      (t.frame c f).sync.df = (s.frame c f).sync.df ||| (1#8 <<< m.sig.toNat) := by
  have hframe : (s.modFrame rc rf (emptyFilled b y.gen sig)).frame c f = s.frame c f := State.frame_modFrame_ne hne _
  have hend := endMsg_single (s := s.modFrame rc rf (emptyFilled b y.gen sig)) (by rw [hframe, hmsgs]) hacc hsrc hsig 0 0
  dsimp only
  rw [fillEmpty_flag hy haway hrsig, hend]
  have hsync := setMsg_keeps Frame.sync (fun _ _ => rfl) (s.modFrame rc rf (emptyFilled b y.gen sig)) c c f f m.msgid
    fun m => { m with ended := some 0, perf := 0 }
  rw [hframe] at hsync
  refine ⟨rfl, ?_, ?_, ?_, ?_⟩
  · rw [State.frame_modFrame_same, completed_frame]
    rfl
  · rw [State.frame_modFrame_ne hne.symm, completed_frame_of_ne hne, setMsg, State.frame_modFrame_ne hne.symm, State.frame_modFrame_same,
      emptyFilled_buf hy hst]
  · rw [State.frame_modFrame_ne hne.symm, completed_frame_of_ne hne, setMsg, State.frame_modFrame_ne hne.symm, State.frame_modFrame_same,
      emptyFilled_df]
  · rw [State.frame_modFrame_same, completed_frame, Frame.signals]
    dsimp only
    rw [if_pos hsig, hsync]

end Sys2Proof.Machine
end

section
/-! SUPPORT. A header for another package, and the header of another package (R217, R258, R259, R361, R363). -/

namespace Sys2Proof.Machine

/-! The log of a walk. -/

theorem logFail_keeps {α : Type} (p : State → α) (hp : ∀ s code cube l, p (logEvent s code cube l) = p s) (s : State) (cube part : Nat)
    (asid : BitVec 16) (va : Nat) (w : Except WalkFail TlbEnt) : p (logFail s cube part asid va w) = p s := by
  unfold logFail
  split
  · split
    · exact hp ..
    · rfl
  · rfl

/-- What no event touches is as it was once the walks of a line have been logged. -/
theorem logLine_keeps {α : Type} (p : State → α) (hp : ∀ s code cube l, p (logEvent s code cube l) = p s) (s : State) (c : CubeId) (f : FrameId)
    (m : MsgAct) (i : Nat) : p (logLine s c f m i) = p s := by
  have hwalk : ∀ (t : State) va, p (logWalk t c f .msg va) = p t := fun t va => logFail_keeps p hp ..
  rw [logLine]
  split_ifs
  · rfl
  · exact hwalk ..
  · exact hwalk ..
  · exact (hwalk ..).trans (hwalk ..)

/-- A read that ends changes the buffers alone. -/
theorem readDone_keeps {α : Type} (p : Frame → α) (hp : ∀ r i b, p (Frame.setBuf r i b) = p r) (r : Frame) (l : List BufRef) :
    p (readDone r l) = p r := by
  refine foldl_keeps p (fun r x => ?_) l r
  obtain ⟨i, g⟩ := x
  dsimp only
  split
  · split
    · exact hp ..
    · rfl
  · rfl

/-! The header of a message to another package. -/

/-- The walks of the first lines of a message logged, and its configuration words read. -/
def headRead (s : State) (c : CubeId) (f : FrameId) (m : MsgAct) : State :=
  { (List.range (msgPre m)).foldl (fun s i => logLine s c f m i) s with fresh := s.fresh + m.olds.length + 1 }

section
variable (s : State) (c : CubeId) (f : FrameId) (m : MsgAct)

theorem headRead_keeps {α : Type} (p : State → α) (hp : ∀ s code cube l, p (logEvent s code cube l) = p s)
    (hfresh : ∀ s n, p { s with fresh := n } = p s) : p (headRead s c f m) = p s :=
  (hfresh ((List.range (msgPre m)).foldl (fun s i => logLine s c f m i) s) _).trans (foldl_keeps p (fun s i => logLine_keeps p hp s c f m i) _ _)

theorem sameWires_headRead : SameWires c s (headRead s c f m) :=
  ⟨headRead_keeps s c f m State.hub (fun _ _ _ _ => rfl) fun _ _ => rfl, headRead_keeps s c f m State.pkg (fun _ _ _ _ => rfl) fun _ _ => rfl,
    congrArg Cube.fab (headRead_keeps s c f m (fun t => t.cube c) (fun _ _ _ _ => rfl) fun _ _ => rfl)⟩

end

theorem wireId_congr {s t : State} (h : t.pkg = s.pkg) (id : Nat) : wireId t id = wireId s id := by
  rw [wireId, wireId, h]

theorem wireKey_congr {s t : State} (h : t.pkg = s.pkg) (k : MsgKey) : wireKey t k = wireKey s k := by
  rw [wireKey, wireKey, wireId_congr h]

/-- The part of a message that its sender keeps while it goes to another package, with its first lines. -/
def farPart (s : State) (c : CubeId) (f : FrameId) (m : MsgAct) : FarMsg :=
  ⟨false, (List.range (msgPre m)).map (farLine s c f m), [], linesPast (msgLen m.rc) m.sent (msgPre m), []⟩

theorem farPart_of_sent {m : MsgAct} (h : m.sent = 0) (s : State) (c : CubeId) (f : FrameId) : farPart s c f m =
    ⟨false, (List.range (msgPre m)).map (farLine s c f m), [], (List.range (lineCount (msgLen m.rc))).filter fun i => decide (msgPre m ≤ i), []⟩ := by
  rw [farPart, h, linesPast_zero]

section
variable {s : State} {c : CubeId} {f : FrameId} {m : MsgAct} {x : Task} {pkg : Nat} (hfar : m.far = none) (hbuf : msgToBuffer m.rc = true)
include hfar hbuf

theorem farHeader_buffer : ∃ tag, farHeader s c f x m pkg 0 = setMsg (sendFar (headRead s c f m) x.part c pkg 0
    (.msgHeader (wireKey s (msgKey x m.msgid)) m.cls true (wireId s x.launch) (bits (msgHandle m.rc) 8 6) (bits (msgHandle m.rc) 0 2)
      (BitVec.ofNat 6 (msgBuf m.rc)) (msgRsig m.rc) (recW m.rc 0) (msgLen m.rc) m.sent (farPart s c f m).head) tag)
    c f m.msgid fun n => { n with far := some (farPart s c f m) } := by
  have hpkg : (headRead s c f m).pkg = s.pkg := (sameWires_headRead s c f m).pkg
  refine ⟨reqTag ((headRead s c f m).frame c f) m.info m.id (w64 (recW m.rc 0)), ?_⟩
  rw [farHeader]
  dsimp only
  rw [hfar, hbuf, if_neg (by decide), if_pos rfl, ← wireKey_congr hpkg, ← wireId_congr hpkg]
  rfl

/-- A message once its header has left for another package; a source read whole is given back (R74, R257). -/
def headerLeft (s : State) (c : CubeId) (f : FrameId) (m : MsgAct) : MsgAct :=
  { m with far := some (farPart s c f m), srcB := if msgLen m.rc ≤ 64 * msgPre m then [] else m.srcB }

/-- A header leaves with its first lines over a port that is up, where none of them is refused and it is their turn (R258, R259). -/
theorem leaveFar_leaves (hmsgs : (s.frame c f).fl.msgs = [m]) (hup : portUp s c pkg 0 = true) (hrefused : msgLineRefused s c f m = none)
    (hturn : ∀ j, j < msgPre m → lineTurn s c f m j = true) : let t := leaveFar s c f x m pkg 0
    t.mem = s.mem ∧ Posted s t c pkg (.msgHeader (wireKey s (msgKey x m.msgid)) m.cls true (wireId s x.launch) (bits (msgHandle m.rc) 8 6)
        (bits (msgHandle m.rc) 0 2) (BitVec.ofNat 6 (msgBuf m.rc)) (msgRsig m.rc) (recW m.rc 0) (msgLen m.rc) m.sent (farPart s c f m).head) ∧
      (t.frame c f).fl.msgs = [headerLeft s c f m] := by
  have hgo : m.far.isNone = true ∧ portUp s c pkg 0 = true ∧ (msgLineRefused s c f m).isNone = true ∧
      (List.range (msgPre m)).all (lineTurn s c f m) = true := by
    simpa [hfar, hup, hrefused] using hturn
  obtain ⟨tag, hheader⟩ := farHeader_buffer (c := c) (f := f) (s := s) (x := x) (pkg := pkg) hfar hbuf
  have hposted := (sameWires_headRead s c f m).posted x.part pkg (.msgHeader (wireKey s (msgKey x m.msgid)) m.cls true (wireId s x.launch)
    (bits (msgHandle m.rc) 8 6) (bits (msgHandle m.rc) 0 2) (BitVec.ofNat 6 (msgBuf m.rc)) (msgRsig m.rc) (recW m.rc 0) (msgLen m.rc) m.sent
    (farPart s c f m).head) tag
  have hmem := headRead_keeps s c f m State.mem (fun _ _ _ _ => rfl) fun _ _ => rfl
  have hframe : ((headRead s c f m).frame c f).fl.msgs = [m] :=
    (congrArg (fun r => r.fl.msgs) (headRead_keeps s c f m (fun t => t.frame c f) (fun _ _ _ _ => rfl) fun _ _ => rfl)).trans hmsgs
  have hsent : ((farHeader s c f x m pkg 0).frame c f).fl.msgs = [{ m with far := some (farPart s c f m) }] := by
    have hsend : ∀ k tag, ((sendFar (headRead s c f m) x.part c pkg 0 k tag).frame c f).fl.msgs = [m] := fun _ _ => hframe
    rw [hheader, setMsg_msgs, hsend]
    simp
  intro t
  have ht : t = if msgLen m.rc ≤ 64 * msgPre m then sourceRead (farHeader s c f x m pkg 0) c f m else farHeader s c f x m pkg 0 := if_pos hgo
  rw [ht, headerLeft]
  split
  · refine ⟨?_, ?_, ?_⟩
    · rw [hheader]
      exact hmem
    · rw [hheader]
      exact hposted.of_hub rfl
    · rw [sourceRead, setMsg_msgs, frame_modFrame_keeps (fun r => r.fl.msgs) (fun r => readDone_keeps (fun r => r.fl.msgs) (fun _ _ _ => rfl) r _), hsent]
      simp
  · refine ⟨?_, ?_, ?_⟩
    · rw [hheader]
      exact hmem
    · rw [hheader]
      exact hposted.of_hub rfl
    · exact hsent

end

end Sys2Proof.Machine
end

section
/-! SUPPORT. The header of another package (R258, R260, R361, R363, R368). -/

namespace Sys2Proof.Machine

/-! The lines that came with it. -/

/-- The first lines of a message, which came with its header, are written. -/
def headWritten (s : State) (rc : CubeId) (q : YReq) (head : List MsgLine) : State :=
  head.zipIdx.foldl (fun s x => writeFar s rc q x.2 x.1) s

/-- For a global destination no line of it touches a cube or the hub. -/
theorem headWritten_keeps {α : Type} (p : State → α) (hp : ∀ s t : State, p { s with mem := t.mem, merge := t.merge, poison := t.poison } = p s)
    (s : State) (rc : CubeId) {q : YReq} (hrecv : q.recv = none) (head : List MsgLine) : p (headWritten s rc q head) = p s := by
  refine foldl_keeps p (fun s x => ?_) _ _
  cases hpa : x.1.pa with
  | none => rw [writeFar, farDst, hrecv, hpa]; rfl
  | some a =>
    rw [writeFar_glob hrecv hpa]
    exact writePlace_glob_keeps _ _ _ _ _ p hp

theorem sameWires_headWritten (s : State) (rc : CubeId) {q : YReq} (hrecv : q.recv = none) (head : List MsgLine) :
    SameWires rc s (headWritten s rc q head) :=
  ⟨headWritten_keeps State.hub (fun _ _ => rfl) s rc hrecv head, headWritten_keeps State.pkg (fun _ _ => rfl) s rc hrecv head,
    congrArg Cube.fab (headWritten_keeps (fun t => t.cube rc) (fun _ _ => rfl) s rc hrecv head)⟩

theorem headWritten_line (s : State) (rc : CubeId) {q : YReq} (hrecv : q.recv = none) {x : MsgLine} {a : Nat} (hpa : x.pa = some a) :
    (∀ i, i < min 64 q.len → mergedByte (headWritten s rc q [x]) (a + i) = x.data.getD i 0) ∧
      ∀ p, p < a ∨ a + min 64 q.len ≤ p → mergedByte (headWritten s rc q [x]) p = mergedByte s p := by
  have hwrite : headWritten s rc q [x] = writePlace s rc (.glob a) ((x.data ++ List.replicate 64 0).take (min 64 q.len)) x.bad :=
    writeFar_glob hrecv hpa 0
  have hb := length_padded x.data (Nat.min_le_left 64 q.len)
  rw [hwrite]
  refine ⟨fun i hi => ?_, fun p hp => ?_⟩
  · rw [mergedByte_writePlace_glob, hb, if_pos (by omega), Nat.add_sub_cancel_left, getD_padded _ hi]
  · rw [mergedByte_writePlace_glob, hb, if_neg (by omega)]

/-! The request. -/

theorem withReq_cubes {s t : State} (h : t.cubes = s.cubes) (rc : CubeId) (q : YReq) : (withReq t rc q).cubes = (withReq s rc q).cubes := by
  simp [withReq, State.modCube, State.setCube, State.cube, h]

theorem sameWires_withReq (s : State) (rc : CubeId) (q : YReq) : SameWires rc s (withReq s rc q) :=
  (SameWires.refl rc s).modCube rc fun _ => by rfl

/-- The lines after the first n. -/
def linesAfter (len n : Nat) : List Nat := (List.range (lineCount len)).filter fun i => decide (n ≤ i)

/-- The request of a header of another package, whose first lines have come with it. -/
def headerReq (s : State) (rc : CubeId) (r : RemoteReq) (key : MsgKey) (cls : BitVec 2) (recv : Option (Nat × BufRef)) (sig : BitVec 6)
    (a len : Nat) (head : List MsgLine) : YReq :=
  openedReq s rc r.srcPkg r.srcCube.val key cls recv (recvName s rc recv) sig a len (linesAfter len head.length) (linesAfter len head.length) []

theorem openFar_newReq {s : State} {rc : CubeId} {r : RemoteReq} {key : MsgKey} {cls : BitVec 2} {recv : Option (Nat × BufRef)} {sig : BitVec 6}
    {a len : Nat} {head : List MsgLine}
    (hcubes : (headWritten s rc (newReq s rc r.srcPkg r.srcCube.val key cls recv sig a len) head).cubes = s.cubes) :
    openFar s rc (newReq s rc r.srcPkg r.srcCube.val key cls recv sig a len) 0 head =
      withReq (headWritten s rc (newReq s rc r.srcPkg r.srcCube.val key cls recv sig a len) head) rc (headerReq s rc r key cls recv sig a len head) := by
  have hcube : (headWritten s rc (newReq s rc r.srcPkg r.srcCube.val key cls recv sig a len) head).cube rc = s.cube rc := by
    rw [State.cube, State.cube, hcubes]
  rw [openFar, linesPast_zero]
  exact addReq_newReq hcube ..

/-! What the receiver answers. -/

section
variable {s : State} {r : RemoteReq} {key : MsgKey} {cls : BitVec 2} {launch srank rank : Nat} {buf rsig : BitVec 6} {dst len : Nat}
  {head : List MsgLine} (hnone : reqOf s r.srcPkg key = none)
include hnone

/-- A header for a global destination that this package's pins refuse. -/
theorem acceptRemote_refused {k : Nat} (hcheck : targetCheck s r.fpid (homePa s r.local_.toNat) true = some k) :
    acceptRemote s r key cls false launch srank rank buf rsig dst len 0 head =
      refuseRemote s r (cubeOf (paCube (homePa s r.local_.toNat))) (paLocal (homePa s r.local_.toNat)) k 3 := by
  rw [acceptRemote]
  dsimp only
  rw [hnone]
  dsimp only
  rw [if_neg (by decide), List.findSome?_cons, hcheck]
  rfl

variable (hlen : 0 < len)
include hlen

/-- A header for a global destination that the pins let through, each line that came with it too. -/
theorem acceptRemote_global
    (hcheck : ∀ b ∈ homePa s r.local_.toNat :: head.filterMap (·.pa), targetCheck s r.fpid b true = none)
    (hroom : reqsFull s (cubeOf (paCube (homePa s r.local_.toNat))) = false) : let rc := cubeOf (paCube (homePa s r.local_.toNat))
    let q := newReq s rc r.srcPkg r.srcCube.val key cls none 63 (homePa s r.local_.toNat) len
    let t := withReq (headWritten s rc q head) rc (headerReq s rc r key cls none 63 (homePa s r.local_.toNat) len head)
    acceptRemote s r key cls false launch srank rank buf rsig dst len 0 head =
      sendFar t ((cubePart t rc.val).getD 0) rc r.srcPkg 0 (.msgAnswer key true) := by
  intro rc q t
  have hpass : (homePa s r.local_.toNat :: head.filterMap (·.pa)).findSome? (fun b => (targetCheck s r.fpid b true).map fun k => (b, k)) = none :=
    List.findSome?_eq_none_iff.2 fun b hb => by rw [hcheck b hb]; rfl
  have hopen := openFar_newReq (sig := 63) (headWritten_keeps State.cubes (fun _ _ => rfl) s rc (q := q) rfl head)
  rw [acceptRemote]
  dsimp only
  rw [hnone]
  dsimp only
  rw [if_neg (by decide), hpass]
  dsimp only
  rw [if_neg (by rw [hroom]; decide), if_neg (by omega), hopen]

variable {rc : CubeId} {rf : FrameId} (hmember : remoteMember s r.fpid launch srank rank = some (.frame rc rf))
  (haway : (s.frame rc rf).away = false)
include hmember haway

omit hlen in
theorem acceptRemote_bars (hrefuses : refusesMsg (s.frame rc rf) buf.toNat dst len = true) (sent : Nat) :
    acceptRemote s r key cls true launch srank rank buf rsig dst len sent head =
      sendFar s ((cubePart s rc.val).getD 0) rc r.srcPkg 0 (.msgAnswer key false) := by
  rw [acceptRemote]
  dsimp only
  rw [hnone]
  dsimp only
  rw [if_pos rfl, hmember]
  dsimp only
  rw [memberDest, if_neg (by rw [haway]; decide)]
  dsimp only
  rw [if_pos hrefuses]

theorem acceptRemote_fills {y : Buf} (hy : (s.frame rc rf).buf buf.toNat = some y)
    (hrefuses : refusesMsg (s.frame rc rf) buf.toNat dst len = false) (hroom : reqsFull s rc = false) :
    let t := withReq (s.modFrame rc rf (fillTaken buf.toNat y)) rc (headerReq s rc r key cls (some (rf.val, (buf.toNat, y.gen))) rsig dst len [])
    acceptRemote s r key cls true launch srank rank buf rsig dst len 0 [] =
      sendFar t ((cubePart t rc.val).getD 0) rc r.srcPkg 0 (.msgAnswer key true) := by
  intro t
  have hfill : (s.modFrame rc rf fun r => acceptFill r buf.toNat) = s.modFrame rc rf (fillTaken buf.toNat y) :=
    modFrame_congr _ _ _ _ _ (acceptFill_buf hy)
  have hopen := openFar_newReq (s := s.modFrame rc rf (fillTaken buf.toNat y)) (rc := rc) (r := r) (key := key) (cls := cls)
    (recv := some (rf.val, (buf.toNat, y.gen))) (sig := rsig) (a := dst) (len := len) (head := []) rfl
  have htask : ∀ x, (fillTaken buf.toNat y x).task = x.task := fun _ => rfl
  rw [headerReq, openedReq_modFrame htask] at hopen
  rw [acceptRemote]
  dsimp only
  rw [hnone]
  dsimp only
  rw [if_pos rfl, hmember]
  dsimp only
  rw [memberDest, if_neg (by rw [haway]; decide)]
  dsimp only
  rw [if_neg (by rw [hrefuses]; decide), if_neg (by rw [hroom]; decide), if_neg (by omega), hy]
  dsimp only
  rw [hfill, hopen]
  rfl

end

end Sys2Proof.Machine
end

section
/-! CLAIM. Headers of messages: how they leave, and how they are accepted or refused (R74, R75, R217, R255 to R262, R361 to R368). -/
open Sys2Proof Sys2Proof.Machine

/-- Settles O42: each header's fate is one equation of `acceptTask` or `acceptRemote`. -/
theorem headersAreAcceptedOrRefused : Obligations.HeadersAreAcceptedOrRefused := by
  intro s c f x hpower htask hhere answers opens name fills bars room
  have hrun := fun t => powered_of_power hpower t
  refine ⟨fun k rc cls msgid hop hfl hwait hlvl hclock hfails hrefused pa hpa => ?_, fun l k hl => ⟨?_, fun hk hfree => ?_⟩,
    fun k w y rc cls msgid t hop hqueue hls hexec hw hy hid hmsgs => ?_, fun m hmsgs hacc hended hfar => ?_,
    fun p sc fpid key cls tb l launch srank rank buf rsig dst len head hnone hlen => ?_⟩
  · have hsend := accessSendRun_msend hop (by rw [hfl]) (by rw [hfl]; rfl) htask hhere (by rw [hfl]; rfl)
    exact (hrun _).trans (congrArg _ (hsend.trans (sendMsend_leaves hfl hwait hlvl hclock hfails hrefused hpa)))
  · simpa using freeMsgid_notMem k hl
  · have hmod : k % 2 ^ 24 = k := Nat.mod_eq_of_lt hk
    exact (freeMsgid_first (by rw [hmod]; simpa using hfree)).trans hmod
  · have ht : t = accessSendRun s c f k.id 0 := (Host.Outcome.next.inj ((hrun _).symm.trans hexec)).symm
    exact accessSendRun_msgid hop hqueue hls htask hhere hw (ht ▸ hy) hid hmsgs
  · intro key n b d all pre past note accepted request i hi
    have hheader := exec_header hpower htask hmsgs hacc hended hfar hi
    refine ⟨fun hnone hsent => ⟨fun rc rf hbuf hdest => ⟨fun hb => ?_, fun y hy => ⟨fun hbars => ?_, fun hbars hroom hlen => ?_,
      fun hbars hroom hlen hsrc hst hne _ hrsig hsig => ?_⟩⟩, fun a hbuf hpa hpkg hlen hroom => ?_, fun hbuf hdest => ?_⟩,
      fun rc q hreq hreqs htoks hclosed hrecv => ?_⟩
    · exact hheader.trans (congrArg _ (acceptTask_refused htask hhere hnone hbuf hdest (refusesMsg_none hb _ _)))
    · exact hheader.trans (congrArg _ (acceptTask_refused htask hhere hnone hbuf hdest ((refusesMsg_iff hy).2 hbars)))
    · have hfills := acceptTask_fills htask hhere hnone hsent hbuf hdest hy (Bool.eq_false_iff.2 (mt (refusesMsg_iff hy).1 hbars))
        ((reqsFull_iff s rc).2 hroom) hlen
      rw [taskReq, recvName_buffer] at hfills
      exact hheader.trans (congrArg _ hfills)
    · have hempty := acceptTask_buffer htask hhere hnone hbuf hdest
      rw [if_neg (mt (refusesMsg_iff hy).1 hbars), if_neg (by rw [(reqsFull_iff s rc).2 hroom]; decide), if_pos hlen] at hempty
      exact ⟨_, hheader.trans (congrArg _ hempty), emptyMessage hmsgs hacc hsrc hsig hy hst (handleDest_here hdest) hrsig hne⟩
    · exact hheader.trans (congrArg _ (acceptTask_global htask hhere hnone hsent hbuf hpa hpkg hlen ((reqsFull_iff s _).2 hroom)))
    · intro h pkg head hup hrefused hturn
      have hpre : msgPre m = pre := if_pos hsent
      have hleaves := leaveFar_leaves (x := x) hfar hbuf hmsgs hup hrefused fun j hj => hturn j (hpre ▸ hj)
      rw [hsent, headerLeft, farPart_of_sent hsent, hpre] at hleaves
      exact ⟨_, hheader.trans (congrArg _ (acceptTask_away htask hhere hnone hbuf hdest)), hleaves⟩
    · intro rest
      have hroom : reqsFull s rc = false := (reqsFull_iff s rc).2 (by rw [hreqs]; simp [hclosed])
      have hreopen := acceptTask_reopens htask hhere hreq hclosed hrecv hroom
      rw [reopen_single hreqs htoks] at hreopen
      exact hheader.trans (congrArg _ hreopen)
  · intro i all request
    let r : RemoteReq := ⟨p, sc, fpid, s.pkg, l, 0, none, .msgHeader key cls tb launch srank rank buf rsig dst len 0 head⟩
    have hheader : exec i s = .next (acceptRemote s r key cls tb launch srank rank buf rsig dst len 0 head) := hrun _
    refine ⟨fun htb => ?_, fun rc rf htb hhead hmember haway y hy => ⟨fun hbars => ?_, fun hbars hroom => ?_⟩⟩
    · subst htb
      intro a rc
      have ha : homePa s r.local_.toNat = a := by rw [homePa, Nat.shiftLeft_eq]
      refine ⟨fun hcheck hroom => ?_, fun k hcheck => ?_⟩
      · have haccept := acceptRemote_global (r := r) (cls := cls) (launch := launch) (srank := srank) (rank := rank) (buf := buf) (rsig := rsig)
          (dst := dst) (head := head) hnone hlen (by rw [ha]; exact hcheck) (by rw [ha]; exact (reqsFull_iff s rc).2 hroom)
        rw [ha] at haccept
        refine ⟨_, hheader.trans (congrArg _ haccept), withReq_cubes (headWritten_keeps State.cubes (fun _ _ => rfl) s rc rfl head) rc _,
          ((sameWires_headWritten s rc rfl head).trans (sameWires_withReq _ rc _)).posted .., ?_, ?_⟩
        · rintro rfl
          exact ⟨rfl, rfl⟩
        · rintro y b rfl hb
          exact headWritten_line s rc (q := newReq s rc p sc.val key cls none 63 a len) rfl hb
      · have hrefused := acceptRemote_refused (r := r) (cls := cls) (launch := launch) (srank := srank) (rank := rank) (buf := buf) (rsig := rsig)
          (dst := dst) (len := len) (head := head) hnone (by rw [ha]; exact hcheck)
        rw [ha] at hrefused
        exact ⟨_, hheader.trans (congrArg _ hrefused), rfl, rfl, rfl, rfl⟩
    · have hbarred := acceptRemote_bars (r := r) (key := key) (cls := cls) (rsig := rsig) (head := head) hnone hmember haway
        ((refusesMsg_iff hy).2 hbars) 0
      subst htb
      exact ⟨_, hheader.trans (congrArg _ hbarred), rfl, rfl, (SameWires.refl rc s).posted ..⟩
    · have hfilled := acceptRemote_fills (r := r) (cls := cls) (rsig := rsig) hnone hlen hmember haway hy
        (Bool.eq_false_iff.2 (mt (refusesMsg_iff hy).1 hbars)) ((reqsFull_iff s rc).2 hroom)
      subst htb hhead
      rw [headerReq, recvName_buffer] at hfilled
      exact ⟨_, hheader.trans (congrArg _ hfilled), rfl, rfl,
        (((SameWires.refl rc s).modFrame rc rf _).trans (sameWires_withReq _ rc _)).posted ..⟩

end
